-- ==== Sys2Proof/Word.lean ====
section
/-! DEFINITION. The words the manual counts in: bytes, ticks, measurement codes, identities and the
numbers of lines, groups, positions, channels, profiles and calls (chapter 00, section 5). -/

namespace Sys2Proof

/-- One byte of a frame, of a stored item or of an identity burst. -/
abbrev Byte := BitVec 8

/-- A time stamp: a 32-bit count of 10 ms intervals, wrapping (section 5.3). -/
abbrev Tick := BitVec 32

/-- A measurement code of a front end, 0 to 4095 (section 5.2). -/
abbrev Code := BitVec 12

/-- A post identity, an acceptance pattern or a mask: 24 bits (R52, R62). -/
abbrev Ident := BitVec 24

/-- A distance marker in units of 10 m (section 5.5). -/
abbrev Marker := BitVec 16

/-- A line, 0 to 63 (section 5.1). -/
abbrev LineId := Fin 64

/-- A line group, 0 to 7 (section 5.1). -/
abbrev GroupId := Fin 8

/-- A position within a group, 0 to 7 (section 5.1). -/
abbrev Pos := Fin 8

/-- A speech channel, 0 to 5 (R126). -/
abbrev ChannelId := Fin 6

/-- A threshold profile, 0 to 3 (R18). -/
abbrev ProfileId := Fin 4

/-- A call id as a message carries it: 1 to 255 names a call, 0 names none (section 5.6). -/
abbrev CallId := Fin 256

/-- Line n belongs to group n div 8 (section 5.1). -/
def LineId.group (n : LineId) : GroupId := ⟨n.val / 8, by omega⟩

/-- Line n sits at position n mod 8 of its group (section 5.1). -/
def LineId.pos (n : LineId) : Pos := ⟨n.val % 8, by omega⟩

/-- The line at a position of a group (section 5.1). -/
def lineAt (g : GroupId) (p : Pos) : LineId := ⟨g.val * 8 + p.val, by omega⟩

/-- Elapsed ticks: the difference of two ticks modulo 2^32 (section 5.3). -/
def ticksSince (now earlier : Tick) : Nat := (now - earlier).toNat

end Sys2Proof
end

