-- ==== Sys2Proof/Config.lean ====
section
/-! DEFINITION. The fixed numbers of the part, each with the rule that gives it. Times are in
milliseconds unless a name says seconds. The one value that the manual
leaves open is a free value, a constant without a body. -/

namespace Sys2Proof.Config

/-- Frame SYNC byte (R149). -/
def sync : Byte := 0xA5#8
/-- Frame timer (R149). -/
def frameTime : Nat := 100
/-- Silence timer of a centre link (R153). -/
def silenceTime : Nat := 5000
/-- Valid frames in a row that recover a LOST link (R155). -/
def recoveryFrames : Nat := 64
/-- Health score of a LOST link (R152). -/
def lostScore : Nat := 256
/-- Rise of the health score for a bad frame (R152). -/
def badFrameCost : Nat := 8
/-- Capacity of an outbound queue (R157). -/
def queueCapacity : Nat := 8
/-- Capacity of the call register (R82). -/
def registerCapacity : Nat := 16
/-- Capacity of the abandoned list (R95). -/
def abandonedCapacity : Nat := 16
/-- Capacity of the store write queue (R75). -/
def writeCapacity : Nat := 4
/-- Time a write may take (R76). -/
def writeTime : Nat := 1000
/-- Time a load read may take (R171). -/
def readTime : Nat := 200
/-- Number of stored items (section 5.1). -/
def itemCount : Nat := 79
/-- Timer of a READY-mode order (R5). -/
def orderTime : Nat := 20
/-- No-samples in a row that make a group SILENT (R13). -/
def silentRun : Nat := 3
/-- Capture window of a line (R55). -/
def windowTime : Nat := 3000
/-- Dwell of a test (R140, R141). -/
def dwellTime : Nat := 500
/-- Time limit of a test (R136). -/
def testTime : Nat := 2000
/-- Debounce period of MAINS_OK and BATTERY_LOW (R168). -/
def supplyDebounce : Nat := 2000
/-- Debounce period of the maintenance key (R168). -/
def keyDebounce : Nat := 50
/-- The resistance that stands for "no current flows" (section 5.2). -/
def noCurrent : Nat := 65535
/-- Floor of the tracked idle resistance (R26). -/
def trackFloor : Nat := 2000
/-- Codes by which a foreign loop stands above the feed reference (R21). -/
def foreignMargin : Nat := 50
/-- Largest difference of codes on which the two paths agree (R11). -/
def pathTolerance : Nat := 25
/-- Fall of the voltage code that shows a continuous pair (R140). -/
def continuousDrop : Int := 100
/-- FREE VALUE: the four bytes that LINE_STATUS carries for a park of so many milliseconds, 2^32 or more (R33,
R177). The manual does not say what they are (DESIGN CHOICE, assumption 37). -/
opaque longPark : Nat → BitVec 32

end Sys2Proof.Config
end

