-- ==== Sys2Proof/Syntax.lean ====
section
/-! DEFINITION. The commands and events the part takes, one constructor per row of
spec/opcode_table.json, and the operands they carry. A link command carries the BODY bytes of its
frame, so that its length and value checks are the part's own work. -/

namespace Sys2Proof

/-- The three links (section 5.7). -/
inductive Link where
  | a | b | s
  deriving DecidableEq, Repr

/-- A centre link, A or B (section 5.7). -/
inductive Centre where
  | a | b
  deriving DecidableEq, Repr

/-- The three cabinet inputs (R168). -/
inductive Input where
  | mainsOk | batteryLow | key
  deriving DecidableEq, Repr

/-- A line entry as the store or a WRITE_DIRECTORY body gives it, before its ranges are checked
(R70, R78). Enumerations are numbered as R177 numbers them. -/
structure RawEntry where
  service : Nat
  identPresent : Nat
  ident : Nat
  sect : Nat
  marker : Nat
  cway : Nat
  home : Nat
  profile : Nat
  naming : Nat
  label : List Nat
  defaulted : Nat
  deriving DecidableEq, Repr

/-- A threshold profile: resistances and hysteresis in ohms, and the five confirm counts (R18). -/
structure Profile where
  short : Nat
  offMax : Nat
  term : Nat
  leak : Nat
  idleHi : Nat
  opn : Nat
  hyst : Nat
  cOffhook : Nat
  cIdle : Nat
  cShort : Nat
  cOpen : Nat
  cForeign : Nat
  deriving DecidableEq, Repr

/-- The five call timers, in seconds (R74). -/
structure CallTimers where
  escalate : Nat
  overdue : Nat
  longCall : Nat
  parkNotice : Nat
  ring : Nat
  deriving DecidableEq, Repr

/-- One entry of the acceptance table before its ranges are checked (R62). -/
structure RawAcceptance where
  pattern : Nat
  mask : Nat
  enable : Nat
  deriving DecidableEq, Repr

/-- The content of a stored item as the store hands it over, before it is judged (R78). -/
inductive RawItem where
  | acceptance (e0 e1 e2 e3 : RawAcceptance)
  | timers (t : CallTimers)
  | bearer (limitA limitB : Nat)
  | profile (p : Profile)
  | group (fitted settle pathCheck : Nat)
  | line (e : RawEntry)
  deriving DecidableEq, Repr

/-- What the store reports when it completes a read: success, the content's bytes with the CRC stored
beside them, and the field values those bytes hold (R78). -/
structure ReadReport where
  success : Bool
  bytes : List Byte
  crc : BitVec 16
  item : RawItem
  deriving DecidableEq, Repr

/-- The commands of the part: what its links, posts, front ends, store, inputs and timers hand it. -/
inductive Instr where
  /-- COLD_START (R170), with the levels of the three inputs at the start. -/
  | coldStart (mainsOk batteryLow key : Bool)
  /-- STORE_READ_COMPLETION (R171); `late` marks the completion of a read that has already ended. -/
  | storeReadCompletion (late : Bool) (report : ReadReport)
  /-- STORE_READ_TIMEOUT (R171). -/
  | storeReadTimeout
  /-- INPUT_CHANGE (R168): the input is now at this level. -/
  | inputChange (input : Input) (level : Bool)
  /-- DEBOUNCE_EXPIRY (R168). -/
  | debounceExpiry (input : Input)
  /-- PASS_TIMER_EXPIRY (R7). -/
  | passTimerExpiry (g : GroupId)
  /-- ORDER_READY (R5); `late` marks the ready signal of an order that has already ended. -/
  | orderReady (g : GroupId) (late : Bool) (vc ic : Code) (valid : Bool)
  /-- ORDER_READY_TIMEOUT (R5). -/
  | orderReadyTimeout (g : GroupId)
  /-- FIXED_SETTLE_END (R4). -/
  | fixedSettleEnd (g : GroupId) (vc ic : Code) (valid : Bool)
  /-- PROBE_DELAY_EXPIRY (R14). -/
  | probeDelayExpiry (g : GroupId)
  /-- PARK_TIMER_EXPIRY (R40). -/
  | parkTimerExpiry (n : LineId)
  /-- RING_TIMER_EXPIRY (R44). -/
  | ringTimerExpiry (n : LineId)
  /-- IDENTITY_BURST (R56): the bytes that arrived on the line, and whether the burst began after
  the receiver had begun to listen to the line (R53). -/
  | identityBurst (n : LineId) (bytes : List Byte) (heardStart : Bool)
  /-- WINDOW_TIMER_EXPIRY (R57). -/
  | windowTimerExpiry (n : LineId)
  /-- ESCALATION_TIMER_EXPIRY (R109). -/
  | escalationTimerExpiry (id : CallId)
  /-- OVERDUE_TIMER_EXPIRY (R110). -/
  | overdueTimerExpiry (id : CallId)
  /-- TRANSFER_TIMER_EXPIRY (R119). -/
  | transferTimerExpiry (id : CallId)
  /-- LONG_CALL_TIMER_EXPIRY (R117). -/
  | longCallTimerExpiry (id : CallId)
  /-- DWELL_TIMER_EXPIRY (R140, R141). -/
  | dwellTimerExpiry (g : GroupId)
  /-- TEST_TIME_LIMIT (R147). -/
  | testTimeLimit (g : GroupId)
  /-- HOOK_SENSE (R144). -/
  | hookSense (n : LineId)
  /-- STORE_WRITE_COMPLETION (R76); `late` marks the completion of a write that has already ended. -/
  | storeWriteCompletion (late : Bool) (success : Bool)
  /-- STORE_WRITE_TIMEOUT (R76). -/
  | storeWriteTimeout
  /-- FRAME_BAD (R149): the bytes received after SYNC, LEN first. -/
  | frameBad (l : Link) (bytes : List Byte)
  /-- FRAME_TIMER_EXPIRY (R149). -/
  | frameTimerExpiry (l : Link)
  /-- SILENCE_TIMER_EXPIRY (R153). -/
  | silenceTimerExpiry (c : Centre)
  /-- BREAK_RECOGNISED (R156). -/
  | breakRecognised (l : Link)
  /-- BREAK_LONG (R156). -/
  | breakLong (c : Centre)
  /-- BREAK_END (R156). -/
  | breakEnd (l : Link)
  /-- TRANSMISSION_COMPLETE (R159). -/
  | transmissionComplete (l : Link)
  /-- UNKNOWN_COMMAND (R150): a valid frame whose TYPE names no command. -/
  | unknownCommand (l : Link) (type : Byte) (body : List Byte)
  | keepalive (l : Link) (body : List Byte)
  | listCalls (l : Link) (body : List Byte)
  | listAbandoned (l : Link) (body : List Byte)
  | lineStatus (l : Link) (body : List Byte)
  | readDirectory (l : Link) (body : List Byte)
  | readProfile (l : Link) (body : List Byte)
  | readGroup (l : Link) (body : List Byte)
  | setWatch (l : Link) (body : List Byte)
  | claim (l : Link) (body : List Byte)
  | answerNext (l : Link) (body : List Byte)
  | hold (l : Link) (body : List Byte)
  | retrieve (l : Link) (body : List Byte)
  | release (l : Link) (body : List Byte)
  | transfer (l : Link) (body : List Byte)
  | ringPost (l : Link) (body : List Byte)
  | cancelRing (l : Link) (body : List Byte)
  | dismiss (l : Link) (body : List Byte)
  | handoverRequest (l : Link) (body : List Byte)
  | resume (l : Link) (body : List Byte)
  /-- SET_SERVICE whose service byte is not IN (R47). -/
  | setServiceOut (l : Link) (body : List Byte)
  /-- SET_SERVICE whose service byte is IN (R48). -/
  | setServiceIn (l : Link) (body : List Byte)
  | testLine (l : Link) (body : List Byte)
  | writeDirectory (l : Link) (body : List Byte)
  | writeProfile (l : Link) (body : List Byte)
  | setGroup (l : Link) (body : List Byte)
  | setAcceptance (l : Link) (body : List Byte)
  | setCallTimers (l : Link) (body : List Byte)
  | setBearer (l : Link) (body : List Byte)
  | restart (l : Link) (body : List Byte)
  /-- SYNC_BYTE_RECEIVED (R149): a byte 0xA5 received. -/
  | syncByteReceived (l : Link)
  deriving DecidableEq, Repr

/-- The link of a centre. -/
def Centre.link : Centre → Link
  | .a => .a
  | .b => .b

/-- The centre of a link; link S has none. -/
def Link.centre? : Link → Option Centre
  | .a => some .a
  | .b => some .b
  | .s => none

/-- The partner of A is B and the partner of B is A (section 5.7). -/
def Centre.partner : Centre → Centre
  | .a => .b
  | .b => .a

end Sys2Proof
end

