-- ==== Sys2Proof/Decode.lean ====
section
/-! DEFINITION. Commands spelled as numbers. The opcode table gives no row of this part any bits: its rows
are steps of a block, told apart by what happens at a pin, a timer or a link, not by a word of memory
(spec/opcode_table.json; every row's list of fields is empty). -/

namespace Sys2Proof

/-- The command that a word spells by the table's bits: none, since the table gives no row any bits. The
TYPE bytes by which a link names its commands are read by `Machine.Command` (R176). -/
def decodeTableWord (_nbits _w : Nat) : Option Instr := none

end Sys2Proof
end

