-- ==== Sys2Proof/Machine/State.lean ====
section
/-! DEFINITION. The state of the part, block by block, as plain data (section 3 of the scope chapter),
the reasons a step can stop, and the state right after a cold start. -/

namespace Sys2Proof.Machine

/-- A running timer: the length it was started with, and the moment it is due, both in milliseconds
of the model's clock. A stopped timer is `none`. -/
structure Timer where
  length : Nat
  due : Nat
  deriving DecidableEq, Repr

/-! ### Supply monitor (R168, R169) -/

/-- A cabinet input: its level, its taken value and its debounce timer (R168). -/
structure InputState where
  level : Bool
  taken : Bool
  debounce : Option Timer
  deriving DecidableEq, Repr

inductive PowerState where
  | normal | economy | reserve
  deriving DecidableEq, Repr

/-! ### Line scanner (R1 to R16) -/

inductive SettleMode where
  | fixed0 | fixed1 | fixed2 | ready
  deriving DecidableEq, Repr

inductive GroupHealth where
  | scanning | silent | pathFault
  deriving DecidableEq, Repr

inductive PassState where
  | idleWait | inPass | stopped
  deriving DecidableEq, Repr

/-- The two measurement paths of a front end (R10). -/
inductive Path where
  | main | check
  deriving DecidableEq, Repr

/-- What a measurement order measures: the feed point, or a line of the group. -/
inductive Target where
  | feed
  | position (p : Pos)
  deriving DecidableEq, Repr

/-- What the scanner made an order for (R8, R9, R10, R14). The second order of a path check carries
the sample of the first, absent when the first ended in no-sample. -/
inductive ScanPurpose where
  | feed
  | line (p : Pos)
  | checkMain (p : Pos)
  | checkSecond (p : Pos) (first : Option (Code × Code))
  | probe
  deriving DecidableEq, Repr

/-- The user of an order port that placed the order (R3). -/
inductive OrderOwner where
  | scanner (purpose : ScanPurpose)
  | test
  deriving DecidableEq, Repr

/-- What becomes of a placed order's outcome: it is used (`live`); its line lost fit, so the outcome is
discarded and the pass goes on (`lostFit`, R2); or its user dropped it, so the port alone is freed
(`stale`, R2, R16, R143, R148). -/
inductive OrderFate where
  | live | lostFit | stale
  deriving DecidableEq, Repr

/-- An order placed on a group's port: the settle mode it was placed with, and the 20 ms timer it has
in READY (R3 to R6). -/
structure PlacedOrder where
  owner : OrderOwner
  settle : SettleMode
  timer : Option Timer
  fate : OrderFate
  deriving DecidableEq, Repr

/-- The group record (R1), with the order port (R3), the scanner's waiting order (R3), the pass timer
(R7), the probe delay (R14) and the pass that a warm restart owes the group (R16). -/
structure GroupRecord where
  fitted : Fin 9
  settle : SettleMode
  pathCheck : Bool
  health : GroupHealth
  vf : Option Code
  noSampleRun : Nat
  discrepancyRun : Nat
  agreementRun : Nat
  checkPos : Pos
  probeCount : Nat
  pass : PassState
  passTimer : Option Timer
  probeDelay : Option Timer
  port : Option PlacedOrder
  scanWaiting : Option ScanPurpose
  restartPass : Bool
  deriving DecidableEq, Repr

/-! ### Loop classifier (R17) -/

/-- Confirmed and candidate classes (R17). -/
inductive LoopClass where
  | unknown | idle | offhook | short | opn | foreign
  deriving DecidableEq, Repr

/-- Raw classes (R25). -/
inductive RawClass where
  | idle | offhook | short | opn | foreign | marginal
  deriving DecidableEq, Repr

/-- The classifier state of a line (R17). -/
structure Classifier where
  confirmed : LoopClass
  candidate : Option LoopClass
  count : Nat
  rTrack : Nat
  rLast : Option Nat
  marginal : Nat
  leaky : Bool
  deriving DecidableEq, Repr

/-! ### Line condition unit (R33) -/

inductive FaultKind where
  | short | opn | foreign
  deriving DecidableEq, Repr

/-- The condition a TESTING line returns to (R33). -/
inductive PriorCondition where
  | idle
  | fault (k : FaultKind)
  | outOfService
  deriving DecidableEq, Repr

/-- The nine conditions, each with the fields R33 gives it alone. -/
inductive Condition where
  | notFitted
  | outOfService
  | idle
  | inCall
  | queued
  | ringing (timer : Timer) (link : Centre) (channel : ChannelId)
  | parked (timer : Option Timer) (noticeSent : Bool) (parkTick : Tick)
  | fault (k : FaultKind)
  | testing (prior : PriorCondition)
  deriving DecidableEq, Repr

inductive Tone where
  | none | registered | hold | wait | clear
  deriving DecidableEq, Repr

/-- The condition and the tone applied of a line (R33). -/
structure LineUnit where
  condition : Condition
  tone : Tone
  deriving DecidableEq, Repr

/-! ### Identity receiver (R52 to R62) -/

/-- The content of a valid identity burst (R53). -/
structure Burst where
  sect : Byte
  marker : Marker
  code : BitVec 2
  doorOpen : Bool
  lowBattery : Bool
  deriving DecidableEq, Repr

inductive CaptureResult where
  | received (b : Burst)
  | notReceived
  deriving DecidableEq, Repr

/-- A line in capture: its arrival tick and its window timer (R54). -/
structure Capture where
  arrival : Tick
  window : Timer
  deriving DecidableEq, Repr

/-- A group's identity receiver, IDLE when it listens to no line, and its ID wait list (R54). -/
structure Receiver where
  listening : Option LineId
  waiting : List LineId
  deriving DecidableEq, Repr

/-- An entry of the service acceptance table (R62). -/
structure Acceptance where
  pattern : Ident
  mask : Ident
  enable : Bool
  deriving DecidableEq, Repr

/-! ### Post directory (R68 to R80) -/

inductive Carriageway where
  | cw1 | cw2 | slip
  deriving DecidableEq, Repr

inductive NamingMode where
  | directory | reported | checked
  deriving DecidableEq, Repr

/-- The working copy of a line entry (R68). -/
structure Entry where
  inService : Bool
  expected : Option Ident
  sect : Byte
  marker : Marker
  cway : Carriageway
  label : List Byte
  home : Centre
  profile : ProfileId
  naming : NamingMode
  defaulted : Bool
  deriving DecidableEq, Repr

/-- The bearer limits of links A and B (R129). -/
structure Bearer where
  limitA : Nat
  limitB : Nat
  deriving DecidableEq, Repr

/-- The 79 stored items (section 5.1). -/
inductive Item where
  | acceptance
  | timers
  | bearer
  | profile (p : ProfileId)
  | group (g : GroupId)
  | line (n : LineId)
  deriving DecidableEq, Repr

/-- The content of a stored item (section 5.1). -/
inductive ItemContent where
  | acceptance (table : Vector Acceptance 4)
  | timers (t : CallTimers)
  | bearer (b : Bearer)
  | profile (p : Profile)
  | group (fitted : Fin 9) (settle : SettleMode) (pathCheck : Bool)
  | line (e : Entry)
  deriving DecidableEq, Repr

/-- An entry of the store write queue; it is WRITING while its timer runs and WAITING otherwise
(R75, R76). -/
structure WriteEntry where
  item : Item
  content : ItemContent
  writing : Option Timer
  deriving DecidableEq, Repr

/-- The load report (R80): the number of line entries loaded as defaults, and which other items were. -/
structure LoadReport where
  lines : Nat
  profiles : BitVec 4
  groups : BitVec 8
  acceptance : Bool
  timers : Bool
  bearer : Bool
  deriving DecidableEq, Repr

/-- The load of a cold start: the number of the read in progress, 1 to 79, the timer of that read, and
the report so far (R171). The part is STARTING while there is one (R170). -/
structure Load where
  read : Nat
  timer : Timer
  report : LoadReport
  deriving DecidableEq, Repr

/-! ### Call register (R81 to R102) -/

inductive Category where
  | emergency | breakdown | service | recall
  deriving DecidableEq, Repr

inductive CheckResult where
  | matched | mismatch | notExpected | notReceived
  | serviceAccepted (index : Fin 4)
  | serviceRefused
  deriving DecidableEq, Repr

inductive Source where
  | directory | reported
  deriving DecidableEq, Repr

/-- The location record (section 4.6); an absent carriageway is UNKNOWN. -/
structure Location where
  sect : Byte
  marker : Marker
  cway : Option Carriageway
  source : Source
  label : List Byte
  defaulted : Bool
  deriving DecidableEq, Repr

/-- The post status flags (R60). -/
structure PostFlags where
  doorOpen : Bool
  lowBattery : Bool
  deriving DecidableEq, Repr

inductive CallState where
  | identifying | waiting | offered | connected | held
  deriving DecidableEq, Repr

/-- A subset of the centre links. -/
structure CentreSet where
  a : Bool
  b : Bool
  deriving DecidableEq, Repr

/-- The five flags of a call record (R81). -/
structure CallFlags where
  orphan : Bool
  escalated : Bool
  overdue : Bool
  unsupervised : Bool
  doubtful : Bool
  deriving DecidableEq, Repr

/-- A call record (R81), its four timers (R106), the capture result it was resolved from (R90), whether
it has ever been claimed (R106, R108), and whether a long-call notice waits for a retrieve (R115). -/
structure CallRecord where
  id : CallId
  line : LineId
  category : Category
  arrival : Tick
  identity : Option Ident
  post : Option PostFlags
  check : CheckResult
  location : Option Location
  state : CallState
  offered : CentreSet
  claimant : Option Centre
  channel : Option ChannelId
  flags : CallFlags
  origin : Option Centre
  firstOffer : Option Tick
  connect : Option Tick
  longCall : Bool
  escalation : Option Timer
  overdueTimer : Option Timer
  transferTimer : Option Timer
  longTimer : Option Timer
  longWaits : Bool
  claimedOnce : Bool
  capture : Option CaptureResult
  deriving DecidableEq, Repr

/-- An entry of the overflow list (R87). -/
structure OverflowEntry where
  line : LineId
  arrival : Tick
  result : Option CaptureResult
  deriving DecidableEq, Repr

/-- An entry of the abandoned list (R94). -/
structure AbandonedEntry where
  id : CallId
  line : LineId
  category : Category
  arrival : Tick
  ended : Tick
  offered : CentreSet
  orphan : Bool
  deriving DecidableEq, Repr

/-- Call end reasons (R91), with the withdrawal reasons DISPLACED and HANDOVER (R177). -/
inductive EndReason where
  | callerCleared | lineLost | released | restart | displaced | handover
  deriving DecidableEq, Repr

/-! ### Channel table (R126) -/

inductive Channel where
  | free
  | reserved (line : LineId) (link : Centre)
  | connected (line : LineId) (link : Centre) (id : CallId)
  deriving DecidableEq, Repr

/-! ### Test unit (R136) -/

inductive TestKind where
  | openWire | insulation | pathCheck
  deriving DecidableEq, Repr

inductive TestPhase where
  | measureBefore | dwell | measureAfter
  | sourceDwell | measure
  | measureMain | measureCheck
  deriving DecidableEq, Repr

/-- Where the measurement order of a test stands (R136). -/
inductive TestOrder where
  | none | waiting | placed
  deriving DecidableEq, Repr

/-- The current test record of a RUNNING resource (R136). -/
structure TestRecord where
  line : LineId
  kind : TestKind
  requester : Link
  phase : TestPhase
  start : Tick
  limit : Timer
  dwell : Option Timer
  order : TestOrder
  samples : List (Code × Code)
  deriving DecidableEq, Repr

inductive AbortReason where
  | call | power | group | noSample
  deriving DecidableEq, Repr

/-- The outcome of a test with the measured fields of its kind (R140 to R143). -/
inductive TestOutcome where
  | continuous (before after : Code)
  | openWire (before after : Code)
  | pass (vc ic : Code) (vf : Option Code) (r : Nat)
  | lowInsulation (vc ic : Code) (vf : Option Code) (r : Nat)
  | foreign (vc ic : Code) (vf : Option Code)
  | agree (dv di : Int)
  | disagree (dv di : Int)
  | aborted (reason : AbortReason)
  deriving DecidableEq, Repr

/-- The fields of a TEST_RESULT (R143). -/
structure TestResult where
  line : LineId
  kind : TestKind
  outcome : TestOutcome
  health : GroupHealth
  elapsed : Nat
  deriving DecidableEq, Repr

/-! ### Messages (chapters 10 and 12) -/

/-- The fields of a CALL_OFFER as the rule that placed it gave them; its age is computed from
`arrival` when the transmitter takes it (R105, R178). -/
structure Offer where
  id : CallId
  line : LineId
  category : Category
  flags : CallFlags
  longCall : Bool
  originPresent : Bool
  check : CheckResult
  identity : Option Ident
  post : Option PostFlags
  location : Option Location
  arrival : Tick
  deriving DecidableEq, Repr

/-- The notices of classes 1, 2 and 3, in the order R157 lists them. -/
inductive Notice where
  | callOffer (o : Offer)
  | callWithdrawn (id : CallId) (line : LineId) (reason : EndReason)
  | callTaken (id : CallId) (line : LineId) (claimant : Centre)
  | callEnded (id : CallId) (line : LineId) (reason : EndReason)
  | callOverdue (id : CallId) (line : LineId) (category : Category) (age : Nat)
  | ringUnanswered (line : LineId)
  | longCall (id : CallId) (line : LineId) (time : Nat)
  | handoverDone
  | handoverCancelled
  | dutyResumed
  | powerState (new old : PowerState) (mainsOk batteryLow : Bool)
  | overflow (line : LineId) (count : Nat)
  | storeFault (item : Item)
  | loadDefaulted (report : LoadReport)
  | lineCondition (line : LineId) (condition : Condition) (leaky : Bool)
  | faultCleared (line : LineId) (kind : FaultKind)
  | handsetOff (line : LineId) (seconds : Nat)
  | groupSilent (g : GroupId)
  | groupRecovered (g : GroupId)
  | pathFault (g : GroupId) (raised : Bool)
  | testResult (r : TestResult)
  deriving DecidableEq, Repr

/-- The reply codes, numbered in this order from 0x00 (section 10.11, R176). -/
inductive ReplyCode where
  | ok | notPermitted | unknownCommand | badLength | badValue | starting | restarting
  | linkRecovering | noSuchCall | abandoned | notOffered | claimLost | notClaimant | wrongState
  | noChannel | noCallWaiting | lineBusy | lineNotFitted | lineInService | profileInUse | storeBusy
  | testRefused | testBusy | powerLimit | partnerUnavailable | handoverActive
  deriving DecidableEq, Repr

/-- What an outbound queue entry holds: a reply, naming the TYPE it answers, its code and the bytes of
the fields that follow, or a notice (R157, R176). -/
inductive Message where
  | reply (command : Byte) (code : ReplyCode) (fields : List Byte)
  | notice (n : Notice)
  deriving DecidableEq, Repr

/-! ### Link controllers (R149 to R166) -/

/-- The receiver; in BREAK it keeps whether the break has reached 2000 ms on link A or B (R149, R156). -/
inductive Receive where
  | hunt
  | frame (timer : Timer)
  | brk (long : Bool)
  deriving DecidableEq, Repr

/-- An entry of an outbound queue with its entry time; `followUp` marks the follow-up notice of a
leave (R157, R161). Its class is `Message.cls`. -/
structure QueueEntry where
  msg : Message
  time : Nat
  followUp : Bool
  deriving DecidableEq, Repr

/-- The transmitter: IDLE, or SENDING a message whose frame has been formed (R159). -/
inductive Transmit where
  | idle
  | sending (msg : Message) (frame : List Byte)
  deriving DecidableEq, Repr

inductive WatchMode where
  | all | ranges | rangesInverted
  deriving DecidableEq, Repr

/-- A range of a watch filter (R164). -/
structure WatchRange where
  sect : Byte
  low : Marker
  high : Marker
  deriving DecidableEq, Repr

structure WatchFilter where
  mode : WatchMode
  ranges : List WatchRange
  deriving DecidableEq, Repr

/-- A link controller (R149, R157, R159, R161, R162, R164); `submissions` counts the entries submitted
to the queue and gives each its entry time. -/
structure LinkController where
  receive : Receive
  queue : List QueueEntry
  submissions : Nat
  transmit : Transmit
  lostOffers : List CallId
  resync : Bool
  cleared : Bool
  watch : WatchFilter
  deriving DecidableEq, Repr

inductive Health where
  | good | poor | failing | lost
  deriving DecidableEq, Repr

inductive Duty where
  | active | handingOver | standby
  deriving DecidableEq, Repr

/-- What is held for links A and B alone: the health score and state, the recovery counter, the silence
timer (R152 to R155) and the duty state (R103). -/
structure CentreControl where
  score : Nat
  health : Health
  recovery : Nat
  silence : Option Timer
  duty : Duty
  deriving DecidableEq, Repr

/-! ### Orders to the road side -/

/-- An order the part gives to the devices it is the master of: front ends, crosspoint and store. -/
inductive Order where
  /-- A measurement order placed on a group's port (R3). -/
  | measure (g : GroupId) (target : Target) (path : Path)
  /-- A tone ordered for a line (R41). -/
  | tone (n : LineId) (t : Tone)
  /-- The ringing signal applied to a line or removed (R42 to R46). -/
  | ring (n : LineId) (on : Bool)
  /-- The receiver of a group switched onto a line, or off (R55, R59). -/
  | listen (g : GroupId) (line : Option LineId)
  /-- The test current sink of a line switched (R140). -/
  | sink (n : LineId) (on : Bool)
  /-- A line's feed switched to the test source, or the normal feed restored (R141). -/
  | testSource (n : LineId) (on : Bool)
  /-- The hook sense armed for a line, or disarmed (R138, R143). -/
  | hookSense (n : LineId) (armed : Bool)
  /-- Crosspoint make (R133). -/
  | makePoint (ch : ChannelId) (line : LineId) (bearer : Centre)
  /-- Crosspoint break (R133). -/
  | breakPoint (ch : ChannelId) (line : LineId)
  /-- A read handed to the store (R171). -/
  | storeRead (item : Item)
  /-- A write handed to the store (R76). -/
  | storeWrite (item : Item) (content : ItemContent)
  deriving DecidableEq, Repr

/-! ### The whole state -/

/-- The state of the part. `clock`, `subTick`, `orders` and `pending` are the model's own: milliseconds
since the last cold start, milliseconds into the current tick, the orders given by the command taken
last (oldest first), and the commands that wait. Where no rule orders two orders of one command to
different devices, their sequence in `orders` is the model's (DESIGN CHOICE, assumption 48). -/
structure State where
  pending : List Instr
  clock : Nat
  subTick : Nat
  tick : Tick
  orders : List Order
  -- supply monitor
  mainsOk : InputState
  batteryLow : InputState
  key : InputState
  power : PowerState
  -- start-up
  load : Option Load
  window : Option Link
  -- line scanner, loop classifier, line condition unit
  groups : Vector GroupRecord 8
  classifiers : Vector Classifier 64
  lines : Vector LineUnit 64
  -- identity receiver
  captures : Vector (Option Capture) 64
  receivers : Vector Receiver 8
  acceptance : Vector Acceptance 4
  -- post directory
  entries : Vector Entry 64
  profiles : Vector Profile 4
  timers : CallTimers
  bearer : Bearer
  writes : List WriteEntry
  stored : Vector (Option ItemContent) 79
  report : Option LoadReport
  reportPendingA : Bool
  reportPendingB : Bool
  reportPendingS : Bool
  -- call register
  records : List CallRecord
  overflow : List OverflowEntry
  abandoned : List AbandonedEntry
  overflowed : Bool
  idCounter : CallId
  -- channel table, test unit
  channels : Vector Channel 6
  tests : Vector (Option TestRecord) 8
  -- link controllers and offer controller
  linkA : LinkController
  linkB : LinkController
  linkS : LinkController
  centreA : CentreControl
  centreB : CentreControl
  deriving DecidableEq, Repr

/-- The reasons a step can fault: none. No rule of the manual stops the part; every command it is handed
changes its state, is answered, or is ignored. A closed inductive with no constructor. -/
inductive Fault where
  deriving DecidableEq, Repr

/-- The reasons a step can be refused. -/
inductive Refusal where
  /-- Raised by `exec` alone, for a command that has no meaning yet; safe. No command is left so. -/
  | notModelled (mnemonic : String)
  deriving DecidableEq, Repr

/-! ### Defaults and the state after a cold start -/

/-- The factory defaults of a profile (R18). -/
def defaultProfile : Profile :=
  { short := 100, offMax := 1800, term := 10000, leak := 6000, idleHi := 12000, opn := 40000,
    hyst := 300, cOffhook := 3, cIdle := 5, cShort := 10, cOpen := 10, cForeign := 5 }

/-- The default of a line entry (R78). -/
def defaultEntry : Entry :=
  { inService := true, expected := none, sect := 0, marker := 0, cway := .cw1, label := [],
    home := .a, profile := 0, naming := .directory, defaulted := true }

/-- The default call timers (R74). -/
def defaultTimers : CallTimers :=
  { escalate := 15, overdue := 60, longCall := 1800, parkNotice := 300, ring := 30 }

/-- The default bearer limits (R129). -/
def defaultBearer : Bearer := { limitA := 4, limitB := 4 }

/-- A disabled acceptance entry with pattern and mask 0 (R78). -/
def defaultAcceptance : Acceptance := { pattern := 0, mask := 0, enable := false }

/-- A group record after a cold start, with the default settings until its item is read (R1, R78). -/
def defaultGroup : GroupRecord :=
  { fitted := 8, settle := .ready, pathCheck := true, health := .scanning, vf := none,
    noSampleRun := 0, discrepancyRun := 0, agreementRun := 0, checkPos := 0, probeCount := 0,
    pass := .stopped, passTimer := none, probeDelay := none, port := none, scanWaiting := none,
    restartPass := false }

/-- The classifier state after a reset, with the R_term of the line's profile (R17, R32). -/
def Classifier.reset (term : Nat) : Classifier :=
  { confirmed := .unknown, candidate := none, count := 0, rTrack := term, rLast := none,
    marginal := 0, leaky := false }

/-- A link controller after a cold start (R166). -/
def LinkController.initial : LinkController :=
  { receive := .hunt, queue := [], submissions := 0, transmit := .idle, lostOffers := [],
    resync := false, cleared := false, watch := { mode := .all, ranges := [] } }

/-- Links A and B after a start: GOOD, ACTIVE, the silence timer started (R103, R166). -/
def CentreControl.initial (clock : Nat) : CentreControl :=
  { score := 0, health := .good, recovery := 0,
    silence := some { length := Config.silenceTime, due := clock + Config.silenceTime },
    duty := .active }

/-- An input whose level is read at a cold start (R168). -/
def InputState.initial (level : Bool) : InputState :=
  { level := level, taken := level, debounce := none }

/-- The power state that two taken supply values form (R169). -/
def powerOf (mainsOk batteryLow : Bool) : PowerState :=
  if mainsOk then .normal else if batteryLow then .reserve else .economy

/-- A load report that names nothing (R80). -/
def LoadReport.empty : LoadReport :=
  { lines := 0, profiles := 0, groups := 0, acceptance := false, timers := false, bearer := false }

/-- The state right after a cold start that reads the given input levels (R170): every block at the
value its chapter gives, STARTING, and the first read handed to the store (R171). A line NOT_FITTED has its
entry OUT (R68); the other values of the entries before their read are those of the default (DESIGN CHOICE,
assumption 8). -/
def State.initial (mainsOk batteryLow key : Bool) : State :=
  { pending := [], clock := 0, subTick := 0, tick := 0,
    orders := [.storeRead .acceptance],
    mainsOk := .initial mainsOk, batteryLow := .initial batteryLow, key := .initial key,
    power := powerOf mainsOk batteryLow,
    load := some { read := 1, timer := { length := Config.readTime, due := Config.readTime },
                   report := .empty },
    window := none,
    groups := .replicate 8 defaultGroup,
    classifiers := .replicate 64 (.reset defaultProfile.term),
    lines := .replicate 64 { condition := .notFitted, tone := .none },
    captures := .replicate 64 none,
    receivers := .replicate 8 { listening := none, waiting := [] },
    acceptance := .replicate 4 defaultAcceptance,
    entries := .replicate 64 { defaultEntry with inService := false },
    profiles := .replicate 4 defaultProfile,
    timers := defaultTimers, bearer := defaultBearer,
    writes := [], stored := .replicate 79 none, report := none,
    reportPendingA := false, reportPendingB := false, reportPendingS := false,
    records := [], overflow := [], abandoned := [], overflowed := false, idCounter := 1,
    channels := .replicate 6 .free, tests := .replicate 8 none,
    linkA := .initial, linkB := .initial, linkS := .initial,
    centreA := .initial 0, centreB := .initial 0 }

/-- The machine right after reset: the cold start of R170. The levels of the three inputs at that moment
are the outside world's; they are taken as mains healthy, battery not low, key off (DESIGN CHOICE,
assumption 1). -/
def State.reset : State := State.initial true false false

end Sys2Proof.Machine
end

