-- ==== Sys2Proof/Machine/Ops.lean ====
section
/-! DEFINITION. The named reads and updates of the state that every block's operations are written over. -/

namespace Sys2Proof.Machine

/-! ### Reads -/

def State.group (s : State) (g : GroupId) : GroupRecord := s.groups[g]
def State.classifier (s : State) (n : LineId) : Classifier := s.classifiers[n]
def State.line (s : State) (n : LineId) : LineUnit := s.lines[n]
def State.capture (s : State) (n : LineId) : Option Capture := s.captures[n]
def State.receiver (s : State) (g : GroupId) : Receiver := s.receivers[g]
def State.entry (s : State) (n : LineId) : Entry := s.entries[n]
def State.profile (s : State) (p : ProfileId) : Profile := s.profiles[p]
def State.channel (s : State) (ch : ChannelId) : Channel := s.channels[ch]
def State.test (s : State) (g : GroupId) : Option TestRecord := s.tests[g]

/-- The profile a line names (R68). -/
def State.profileOf (s : State) (n : LineId) : Profile := s.profile (s.entry n).profile

def State.link (s : State) : Link → LinkController
  | .a => s.linkA
  | .b => s.linkB
  | .s => s.linkS

def State.centre (s : State) : Centre → CentreControl
  | .a => s.centreA
  | .b => s.centreB

def State.reportPending (s : State) : Link → Bool
  | .a => s.reportPendingA
  | .b => s.reportPendingB
  | .s => s.reportPendingS

def State.input (s : State) : Input → InputState
  | .mainsOk => s.mainsOk
  | .batteryLow => s.batteryLow
  | .key => s.key

/-- The call record that carries an id. -/
def State.recordById (s : State) (id : CallId) : Option CallRecord := s.records.find? (·.id = id)

/-- The call record of a line; no two records name one line (R82). -/
def State.recordOfLine (s : State) (n : LineId) : Option CallRecord := s.records.find? (·.line = n)

/-- A centre link that is LOST; link S never is (R152). -/
def State.isLost (s : State) (l : Link) : Bool :=
  match l.centre? with
  | some c => (s.centre c).health = .lost
  | none => false

/-! ### Updates -/

def State.setGroup (s : State) (g : GroupId) (r : GroupRecord) : State :=
  { s with groups := s.groups.set g r }
def State.setClassifier (s : State) (n : LineId) (k : Classifier) : State :=
  { s with classifiers := s.classifiers.set n k }
def State.setLine (s : State) (n : LineId) (u : LineUnit) : State :=
  { s with lines := s.lines.set n u }
def State.setCapture (s : State) (n : LineId) (k : Option Capture) : State :=
  { s with captures := s.captures.set n k }
def State.setReceiver (s : State) (g : GroupId) (r : Receiver) : State :=
  { s with receivers := s.receivers.set g r }
def State.setEntry (s : State) (n : LineId) (e : Entry) : State :=
  { s with entries := s.entries.set n e }
def State.setProfile (s : State) (p : ProfileId) (q : Profile) : State :=
  { s with profiles := s.profiles.set p q }
def State.setChannel (s : State) (ch : ChannelId) (k : Channel) : State :=
  { s with channels := s.channels.set ch k }
def State.setTest (s : State) (g : GroupId) (t : Option TestRecord) : State :=
  { s with tests := s.tests.set g t }

def State.setLink (s : State) (l : Link) (k : LinkController) : State :=
  match l with
  | .a => { s with linkA := k }
  | .b => { s with linkB := k }
  | .s => { s with linkS := k }

def State.setCentre (s : State) (c : Centre) (k : CentreControl) : State :=
  match c with
  | .a => { s with centreA := k }
  | .b => { s with centreB := k }

def State.setReportPending (s : State) (l : Link) (p : Bool) : State :=
  match l with
  | .a => { s with reportPendingA := p }
  | .b => { s with reportPendingB := p }
  | .s => { s with reportPendingS := p }

def State.setInput (s : State) (i : Input) (k : InputState) : State :=
  match i with
  | .mainsOk => { s with mainsOk := k }
  | .batteryLow => { s with batteryLow := k }
  | .key => { s with key := k }

def State.setCondition (s : State) (n : LineId) (k : Condition) : State :=
  s.setLine n { s.line n with condition := k }

/-- Change the record that carries an id. -/
def State.updRecord (s : State) (id : CallId) (f : CallRecord → CallRecord) : State :=
  { s with records := s.records.map fun r => if r.id = id then f r else r }

def State.removeRecord (s : State) (id : CallId) : State :=
  { s with records := s.records.filter fun r => r.id ≠ id }

/-- An order given to the road side or the store. -/
def State.give (s : State) (o : Order) : State := { s with orders := s.orders ++ [o] }

/-- Do one thing for each member of a list, in its order. -/
def State.each {α : Type} (s : State) (xs : List α) (f : State → α → State) : State := xs.foldl f s

/-! ### Timers -/

/-- A timer started now. -/
def State.timer (s : State) (length : Nat) : Timer := { length := length, due := s.clock + length }

/-- A timer that runs from the moment the current tick began (R55, R106). -/
def State.timerFromTick (s : State) (length : Nat) : Timer :=
  { length := length, due := s.clock - s.subTick + length }

/-- The milliseconds left on a running timer. -/
def Timer.left (t : Timer) (clock : Nat) : Nat := t.due - clock

/-! ### Sets of centre links -/

def CentreSet.empty : CentreSet := { a := false, b := false }

def CentreSet.has (x : CentreSet) : Centre → Bool
  | .a => x.a
  | .b => x.b

def CentreSet.add (x : CentreSet) : Centre → CentreSet
  | .a => { x with a := true }
  | .b => { x with b := true }

def CentreSet.remove (x : CentreSet) : Centre → CentreSet
  | .a => { x with a := false }
  | .b => { x with b := false }

def CentreSet.members (x : CentreSet) : List Centre :=
  (if x.a then [.a] else []) ++ (if x.b then [.b] else [])

/-- A record with no claimant is IDENTIFYING, WAITING or OFFERED (R118). -/
def CallState.unclaimed : CallState → Bool
  | .identifying | .waiting | .offered => true
  | .connected | .held => false

/-- What every meaning has in common: the orders it gives are recorded afresh, and it answers a next
state. -/
def State.taking (s : State) (f : State → State) : Host.Outcome State Fault Refusal :=
  .next (f { s with orders := [] })

end Sys2Proof.Machine
end

