-- ==== Sys2Proof/Machine/Flags.lean ====
section
/-! DEFINITION. The flag bytes of chapter 12: each flag has one bit, and every bit that a layout does
not define is sent as 0 (R177). -/

namespace Sys2Proof.Machine

/-- A flag at a bit of a flag byte. -/
def flagBit (on : Bool) (bit : Nat) : Byte := if on then 1#8 <<< bit else 0#8

/-- The call flags byte (section 12.3). -/
def callFlagsByte (f : CallFlags) (longCall origin : Bool) : Byte :=
  flagBit f.orphan 0 ||| flagBit f.escalated 1 ||| flagBit f.overdue 2 ||| flagBit f.unsupervised 3
    ||| flagBit f.doubtful 4 ||| flagBit longCall 5 ||| flagBit origin 6

/-- Offset 5 of CALL_OFFER: identity present and the post status flags (section 12.3, R178). -/
def offerStatusByte (identity : Option Ident) (post : Option PostFlags) : Byte :=
  flagBit identity.isSome 7 |||
    match post with
    | some p => flagBit p.lowBattery 3 ||| flagBit p.doorOpen 2
    | none => 0#8

/-- A subset of A and B in bits 0 and 1 (section 12.3). -/
def centreSetByte (x : CentreSet) : Byte := flagBit x.a 0 ||| flagBit x.b 1

/-- Offset 5 of a call summary: the claimant with bit 7, otherwise the offered set (section 12.3). -/
def claimantByte (claimant : Option Centre) (offered : CentreSet) : Byte :=
  match claimant with
  | some c => flagBit true 7 ||| centreSetByte (CentreSet.empty.add c)
  | none => centreSetByte offered

/-- Offset 3 of an abandoned entry (section 12.3). -/
def abandonedByte (offered : CentreSet) (orphan : Bool) : Byte :=
  centreSetByte offered ||| flagBit orphan 6

/-- The entry flags byte of READ_DIRECTORY (section 12.3). -/
def entryFlagsByte (inService defaulted pending : Bool) : Byte :=
  flagBit inService 0 ||| flagBit defaulted 1 ||| flagBit pending 2

/-- The flags of the KEEPALIVE reply (section 12.3). -/
def keepaliveFlags (resync cleared : Bool) : Byte := flagBit resync 0 ||| flagBit cleared 1

/-- A flag that no layout of section 12.3 places, sent in bit 0 of a byte of its own (DESIGN CHOICE,
assumption 9). -/
def soleFlag (on : Bool) : Byte := flagBit on 0

end Sys2Proof.Machine
end

