-- ==== Sys2Proof/Machine/Operands.lean ====
section
/-! DEFINITION. The operand forms: the CRCs, the encodings of fields (R177), the codes of enumerations,
the frame envelope (R149), the TYPE values (R176), and the reading of command bodies, identity bursts
and stored items. -/

namespace Sys2Proof.Machine

/-! ### Checks over bytes -/

/-- One bit of the CRC-8 register, polynomial 0x07 (R53). -/
def crc8Bits : Nat → BitVec 8 → BitVec 8
  | 0, r => r
  | k + 1, r => crc8Bits k (if r.msb then (r <<< 1) ^^^ 0x07#8 else r <<< 1)

/-- The CRC-8 of an identity burst, from 0x00 (R53). -/
def crc8 (bytes : List Byte) : BitVec 8 := bytes.foldl (fun r b => crc8Bits 8 (r ^^^ b)) 0x00#8

/-- One bit of the CRC-16 register, polynomial 0x1021 (R78, R149). -/
def crc16Bits : Nat → BitVec 16 → BitVec 16
  | 0, r => r
  | k + 1, r => crc16Bits k (if r.msb then (r <<< 1) ^^^ 0x1021#16 else r <<< 1)

/-- The CRC-16 of frames and stored items, from 0xFFFF (R78, R149). -/
def crc16 (bytes : List Byte) : BitVec 16 :=
  bytes.foldl (fun r b => crc16Bits 8 (r ^^^ (b ++ 0#8))) 0xFFFF#16

/-! ### Encodings of fields (R177) -/

def byte (n : Nat) : Byte := BitVec.ofNat 8 n

/-- Two bytes, most significant first. -/
def bytes2 (n : Nat) : List Byte := [byte (n / 256), byte n]

/-- Three bytes, most significant first. -/
def bytes3 (n : Nat) : List Byte := [byte (n / 65536), byte (n / 256), byte n]

/-- Four bytes, most significant first. -/
def bytes4 (n : Nat) : List Byte :=
  [byte (n / 16777216), byte (n / 65536), byte (n / 256), byte n]

/-- An age or time in seconds, held at 65535. -/
def bytesHeld (n : Nat) : List Byte := bytes2 (min n 65535)

/-- A signed difference in two's complement. -/
def bytesSigned (z : Int) : List Byte := bytes2 (BitVec.ofInt 16 z).toNat

/-- A field that may be absent: a presence byte, then the field's bytes, 0 when it is absent. -/
def optionalField (width : Nat) : Option (List Byte) → List Byte
  | some bs => byte 1 :: bs
  | none => byte 0 :: List.replicate width (byte 0)

/-- A label: its length, then its character codes. -/
def labelField (label : List Byte) : List Byte := byte label.length :: label

/-- Ticks as whole seconds: divided by 100, rounded down (R100). -/
def seconds (ticks : Nat) : Nat := ticks / 100

def centreCode : Centre → Nat
  | .a => 0
  | .b => 1

def Category.code : Category → Nat
  | .emergency => 0
  | .breakdown => 1
  | .service => 2
  | .recall => 3

def CallState.code : CallState → Nat
  | .identifying => 0
  | .waiting => 1
  | .offered => 2
  | .connected => 3
  | .held => 4

def CheckResult.code : CheckResult → Nat
  | .matched => 0
  | .mismatch => 1
  | .notExpected => 2
  | .notReceived => 3
  | .serviceAccepted _ => 4
  | .serviceRefused => 5

/-- The entry index for SERVICE_ACCEPTED and 0 for every other check result (R178). -/
def CheckResult.index : CheckResult → Nat
  | .serviceAccepted i => i.val
  | _ => 0

def Carriageway.code : Carriageway → Nat
  | .cw1 => 0
  | .cw2 => 1
  | .slip => 2

/-- The carriageway of a location record, 3 for UNKNOWN (R178). -/
def locationCway : Option Carriageway → Nat
  | some w => w.code
  | none => 3

def NamingMode.code : NamingMode → Nat
  | .directory => 0
  | .reported => 1
  | .checked => 2

def Health.code : Health → Nat
  | .good => 0
  | .poor => 1
  | .failing => 2
  | .lost => 3

def Duty.code : Duty → Nat
  | .active => 0
  | .handingOver => 1
  | .standby => 2

def PowerState.code : PowerState → Nat
  | .normal => 0
  | .economy => 1
  | .reserve => 2

def Condition.code : Condition → Nat
  | .notFitted => 0
  | .outOfService => 1
  | .idle => 2
  | .inCall => 3
  | .queued => 4
  | .ringing _ _ _ => 5
  | .parked _ _ _ => 6
  | .fault _ => 7
  | .testing _ => 8

def LoopClass.code : LoopClass → Nat
  | .unknown => 0
  | .idle => 1
  | .offhook => 2
  | .short => 3
  | .opn => 4
  | .foreign => 5

def SettleMode.code : SettleMode → Nat
  | .fixed0 => 0
  | .fixed1 => 1
  | .fixed2 => 2
  | .ready => 3

def Tone.code : Tone → Nat
  | .none => 0
  | .registered => 1
  | .hold => 2
  | .wait => 3
  | .clear => 4

def GroupHealth.code : GroupHealth → Nat
  | .scanning => 0
  | .silent => 1
  | .pathFault => 2

def FaultKind.code : FaultKind → Nat
  | .short => 0
  | .opn => 1
  | .foreign => 2

def EndReason.code : EndReason → Nat
  | .callerCleared => 0
  | .lineLost => 1
  | .released => 2
  | .restart => 3
  | .displaced => 4
  | .handover => 5

def TestKind.code : TestKind → Nat
  | .openWire => 0
  | .insulation => 1
  | .pathCheck => 2

def TestOutcome.code : TestOutcome → Nat
  | .continuous _ _ => 0
  | .openWire _ _ => 1
  | .pass _ _ _ _ => 2
  | .lowInsulation _ _ _ _ => 3
  | .foreign _ _ _ => 4
  | .agree _ _ => 5
  | .disagree _ _ => 6
  | .aborted _ => 7

def AbortReason.code : AbortReason → Nat
  | .call => 0
  | .power => 1
  | .group => 2
  | .noSample => 3

/-- Reply codes are numbered from 0x00 in the order of section 10.11 (R176). -/
def ReplyCode.code : ReplyCode → Nat
  | .ok => 0
  | .notPermitted => 1
  | .unknownCommand => 2
  | .badLength => 3
  | .badValue => 4
  | .starting => 5
  | .restarting => 6
  | .linkRecovering => 7
  | .noSuchCall => 8
  | .abandoned => 9
  | .notOffered => 10
  | .claimLost => 11
  | .notClaimant => 12
  | .wrongState => 13
  | .noChannel => 14
  | .noCallWaiting => 15
  | .lineBusy => 16
  | .lineNotFitted => 17
  | .lineInService => 18
  | .profileInUse => 19
  | .storeBusy => 20
  | .testRefused => 21
  | .testBusy => 22
  | .powerLimit => 23
  | .partnerUnavailable => 24
  | .handoverActive => 25

/-- The read number of a stored item, 1 to 79, in the order of R171. -/
def Item.number : Item → Nat
  | .acceptance => 1
  | .timers => 2
  | .bearer => 3
  | .profile p => 4 + p.val
  | .group g => 8 + 9 * g.val
  | .line n => 9 + 9 * (n.val / 8) + n.val % 8

/-- The item of a read number (R171). -/
def Item.ofNumber (k : Nat) : Item :=
  if k ≤ 1 then .acceptance
  else if k = 2 then .timers
  else if k = 3 then .bearer
  else if k ≤ 7 then .profile (Fin.ofNat 4 (k - 4))
  else if (k - 8) % 9 = 0 then .group (Fin.ofNat 8 ((k - 8) / 9))
  else .line (lineAt (Fin.ofNat 8 ((k - 8) / 9)) (Fin.ofNat 8 ((k - 8) % 9 - 1)))

/-! ### Bodies of notices and of reply fields -/

def callIdByte (id : CallId) : Byte := BitVec.ofFin id

/-- CALL_OFFER, with its age counted to the moment the transmitter takes it (R159, R178). -/
def Offer.body (o : Offer) (now : Tick) : List Byte :=
  let loc := o.location.getD
    { sect := 0, marker := 0, cway := none, source := .directory, label := [], defaulted := false }
  [callIdByte o.id, byte o.line.val, byte o.category.code,
   callFlagsByte o.flags o.longCall o.originPresent,
   byte (o.check.code + 16 * o.check.index), offerStatusByte o.identity o.post]
  ++ bytes3 (o.identity.getD 0).toNat
  ++ [loc.sect] ++ bytes2 loc.marker.toNat
  ++ [byte (locationCway loc.cway),
      flagBit (loc.source = .reported) 0 ||| flagBit loc.defaulted 1]
  ++ bytesHeld (seconds (ticksSince now o.arrival))
  ++ labelField loc.label

/-- The LOAD_DEFAULTED body (section 12.3). -/
def LoadReport.body (r : LoadReport) : List Byte :=
  [byte r.lines, r.profiles.zeroExtend 8, r.groups,
   flagBit r.acceptance 0 ||| flagBit r.timers 1 ||| flagBit r.bearer 2]

/-- The fault kind of a condition, present in FAULT only (R33). -/
def Condition.faultKind : Condition → Option FaultKind
  | .fault k => some k
  | _ => none

/-- The fields a test result adds for its outcome (R140 to R143). The outcome says which fields follow, so
neither the reason of ABORTED nor a measured field that the outcome always has carries a presence byte; Vf and
the resistance, which a result of one kind may lack, carry theirs (DESIGN CHOICE, assumption 47). -/
def TestOutcome.fields : TestOutcome → List Byte
  | .continuous b a | .openWire b a => bytes2 b.toNat ++ bytes2 a.toNat
  | .pass vc ic vf r | .lowInsulation vc ic vf r =>
      bytes2 vc.toNat ++ bytes2 ic.toNat ++ optionalField 2 (vf.map fun v => bytes2 v.toNat)
        ++ optionalField 2 (some (bytes2 r))
  | .foreign vc ic vf =>
      bytes2 vc.toNat ++ bytes2 ic.toNat ++ optionalField 2 (vf.map fun v => bytes2 v.toNat)
        ++ optionalField 2 none
  | .agree dv di | .disagree dv di => bytesSigned dv ++ bytesSigned di
  | .aborted r => [byte r.code]

/-- The TYPE of a notice (R176). -/
def Notice.type : Notice → Byte
  | .callOffer _ => 0x90#8
  | .callWithdrawn _ _ _ => 0x91#8
  | .callTaken _ _ _ => 0x92#8
  | .callEnded _ _ _ => 0x93#8
  | .callOverdue _ _ _ _ => 0x94#8
  | .ringUnanswered _ => 0x95#8
  | .longCall _ _ _ => 0x96#8
  | .handoverDone => 0xA0#8
  | .handoverCancelled => 0xA1#8
  | .dutyResumed => 0xA2#8
  | .powerState _ _ _ _ => 0xA3#8
  | .overflow _ _ => 0xA4#8
  | .storeFault _ => 0xA5#8
  | .loadDefaulted _ => 0xA6#8
  | .lineCondition _ _ _ => 0xB0#8
  | .faultCleared _ _ => 0xB1#8
  | .handsetOff _ _ => 0xB2#8
  | .groupSilent _ => 0xB3#8
  | .groupRecovered _ => 0xB4#8
  | .pathFault _ _ => 0xB5#8
  | .testResult _ => 0xB6#8

/-- The class of a notice in the outbound queue (R157). -/
def Notice.cls : Notice → Nat
  | .callOffer _ | .callWithdrawn _ _ _ | .callTaken _ _ _ | .callEnded _ _ _
  | .callOverdue _ _ _ _ | .ringUnanswered _ | .longCall _ _ _ => 1
  | .handoverDone | .handoverCancelled | .dutyResumed | .powerState _ _ _ _ | .overflow _ _
  | .storeFault _ | .loadDefaulted _ => 2
  | .lineCondition _ _ _ | .faultCleared _ _ | .handsetOff _ _ | .groupSilent _
  | .groupRecovered _ | .pathFault _ _ | .testResult _ => 3

/-- The body of a notice (R177, section 12.3). -/
def Notice.body (now : Tick) : Notice → List Byte
  | .callOffer o => o.body now
  | .callWithdrawn id n r => [callIdByte id, byte n.val, byte r.code]
  | .callTaken id n c => [callIdByte id, byte n.val, byte (centreCode c)]
  | .callEnded id n r => [callIdByte id, byte n.val, byte r.code]
  | .callOverdue id n k age => [callIdByte id, byte n.val, byte k.code] ++ bytesHeld age
  | .ringUnanswered n => [byte n.val]
  | .longCall id n t => [callIdByte id, byte n.val] ++ bytesHeld t
  | .handoverDone => []
  | .handoverCancelled => []
  | .dutyResumed => []
  | .powerState p q m b => [byte p.code, byte q.code, soleFlag m, soleFlag b]
  | .overflow n k => [byte n.val, byte k]
  | .storeFault i => [byte i.number]
  | .loadDefaulted r => r.body
  | .lineCondition n k leaky =>
      [byte n.val, byte k.code] ++ optionalField 1 (k.faultKind.map fun f => [byte f.code])
        ++ [soleFlag leaky]
  | .faultCleared n k => [byte n.val, byte k.code]
  | .handsetOff n t => byte n.val :: bytesHeld t
  | .groupSilent g => [byte g.val]
  | .groupRecovered g => [byte g.val]
  | .pathFault g raised => [byte (if raised then 0 else 1), byte g.val]
  | .testResult r =>
      [byte r.line.val, byte r.kind.code, byte r.outcome.code, byte r.health.code]
        ++ bytes4 r.elapsed ++ r.outcome.fields

/-- The class of a message: replies are class 0 (R157). -/
def Message.cls : Message → Nat
  | .reply _ _ _ => 0
  | .notice n => n.cls

def Message.isReply : Message → Bool
  | .reply _ _ _ => true
  | .notice _ => false

/-- The call id of a CALL_OFFER. -/
def Message.offerId : Message → Option CallId
  | .notice (.callOffer o) => some o.id
  | _ => none

/-- The call id a possible follow-up names (R161). -/
def Message.followUpId : Message → Option CallId
  | .notice (.callTaken id _ _) => some id
  | .notice (.callWithdrawn id _ _) => some id
  | _ => none

def Message.type : Message → Byte
  | .reply _ _ _ => 0x80#8
  | .notice n => n.type

def Message.body (now : Tick) : Message → List Byte
  | .reply command code fields => command :: byte code.code :: fields
  | .notice n => n.body now

/-- A frame: SYNC, LEN, TYPE, BODY and the CRC over LEN, TYPE and BODY, high byte first (R149). -/
def frameOf (type : Byte) (body : List Byte) : List Byte :=
  let covered := byte (body.length + 1) :: type :: body
  Config.sync :: covered ++ bytes2 (crc16 covered).toNat

/-- What the receiver makes of the bytes after SYNC (R149). -/
inductive Verdict where
  | incomplete
  | valid (type : Byte) (body : List Byte)
  | bad
  deriving DecidableEq, Repr

/-- The judgement of the bytes after SYNC: LEN of 0 or above 64 is bad at once; otherwise LEN bytes and
two CRC bytes are collected and the CRC decides (R149). -/
def judgeFrame : List Byte → Verdict
  | [] => .incomplete
  | len :: rest =>
    if len.toNat = 0 ∨ 64 < len.toNat then .bad
    else if rest.length < len.toNat + 2 then .incomplete
    else
      let covered := rest.take len.toNat
      if bytes2 (crc16 (len :: covered)).toNat = (rest.drop len.toNat).take 2 then
        match covered with
        | type :: body => .valid type body
        | [] => .bad
      else .bad

/-! ### TYPE values of commands (R176, section 10.10) -/

namespace Command
def keepalive : Byte := 0x01#8
def listCalls : Byte := 0x02#8
def listAbandoned : Byte := 0x03#8
def lineStatus : Byte := 0x04#8
def readDirectory : Byte := 0x05#8
def readProfile : Byte := 0x06#8
def readGroup : Byte := 0x07#8
def setWatch : Byte := 0x08#8
def claim : Byte := 0x09#8
def answerNext : Byte := 0x0A#8
def hold : Byte := 0x0B#8
def retrieve : Byte := 0x0C#8
def release : Byte := 0x0D#8
def transfer : Byte := 0x0E#8
def ringPost : Byte := 0x0F#8
def cancelRing : Byte := 0x10#8
def dismiss : Byte := 0x11#8
def handoverRequest : Byte := 0x12#8
def resume : Byte := 0x13#8
def setService : Byte := 0x14#8
def testLine : Byte := 0x15#8
def writeDirectory : Byte := 0x16#8
def writeProfile : Byte := 0x17#8
def setGroup : Byte := 0x18#8
def setAcceptance : Byte := 0x19#8
def setCallTimers : Byte := 0x1A#8
def setBearer : Byte := 0x1B#8
def restart : Byte := 0x1C#8

/-- A TYPE that names a command (R150, R176). -/
def named (type : Byte) : Bool := 1 ≤ type.toNat && type.toNat ≤ 0x1C
end Command

/-! ### Reading bytes -/

def nat2 (h l : Byte) : Nat := h.toNat * 256 + l.toNat
def nat3 (a b c : Byte) : Nat := a.toNat * 65536 + b.toNat * 256 + c.toNat

def centreOfNat : Nat → Option Centre
  | 0 => some .a
  | 1 => some .b
  | _ => none

def cwayOfNat : Nat → Option Carriageway
  | 0 => some .cw1
  | 1 => some .cw2
  | 2 => some .slip
  | _ => none

def namingOfNat : Nat → Option NamingMode
  | 0 => some .directory
  | 1 => some .reported
  | 2 => some .checked
  | _ => none

def settleOfNat : Nat → Option SettleMode
  | 0 => some .fixed0
  | 1 => some .fixed1
  | 2 => some .fixed2
  | 3 => some .ready
  | _ => none

def kindOfNat : Nat → Option TestKind
  | 0 => some .openWire
  | 1 => some .insulation
  | 2 => some .pathCheck
  | _ => none

def watchOfNat : Nat → Option WatchMode
  | 0 => some .all
  | 1 => some .ranges
  | 2 => some .rangesInverted
  | _ => none

/-- Enable: off 0, on 1; also a presence flag (R177). -/
def enableOfNat : Nat → Option Bool
  | 0 => some false
  | 1 => some true
  | _ => none

def lineOfNat (k : Nat) : Option LineId := if h : k < 64 then some ⟨k, h⟩ else none
def profileOfNat (k : Nat) : Option ProfileId := if h : k < 4 then some ⟨k, h⟩ else none
def groupOfNat (k : Nat) : Option GroupId := if h : k < 8 then some ⟨k, h⟩ else none

/-- The WRITE_DIRECTORY body (section 12.3): its line and its fields, or nothing when its length is not
13 + L bytes for the label length L it states (R70). -/
def readWriteDirectory : List Byte → Option (Nat × RawEntry)
  | line :: present :: i2 :: i1 :: i0 :: sect :: m1 :: m0 :: cway :: home :: profile :: naming ::
      len :: label =>
    if label.length = len.toNat then
      some (line.toNat,
        { service := 0, identPresent := present.toNat, ident := nat3 i2 i1 i0, sect := sect.toNat,
          marker := nat2 m1 m0, cway := cway.toNat, home := home.toNat, profile := profile.toNat,
          naming := naming.toNat, label := label.map BitVec.toNat, defaulted := 0 })
    else none
  | _ => none

/-- The WRITE_PROFILE body, 20 bytes (section 12.3). -/
def readWriteProfile : List Byte → Option (Nat × Profile)
  | [p, s1, s0, o1, o0, t1, t0, l1, l0, i1, i0, q1, q0, h1, h0, c0, c1, c2, c3, c4] =>
    some (p.toNat,
      { short := nat2 s1 s0, offMax := nat2 o1 o0, term := nat2 t1 t0, leak := nat2 l1 l0,
        idleHi := nat2 i1 i0, opn := nat2 q1 q0, hyst := nat2 h1 h0, cOffhook := c0.toNat,
        cIdle := c1.toNat, cShort := c2.toNat, cOpen := c3.toNat, cForeign := c4.toNat })
  | _ => none

/-- The SET_CALL_TIMERS body: five values of two bytes, in the order of R74. -/
def readCallTimers : List Byte → Option CallTimers
  | [e1, e0, o1, o0, l1, l0, p1, p0, r1, r0] =>
    some { escalate := nat2 e1 e0, overdue := nat2 o1 o0, longCall := nat2 l1 l0,
           parkNotice := nat2 p1 p0, ring := nat2 r1 r0 }
  | _ => none

/-- The ranges of a SET_WATCH body: five bytes each, section, low marker, high marker (R164). -/
def readRanges : List Byte → List WatchRange
  | sect :: l1 :: l0 :: h1 :: h0 :: rest =>
    { sect := sect, low := BitVec.ofNat 16 (nat2 l1 l0), high := BitVec.ofNat 16 (nat2 h1 h0) }
      :: readRanges rest
  | _ => []

/-- The SET_WATCH body: mode, range count and the ranges, or nothing when the length is not the one the
count requires (R150, R164). -/
def readWatch : List Byte → Option (Nat × List WatchRange)
  | mode :: count :: rest =>
    if rest.length = 5 * count.toNat then some (mode.toNat, readRanges rest) else none
  | _ => none

/-! ### Judging fields -/

/-- Every field of a line entry in range (R70, R78). -/
def checkEntry (r : RawEntry) : Option Entry := do
  let inService ← enableOfNat r.service
  let present ← enableOfNat r.identPresent
  let cway ← cwayOfNat r.cway
  let home ← centreOfNat r.home
  let profile ← profileOfNat r.profile
  let naming ← namingOfNat r.naming
  let defaulted ← enableOfNat r.defaulted
  if r.ident < 2 ^ 24 ∧ r.sect < 256 ∧ r.marker < 65536 ∧ r.label.length ≤ 16 ∧
      (∀ c ∈ r.label, 32 ≤ c ∧ c ≤ 126) then
    some { inService := !inService, expected := if present then some (BitVec.ofNat 24 r.ident) else none,
           sect := byte r.sect, marker := BitVec.ofNat 16 r.marker, cway := cway,
           label := r.label.map byte, home := home, profile := profile, naming := naming,
           defaulted := defaulted }
  else none

/-- The ranges of the resistances and H of a profile and the relations among them (R18). R_term and R_leak
are at most R_idlehi, so its upper bound is theirs too. -/
def profileRelated (p : Profile) : Bool :=
  1 ≤ p.short && p.short < p.offMax && p.offMax < 2000 && 2000 ≤ p.leak && p.leak ≤ p.term
    && p.term ≤ p.idleHi && p.idleHi ≤ 65000 && p.idleHi < p.opn && p.opn ≤ 65534
    && p.hyst ≤ 1000

/-- A value clamped into a range. -/
def clamp (lo hi v : Nat) : Nat := max lo (min v hi)

/-- The confirm counts clamped to 1 to 31 (R18). -/
def clampProfile (p : Profile) : Profile :=
  { p with
    cOffhook := clamp 1 31 p.cOffhook, cIdle := clamp 1 31 p.cIdle, cShort := clamp 1 31 p.cShort,
    cOpen := clamp 1 31 p.cOpen, cForeign := clamp 1 31 p.cForeign }

/-- The five timers clamped into their ranges (R74). -/
def clampTimers (t : CallTimers) : CallTimers :=
  { escalate := clamp 5 60 t.escalate, overdue := clamp 30 300 t.overdue,
    longCall := clamp 300 7200 t.longCall, parkNotice := clamp 60 3600 t.parkNotice,
    ring := clamp 10 120 t.ring }

def checkAcceptance (r : RawAcceptance) : Option Acceptance := do
  let enable ← enableOfNat r.enable
  if r.pattern < 2 ^ 24 ∧ r.mask < 2 ^ 24 then
    some { pattern := BitVec.ofNat 24 r.pattern, mask := BitVec.ofNat 24 r.mask, enable := enable }
  else none

/-- The content of a read, when its kind is the item's and every field lies in its range (R78). -/
def checkItem (item : Item) (raw : RawItem) : Option ItemContent :=
  match item, raw with
  | .acceptance, .acceptance r0 r1 r2 r3 => do
    let e0 ← checkAcceptance r0
    let e1 ← checkAcceptance r1
    let e2 ← checkAcceptance r2
    let e3 ← checkAcceptance r3
    some (.acceptance #v[e0, e1, e2, e3])
  | .timers, .timers t => if clampTimers t = t then some (.timers t) else none
  | .bearer, .bearer a b =>
    if 1 ≤ a ∧ a ≤ 6 ∧ 1 ≤ b ∧ b ≤ 6 then some (.bearer { limitA := a, limitB := b }) else none
  | .profile _, .profile p => if profileRelated p && clampProfile p = p then some (.profile p) else none
  | .group _, .group fitted settle check => do
    let mode ← settleOfNat settle
    let on ← enableOfNat check
    if h : fitted < 9 then some (.group ⟨fitted, h⟩ mode on) else none
  | .line _, .line r => (checkEntry r).map .line
  | _, _ => none

/-- A read item is good when the read succeeded, the CRC agrees and every field is in range (R78). -/
def judgeRead (item : Item) (r : ReadReport) : Option ItemContent :=
  if r.success && crc16 r.bytes = r.crc then checkItem item r.item else none

/-! ### Identity bursts -/

/-- The content of a burst: five bytes whose CRC-8 agrees, heard from its start (R52, R53). -/
def readBurst (bytes : List Byte) (heardStart : Bool) : Option Burst :=
  match bytes with
  | [s, m1, m0, st, c] =>
    if heardStart && crc8 [s, m1, m0, st] = c then
      some { sect := s, marker := BitVec.ofNat 16 (nat2 m1 m0), code := st.extractLsb' 0 2,
             doorOpen := st.getLsbD 2, lowBattery := st.getLsbD 3 }
    else none
  | _ => none

/-- The identity of a post: section times 65536 plus marker (R52). -/
def Burst.identity (b : Burst) : Ident := BitVec.ofNat 24 (b.sect.toNat * 65536 + b.marker.toNat)

end Sys2Proof.Machine
end

