-- ==== Sys2Proof/Machine/Outbound.lean ====
section
/-! DEFINITION. The outbound side of a link controller: the queue, the transmitter, the lost-offer set,
the watch filter (R157 to R164). -/

namespace Sys2Proof.Machine

/-! ### One queue -/

/-- An entry takes its place by class, behind every entry of its class (R157). -/
def insertEntry (e : QueueEntry) : List QueueEntry → List QueueEntry
  | [] => [e]
  | q :: rest => if q.msg.cls ≤ e.msg.cls then q :: insertEntry e rest else e :: q :: rest

/-- A CALL_OFFER for this id. -/
def Message.offers (m : Message) (id : CallId) : Bool := m.offerId = some id

/-- A CALL_OFFER for this id waits in the queue (R160, R161). -/
def offerWaits (q : List QueueEntry) (id : CallId) : Bool := q.any fun e => e.msg.offers id

/-- The waiting CALL_OFFER of an id takes new content; it keeps its place and its entry time (R160). -/
def mergeOffer (m : Message) (id : CallId) (q : List QueueEntry) : List QueueEntry :=
  q.map fun e => if e.msg.offers id then { e with msg := m } else e

/-- A discarded CALL_OFFER enters its id in the lost-offer set (R158, R161). -/
def LinkController.noteDiscard (k : LinkController) (m : Message) : LinkController :=
  match m.offerId with
  | some id => if id ∈ k.lostOffers then k else { k with lostOffers := k.lostOffers ++ [id] }
  | none => k

/-- A new entry takes its place in a queue that may be full (R157, R158). -/
def LinkController.place (k : LinkController) (m : Message) (followUp : Bool) : LinkController :=
  let e : QueueEntry := { msg := m, time := k.submissions, followUp := followUp }
  let k := { k with submissions := k.submissions + 1 }
  if k.queue.length < Config.queueCapacity then { k with queue := insertEntry e k.queue }
  else
    match k.queue.getLast? with
    | some last =>
      if m.cls < last.msg.cls then
        { k with queue := insertEntry e k.queue.dropLast, resync := true }.noteDiscard last.msg
      else { k with resync := true }.noteDiscard m
    | none => { k with queue := insertEntry e k.queue }

/-- A submission: a CALL_OFFER takes its id out of the lost-offer set, and merges with one that waits for
the same id or is a new entry (R160). -/
def LinkController.enqueue (k : LinkController) (m : Message) (followUp : Bool) : LinkController :=
  match m.offerId with
  | some id =>
    let k := { k with lostOffers := k.lostOffers.erase id }
    if offerWaits k.queue id then { k with queue := mergeOffer m id k.queue } else k.place m followUp
  | none => k.place m followUp

/-- An IDLE transmitter takes the first entry and forms its frame (R159). -/
def LinkController.pump (k : LinkController) (now : Tick) : LinkController :=
  match k.transmit, k.queue with
  | .idle, e :: rest =>
    { k with queue := rest, transmit := .sending e.msg (frameOf e.msg.type (e.msg.body now)) }
  | _, _ => k

/-- A frame in transmission is cut by a link clear. When it is a CALL_OFFER, a follow-up for it that
waits is removed with it; otherwise its id enters the lost-offer set, if its record is still offered to
the link (R159, R161). -/
def LinkController.cut (k : LinkController) (stillOffered : CallId → Bool) : LinkController :=
  match k.transmit with
  | .idle => k
  | .sending m _ =>
    let k := { k with transmit := .idle }
    match m.offerId with
    | none => k
    | some id =>
      let follows := fun (e : QueueEntry) => e.followUp && e.msg.followUpId = some id
      if k.queue.any follows then { k with queue := k.queue.filter fun e => !follows e }
      else if stillOffered id then k.noteDiscard m
      else k

/-! ### Submissions to a link -/

/-- One reply or notice is submitted to a link's queue; a LOST link accepts replies and discards
notices; an IDLE transmitter takes the first entry at once (R157, R159). -/
def State.submit (s : State) (l : Link) (m : Message) : State :=
  if s.isLost l && !m.isReply then s
  else s.setLink l (((s.link l).enqueue m false).pump s.tick)

/-- A notice placed for a link. -/
def State.notify (s : State) (l : Link) (n : Notice) : State := s.submit l (.notice n)

/-- A notice placed for each of links A, B and S; a LOST link's queue discards it (R157). -/
def State.notifyAll (s : State) (n : Notice) : State :=
  ((s.notify .a n).notify .b n).notify .s n

/-- The reply to a command (R150, R176). -/
def State.reply (s : State) (l : Link) (command : Byte) (code : ReplyCode) (fields : List Byte) : State :=
  s.submit l (.reply command code fields)

/-- A leave at one queue: the record's CALL_OFFER that waits is removed, and its id leaves the lost-offer
set; in either case the follow-up is discarded, and otherwise it is submitted (R161). -/
def LinkController.leave (k : LinkController) (id : CallId) (followUp : Option Notice) (now : Tick) :
    LinkController :=
  if offerWaits k.queue id || id ∈ k.lostOffers then
    { k with
      queue := k.queue.filter fun e => !e.msg.offers id
      lostOffers := k.lostOffers.erase id }
  else
    match followUp with
    | some n => (k.enqueue (.notice n) true).pump now
    | none => k

/-- A record leaves a centre link's offered set; a LOST link's queue discards the follow-up
(R157, R161). -/
def State.leave (s : State) (c : Centre) (id : CallId) (followUp : Option Notice) : State :=
  let heard := if s.isLost c.link then none else followUp
  s.setLink c.link ((s.link c.link).leave id heard s.tick)

/-! ### The watch filter (R164) -/

/-- A line's entry falls in a range. -/
def WatchRange.holds (r : WatchRange) (e : Entry) : Bool :=
  e.sect = r.sect && r.low ≤ e.marker && e.marker ≤ r.high

/-- The filter passes the line of an entry. -/
def WatchFilter.passes (f : WatchFilter) (e : Entry) : Bool :=
  match f.mode with
  | .all => true
  | .ranges => f.ranges.any (·.holds e)
  | .rangesInverted => !f.ranges.any (·.holds e)

/-- A line-level condition notice goes to each link whose filter passes the line (R35, R164). -/
def State.notifyLine (s : State) (n : LineId) (x : Notice) : State :=
  s.each [.a, .b, .s] fun s l =>
    if (s.link l).watch.passes (s.entry n) then s.notify l x else s

/-- A LINE_CONDITION notice with the line's condition and LEAKY flag as they stand (R27, R35). -/
def State.notifyCondition (s : State) (n : LineId) : State :=
  s.notifyLine n (.lineCondition n (s.line n).condition (s.classifier n).leaky)

end Sys2Proof.Machine
end

