-- ==== Sys2Proof/Machine/Offering.lean ====
section
/-! DEFINITION. The offer controller, the channel table and the tones: register order (R83), usability
and duty (R103, R104), offers (R105 to R109), the handover's completion (R123), the six channels (R126
to R134) and the tone of a line (R41). -/

namespace Sys2Proof.Machine

/-! ### Register order (R83) -/

def Category.rank : Category → Nat
  | .emergency => 0
  | .breakdown => 1
  | .service => 2
  | .recall => 3

/-- One record ranks before another (R83). -/
def CallRecord.before (now : Tick) (r q : CallRecord) : Bool :=
  if r.flags.orphan ≠ q.flags.orphan then r.flags.orphan
  else if r.category.rank ≠ q.category.rank then r.category.rank < q.category.rank
  else if ticksSince now r.arrival ≠ ticksSince now q.arrival then
    ticksSince now q.arrival < ticksSince now r.arrival
  else r.line.val < q.line.val

def insertRecord (now : Tick) (r : CallRecord) : List CallRecord → List CallRecord
  | [] => [r]
  | q :: rest => if r.before now q then r :: q :: rest else q :: insertRecord now r rest

/-- The call records in register order, first record first (R83). -/
def State.registerOrder (s : State) : List CallRecord := s.records.foldr (insertRecord s.tick) []

/-- Do one thing for the records in register order as it stands now, each by its id. -/
def State.eachRecord (s : State) (f : State → CallRecord → State) : State :=
  s.each (s.registerOrder.map (·.id)) fun s id =>
    match s.recordById id with
    | some r => f s r
    | none => s

/-! ### Tones (R41) -/

/-- The tone the table of R41 gives for a condition and, in IN_CALL, for the line's record. -/
def toneFor (k : Condition) (r : Option CallRecord) : Tone :=
  match k with
  | .queued => .wait
  | .parked _ _ _ => .clear
  | .inCall =>
    match r with
    | none => .none
    | some r =>
      match r.state with
      | .connected => .none
      | .held => .hold
      | _ => if r.flags.orphan || r.origin.isSome then .hold else .registered
  | _ => .none

/-- The tone is worked out afresh; a changed tone is ordered to the AFE (R41). -/
def State.retone (s : State) (n : LineId) : State :=
  let t := toneFor (s.line n).condition (s.recordOfLine n)
  if t = (s.line n).tone then s
  else (s.setLine n { s.line n with tone := t }).give (.tone n t)

/-- A line enters a condition, and its tone follows. -/
def State.enter (s : State) (n : LineId) (k : Condition) : State := (s.setCondition n k).retone n

/-! ### Channels (R126 to R134) -/

def Channel.inUse : Channel → Bool
  | .free => false
  | _ => true

def Channel.routedTo (c : Centre) : Channel → Bool
  | .free => false
  | .reserved _ l => l = c
  | .connected _ l _ => l = c

def State.channelsInUse (s : State) : Nat := s.channels.toList.countP Channel.inUse

def State.channelsRouted (s : State) (c : Centre) : Nat := s.channels.toList.countP (Channel.routedTo c)

/-- The cabinet limit of a power state (R128). -/
def cabinetLimit : PowerState → Nat
  | .normal => 6
  | .economy => 4
  | .reserve => 2

def Bearer.limit (b : Bearer) : Centre → Nat
  | .a => b.limitA
  | .b => b.limitB

/-- The lowest-numbered FREE channel. -/
def State.lowestFree (s : State) : Option ChannelId :=
  (List.finRange 6).find? fun ch => s.channel ch = .free

/-- The channel a request for a link is granted: both counts below their limits, and then the
lowest-numbered FREE channel (R130). -/
def State.grantedChannel (s : State) (c : Centre) : Option ChannelId :=
  if s.channelsInUse < cabinetLimit s.power ∧ s.channelsRouted c < s.bearer.limit c then s.lowestFree
  else none

/-- A channel becomes CONNECTED, and its crosspoint connection is made (R127, R133). -/
def State.connectChannel (s : State) (ch : ChannelId) (n : LineId) (c : Centre) (id : CallId) : State :=
  (s.setChannel ch (.connected n c id)).give (.makePoint ch n c)

/-- A channel becomes FREE; a CONNECTED channel's crosspoint connection is broken (R133, R134). -/
def State.freeChannel (s : State) (ch : ChannelId) : State :=
  match s.channel ch with
  | .connected n _ _ => (s.setChannel ch .free).give (.breakPoint ch n)
  | _ => s.setChannel ch .free

/-- The channel a record holds, if any, is freed. -/
def State.freeHeld (s : State) (ch : Option ChannelId) : State :=
  match ch with
  | some ch => s.freeChannel ch
  | none => s

/-! ### Usability and offers -/

def Health.heard : Health → Bool
  | .good | .poor => true
  | .failing | .lost => false

/-- A centre link is usable while its health is GOOD or POOR and its duty is ACTIVE (R103). -/
def State.usable (s : State) (c : Centre) : Bool :=
  (s.centre c).health.heard && (s.centre c).duty = .active

def State.setDuty (s : State) (c : Centre) (d : Duty) : State :=
  s.setCentre c { s.centre c with duty := d }

/-- The CALL_OFFER fields of a record as they stand (R105). -/
def offerOf (r : CallRecord) : Offer :=
  { id := r.id, line := r.line, category := r.category, flags := r.flags, longCall := r.longCall,
    originPresent := r.origin.isSome, check := r.check, identity := r.identity, post := r.post,
    location := r.location, arrival := r.arrival }

/-- A CALL_OFFER of a record is placed in a link's queue. -/
def State.placeOffer (s : State) (id : CallId) (c : Centre) : State :=
  match s.recordById id with
  | some r => s.notify c.link (.callOffer (offerOf r))
  | none => s

/-- What being offered to a link changes in a record: the offered set, UNSUPERVISED and
DOUBTFUL_MEASUREMENT from the group's health at this moment, and the state (R105). -/
def CallRecord.offeredTo (r : CallRecord) (c : Centre) (h : GroupHealth) : CallRecord :=
  { r with
    offered := r.offered.add c, state := .offered,
    flags := { r.flags with unsupervised := h = .silent, doubtful := h = .pathFault } }

/-- A record is offered to a link (R105). -/
def State.offerTo (s : State) (id : CallId) (c : Centre) : State :=
  match s.recordById id with
  | some r =>
    let h := (s.group r.line.group).health
    ((s.updRecord id fun r => r.offeredTo c h).placeOffer id c).retone r.line
  | none => s

/-- The first-offer tick is set and the escalation timer started (R106, R107). -/
def State.startOffer (s : State) (id : CallId) : State :=
  s.updRecord id fun r =>
    { r with firstOffer := some s.tick, escalation := some (s.timer (s.timers.escalate * 1000)) }

/-- The first offer of a resolved record: to its home link, else to the partner, else it becomes WAITING
(R107). -/
def State.makeFirstOffer (s : State) (id : CallId) : State :=
  match s.recordById id with
  | none => s
  | some r =>
    let home := (s.entry r.line).home
    if s.usable home then (s.offerTo id home).startOffer id
    else if s.usable home.partner then (s.offerTo id home.partner).startOffer id
    else (s.updRecord id fun r => { r with state := .waiting, offered := .empty }).retone r.line

/-- A record is offered to a link if that link is usable, and otherwise becomes WAITING with an empty
offered set (R120, R121, R123). -/
def State.offerOrWait (s : State) (id : CallId) (c : Centre) : State :=
  if s.usable c then s.offerTo id c
  else
    match s.recordById id with
    | some r => (s.updRecord id fun r => { r with state := .waiting, offered := .empty }).retone r.line
    | none => s

/-- What a link that becomes usable is offered, of one record (R108). -/
def State.offerOnUsable (s : State) (c : Centre) (r : CallRecord) : State :=
  match r.state with
  | .waiting =>
    let s := s.offerTo r.id c
    if r.firstOffer.isNone && !r.claimedOnce then s.startOffer r.id else s
  | .offered =>
    if (r.flags.orphan || r.flags.escalated) && !r.offered.has c then s.offerTo r.id c else s
  | _ => s

/-- A centre link becomes usable: the records are taken in register order (R108). -/
def State.becomeUsable (s : State) (c : Centre) : State :=
  s.eachRecord fun s r => s.offerOnUsable c r

/-- The standby fall-back: with neither centre link usable, a STANDBY link that is GOOD or POOR is
returned to ACTIVE with DUTY_RESUMED, and becomes usable (R104). -/
def State.fallback (s : State) : State :=
  if s.usable .a || s.usable .b then s
  else
    s.each [.a, .b] fun s c =>
      if (s.centre c).duty = .standby && (s.centre c).health.heard then
        ((s.setDuty c .active).notify c.link .dutyResumed).becomeUsable c
      else s

/-- A record is escalated: the flag is set, and the partner of each link in the offered set is offered
the record if it is usable and not in the set (R109). -/
def State.escalate (s : State) (r : CallRecord) : State :=
  let s := s.updRecord r.id fun r => { r with flags := { r.flags with escalated := true } }
  s.each r.offered.members fun s c =>
    if s.usable c.partner && !r.offered.has c.partner then s.offerTo r.id c.partner else s

/-- A centre link moves into FAILING: every OFFERED record whose offered set holds it is escalated
(R109). -/
def State.escalateOffers (s : State) (c : Centre) : State :=
  s.eachRecord fun s r => if r.state = .offered && r.offered.has c then s.escalate r else s

/-- The offer controller acts on a change of health short of LOST: a move into FAILING escalates, a move
into GOOD or POOR makes an ACTIVE link usable, and each change is checked for the standby fall-back
(R104, R108, R109, R152). -/
def State.healthChanged (s : State) (c : Centre) (old : Health) : State :=
  let new := (s.centre c).health
  if new = old then s
  else
    let s :=
      if new = .failing && old.heard then s.escalateOffers c
      else if new.heard && !old.heard && (s.centre c).duty = .active then s.becomeUsable c
      else s
    s.fallback

/-- The CALL_WITHDRAWN that follows a record out of a link's offered set (R92, R122, R161). -/
def State.withdrawFrom (s : State) (r : CallRecord) (c : Centre) (reason : EndReason) : State :=
  s.leave c r.id (some (.callWithdrawn r.id r.line reason))

/-- The transfer origin, when it is outside the offered set and not LOST, receives a notice that is no
follow-up (R90, R92, R112, R161). -/
def State.notifyOrigin (s : State) (r : CallRecord) (n : Notice) : State :=
  match r.origin with
  | some o => if r.offered.has o || s.isLost o.link then s else s.notify o.link n
  | none => s

/-- A timed-out transfer: the origin is offered the record if its health is not LOST, its duty ACTIVE or
HANDING_OVER, and it is not in the offered set (R119). -/
def State.transferTimedOut (s : State) (r : CallRecord) : State :=
  match r.origin with
  | some o =>
    if (s.centre o).health ≠ .lost && (s.centre o).duty ≠ .standby && !r.offered.has o then
      s.offerTo r.id o
    else s
  | none => s

/-! ### Completion of a handover (R123) -/

def State.claimsAny (s : State) (c : Centre) : Bool := s.records.any fun r => r.claimant = some c

/-- The steps of a handover's completion (R123). The records that the link is removed from are taken in
register order (DESIGN CHOICE, assumption 42). -/
def State.completeHandover (s : State) (c : Centre) : State :=
  let s := s.setDuty c .standby
  let s := s.eachRecord fun s r =>
    if r.offered.has c then
      let s := s.updRecord r.id fun r => { r with offered := r.offered.remove c }
      let s := s.withdrawFrom r c .handover
      if r.offered.has c.partner then s else s.offerOrWait r.id c.partner
    else s
  (s.notify c.link .handoverDone).fallback

/-- A HANDING_OVER link that claims no record completes its handover (R123). -/
def State.checkHandover (s : State) (c : Centre) : State :=
  if (s.centre c).duty = .handingOver && !s.claimsAny c then s.completeHandover c else s

/-- The check made when a claimed record leaves its claimant (R123). -/
def State.checkHandoverOf (s : State) (claimant : Option Centre) : State :=
  match claimant with
  | some c => s.checkHandover c
  | none => s

end Sys2Proof.Machine
end

