-- ==== Sys2Proof/Machine/Register.lean ====
section
/-! DEFINITION. The identity receiver and the call register: capture and its end (R54 to R59),
resolution (R60 to R67), call ids (R84), admission, overflow and promotion (R85 to R88), displacement and
the answered recall (R89, R90), endings and the abandoned list (R91 to R97). -/

namespace Sys2Proof.Machine

/-! ### Resolution (R60 to R67) -/

/-- An identity hits an entry (R62). -/
def Acceptance.hit (e : Acceptance) (i : Ident) : Bool :=
  e.enable && (i &&& e.mask) = (e.pattern &&& e.mask)

/-- The lowest-indexed entry an identity hits (R62). -/
def acceptanceHit (table : Vector Acceptance 4) (i : Ident) : Option (Fin 4) :=
  (List.finRange 4).find? fun k => table[k].hit i

/-- The identity check against the directory (R64). -/
def identityCheck (expected : Option Ident) (i : Ident) : CheckResult :=
  match expected with
  | some e => if i = e then .matched else .mismatch
  | none => .notExpected

/-- Category and check result of a capture result (R61, R64). -/
def categoryAndCheck (table : Vector Acceptance 4) (expected : Option Ident) :
    CaptureResult → Category × CheckResult
  | .notReceived => (.emergency, .notReceived)
  | .received b =>
    if b.code = 2#2 then
      match acceptanceHit table b.identity with
      | some k => (.service, .serviceAccepted k)
      | none => (.emergency, .serviceRefused)
    else if b.code = 1#2 then (.breakdown, identityCheck expected b.identity)
    else (.emergency, identityCheck expected b.identity)

/-- The location record as in DIRECTORY mode (R65). -/
def directoryLocation (e : Entry) : Location :=
  { sect := e.sect, marker := e.marker, cway := some e.cway, source := .directory, label := e.label,
    defaulted := e.defaulted }

/-- The location record of a call (R65, R66). -/
def locationFor (e : Entry) (res : CaptureResult) (check : CheckResult) : Location :=
  match e.naming, res, check with
  | .reported, .received b, .matched =>
    { directoryLocation e with sect := b.sect, marker := b.marker, source := .reported }
  | .reported, .received b, .mismatch | .reported, .received b, .notExpected =>
    { sect := b.sect, marker := b.marker, cway := none, source := .reported, label := [],
      defaulted := e.defaulted }
  | .checked, _, .mismatch => { directoryLocation e with cway := none }
  | _, _, _ => directoryLocation e

/-- The five resolved fields set together from a capture result (R60). -/
def CallRecord.resolved (r : CallRecord) (table : Vector Acceptance 4) (e : Entry)
    (res : CaptureResult) : CallRecord :=
  let cc := categoryAndCheck table e.expected res
  { r with
    category := cc.1
    check := cc.2
    identity := match res with
      | .received b => some b.identity
      | .notReceived => none
    post := match res with
      | .received b => some { doorOpen := b.doorOpen, lowBattery := b.lowBattery }
      | .notReceived => none
    location := some (locationFor e res cc.2)
    capture := some res }

/-- A record is resolved from a result under the directory and the acceptance table as they stand, and
handed to the offer controller for its first offer (R86, R88). -/
def State.resolve (s : State) (r : CallRecord) (res : CaptureResult) : State :=
  let e := s.entry r.line
  (s.updRecord r.id fun q => q.resolved s.acceptance e res).makeFirstOffer r.id

/-! ### Call ids (R84) -/

/-- An id is held by a call record or an abandoned entry (R84). -/
def State.idHeld (s : State) (id : CallId) : Bool :=
  s.records.any (·.id = id) || s.abandoned.any (·.id = id)

/-- The value after an id, 255 being followed by 1 (R84). -/
def nextCandidate (id : CallId) : CallId := if id = 255 then 1 else id + 1

/-- The first value not held, from a value on, within so many looks. -/
def findFreeId (held : CallId → Bool) : Nat → CallId → CallId
  | 0, id => id
  | k + 1, id => if held id then findFreeId held k (nextCandidate id) else id

/-- The id the register issues next (R84). At most 32 ids are held, so 255 looks always find one. -/
def State.nextId (s : State) : CallId := findFreeId s.idHeld 255 s.idCounter

/-- An id is issued: the counter moves to the value after it (R84). -/
def State.issue (s : State) (id : CallId) : State := { s with idCounter := nextCandidate id }

/-! ### Capture (R54 to R59) -/

/-- A line's capture is started (R55). -/
def State.startCapture (s : State) (n : LineId) (arrival : Tick) : State :=
  let s := s.setCapture n (some { arrival := arrival, window := s.timerFromTick Config.windowTime })
  let r := s.receiver n.group
  match r.listening with
  | none => (s.setReceiver n.group { r with listening := some n }).give (.listen n.group (some n))
  | some _ => s.setReceiver n.group { r with waiting := r.waiting ++ [n] }

/-- A freed receiver takes the oldest line of the wait list, or becomes IDLE (R59). -/
def State.freeReceiver (s : State) (g : GroupId) : State :=
  match (s.receiver g).waiting with
  | [] => (s.setReceiver g { listening := none, waiting := [] }).give (.listen g none)
  | n :: rest => (s.setReceiver g { listening := some n, waiting := rest }).give (.listen g (some n))

/-- A line leaves the receiver or the wait list of its group (R57, R58). -/
def State.leaveReceiver (s : State) (n : LineId) : State :=
  let r := s.receiver n.group
  if r.listening = some n then s.freeReceiver n.group
  else s.setReceiver n.group { r with waiting := r.waiting.filter fun m => m ≠ n }

/-- A capture is dropped silently when its line leaves IN_CALL and QUEUED (R58). -/
def State.dropCapture (s : State) (n : LineId) : State :=
  match s.capture n with
  | some _ => (s.setCapture n none).leaveReceiver n
  | none => s

/-- A capture result reaches the register: an IDENTIFYING record is resolved and first offered, or the
result is written into the overflow entry (R59, R86). -/
def State.handResult (s : State) (n : LineId) (res : CaptureResult) : State :=
  match s.recordOfLine n with
  | some r => if r.state = .identifying then s.resolve r res else s
  | none =>
    { s with overflow := s.overflow.map fun e => if e.line = n then { e with result := some res } else e }

/-- A capture ends with a result: the window timer is stopped, the result is handed to the register, and
the receiver or the wait list gives the line up (R56, R57, R59). -/
def State.endCapture (s : State) (n : LineId) (res : CaptureResult) : State :=
  ((s.setCapture n none).handResult n res).leaveReceiver n

/-! ### Overdue calls (R110) -/

/-- A record is marked OVERDUE and CALL_OVERDUE is sent (R110). -/
def State.markOverdue (s : State) (r : CallRecord) : State :=
  (s.updRecord r.id fun q => { q with flags := { q.flags with overdue := true } }).notifyAll
    (.callOverdue r.id r.line r.category (seconds (ticksSince s.tick r.arrival)))

/-- The overdue timer of a record made now: due at the arrival tick plus the overdue time, or nothing
when that moment has passed (R106). -/
def State.overdueTimerFor (s : State) (arrival : Tick) : Option Timer :=
  let length := s.timers.overdue * 1000
  let age := ticksSince s.tick arrival * 10
  if age < length then some { length := length, due := s.clock - s.subTick + (length - age) } else none

/-! ### Records made (R81, R85, R87, R88) -/

/-- A call record as the register creates it from a call request or a promotion (R81). -/
def CallRecord.create (id : CallId) (n : LineId) (arrival : Tick) (overdueTimer : Option Timer) :
    CallRecord :=
  { id := id, line := n, category := .emergency, arrival := arrival, identity := none, post := none,
    check := .notReceived, location := none, state := .identifying, offered := .empty, claimant := none,
    channel := none,
    flags := { orphan := false, escalated := false, overdue := false, unsupervised := false,
               doubtful := false },
    origin := none, firstOffer := none, connect := none, longCall := false, escalation := none,
    overdueTimer := overdueTimer, transferTimer := none, longTimer := none, longWaits := false,
    claimedOnce := false, capture := none }

/-- A record for a line is created with the id the register issues (R85, R88). -/
def State.createRecord (s : State) (n : LineId) (arrival : Tick) : State :=
  let id := s.nextId
  let r := CallRecord.create id n arrival (s.overdueTimerFor arrival)
  { s.issue id with records := s.records ++ [r] }

/-- A record for a line is created, and the line becomes IN_CALL (R38, R88). -/
def State.addRecord (s : State) (n : LineId) (arrival : Tick) : State :=
  (s.createRecord n arrival).enter n .inCall

/-- An overflow entry takes its place by arrival age, greater first, and by line number (R87). -/
def insertOverflow (now : Tick) (e : OverflowEntry) : List OverflowEntry → List OverflowEntry
  | [] => [e]
  | q :: rest =>
    let a := ticksSince now e.arrival
    let b := ticksSince now q.arrival
    if b < a ∨ (a = b ∧ e.line.val < q.line.val) then e :: q :: rest else q :: insertOverflow now e rest

/-- An entry is put in the overflow list (R87). -/
def State.insertEntry (s : State) (e : OverflowEntry) : State :=
  { s with overflow := insertOverflow s.tick e s.overflow }

/-- A line with an overflow entry becomes QUEUED, and OVERFLOW is sent (R87). -/
def State.queueLine (s : State) (n : LineId) : State :=
  (s.enter n .queued).notifyAll (.overflow n s.overflow.length)

/-- A line is put in the overflow list and becomes QUEUED, and OVERFLOW is sent (R87). -/
def State.addOverflow (s : State) (e : OverflowEntry) : State := (s.insertEntry e).queueLine e.line

/-- A call request is admitted or put in the overflow list; then the line's capture is started, and then
its tone is set (R35, R85, R87). -/
def State.callRequest (s : State) (n : LineId) (arrival : Tick) : State :=
  if s.records.length < Config.registerCapacity then
    ((s.createRecord n arrival).startCapture n arrival).enter n .inCall
  else
    ((s.insertEntry { line := n, arrival := arrival, result := none }).startCapture n arrival).queueLine n

/-- The first overflow entry is promoted to a record; a result it holds is resolved and offered at once;
a record whose overdue moment has passed is marked (R88, R106). -/
def State.promote (s : State) : State :=
  match s.overflow with
  | [] => s
  | e :: rest =>
    let s := { s with overflow := rest }
    let late := (s.overdueTimerFor e.arrival).isNone
    let s := s.addRecord e.line e.arrival
    let s := match s.recordOfLine e.line, e.result with
      | some r, some res => s.resolve r res
      | _, _ => s
    match s.recordOfLine e.line with
    | some r => if late then s.markOverdue r else s
    | none => s

/-! ### The abandoned list (R94 to R97) -/

/-- OVERFLOWED is cleared when the list becomes empty (R95). -/
def State.setAbandoned (s : State) (xs : List AbandonedEntry) : State :=
  { s with abandoned := xs, overflowed := s.overflowed && !xs.isEmpty }

/-- An entry is made; into a full list, the oldest is first discarded and OVERFLOWED set (R95). -/
def State.addAbandoned (s : State) (e : AbandonedEntry) : State :=
  if s.abandoned.length < Config.abandonedCapacity then { s with abandoned := s.abandoned ++ [e] }
  else { s with abandoned := s.abandoned.drop 1 ++ [e], overflowed := true }

/-- The abandoned entry a record leaves (R94). -/
def abandonedOfRecord (r : CallRecord) (ended : Tick) : AbandonedEntry :=
  { id := r.id, line := r.line, category := r.category, arrival := r.arrival, ended := ended,
    offered := r.offered, orphan := r.flags.orphan }

/-- The abandoned entry an overflow entry leaves, with a newly allocated id (R93, R94). The id is allocated
before a full list discards its oldest entry, whose id is then still held (DESIGN CHOICE, assumption
41). -/
def State.abandonOverflow (s : State) (e : OverflowEntry) : State :=
  let id := s.nextId
  let category := match e.result with
    | some res => (categoryAndCheck s.acceptance none res).1
    | none => .emergency
  (s.issue id).addAbandoned
    { id := id, line := e.line, category := category, arrival := e.arrival, ended := s.tick,
      offered := .empty, orphan := false }

/-- A QUEUED line's entry is taken out of the overflow list and abandoned (R93). -/
def State.dropOverflow (s : State) (n : LineId) : State :=
  match s.overflow.find? (·.line = n) with
  | some e => { s with overflow := s.overflow.filter fun q => q.line ≠ n }.abandonOverflow e
  | none => s

/-! ### Endings (R91, R92) -/

/-- A call record ends: steps 1 to 5 of R92. -/
def State.endRecord (s : State) (r : CallRecord) (reason : EndReason) : State :=
  let full := Config.registerCapacity ≤ s.records.length
  let s := (s.removeRecord r.id).freeHeld r.channel
  let s := match r.claimant with
    | some c => s.notify c.link (.callEnded r.id r.line reason)
    | none => s
  let s := s.each r.offered.members fun s c => s.withdrawFrom r c reason
  let s := s.notifyOrigin r (.callWithdrawn r.id r.line reason)
  let s := if r.state.unclaimed then s.addAbandoned (abandonedOfRecord r s.tick) else s
  if full then s.promote else s

/-- A call ends and its line enters the condition R91 gives; its capture is dropped, and its claimant's
handover is checked (R92 step 6, R123). The line's tone is set before its capture is dropped and the receiver
switched (DESIGN CHOICE, assumption 35). -/
def State.endCall (s : State) (r : CallRecord) (reason : EndReason) (after : Condition) : State :=
  (((s.endRecord r reason).enter r.line after).dropCapture r.line).checkHandoverOf r.claimant

/-! ### Displacement and the answered recall (R89, R90) -/

/-- The record displaced to make room: the lowest-ranked unclaimed one, else the lowest-ranked HELD one
(R90). -/
def State.displaced (s : State) : Option CallRecord :=
  match (s.registerOrder.filter (·.state.unclaimed)).getLast? with
  | some r => some r
  | none => (s.registerOrder.filter (·.state = .held)).getLast?

/-- A record is moved back to the overflow list (R90). -/
def State.displace (s : State) (r : CallRecord) : State :=
  let s := s.removeRecord r.id
  let result := if r.category = .recall then some .notReceived else r.capture
  let s := match r.state with
    | .held =>
      match r.claimant with
      | some c => s.notify c.link (.callWithdrawn r.id r.line .displaced)
      | none => s
    | _ => s.each r.offered.members fun s c => s.withdrawFrom r c .displaced
  let s := s.notifyOrigin r (.callWithdrawn r.id r.line .displaced)
  s.addOverflow { line := r.line, arrival := r.arrival, result := result }

/-- The RECALL record of an answered recall (R67, R89). -/
def recallRecord (id : CallId) (n : LineId) (c : Centre) (ch : ChannelId) (now : Tick) (e : Entry)
    (long : Timer) : CallRecord :=
  { CallRecord.create id n now none with
    category := .recall, location := some (directoryLocation e), state := .connected,
    claimant := some c, channel := some ch, connect := some now, longTimer := some long,
    claimedOnce := true, capture := some .notReceived }

/-- An answered recall: a full register displaces one record; the RECALL record is created on the
reserved channel, which becomes CONNECTED; the line's abandoned entries are removed; the ringing link is
sent CALL_TAKEN (R43, R89, R97, R132). -/
def State.answerRecall (s : State) (n : LineId) (c : Centre) (ch : ChannelId) : State :=
  let s := s.give (.ring n false)
  let victim := if s.records.length < Config.registerCapacity then none else s.displaced
  let s := match victim with
    | some r => s.displace r
    | none => s
  let id := s.nextId
  let long := s.timerFromTick (s.timers.longCall * 1000)
  let r := recallRecord id n c ch s.tick (s.entry n) long
  let s := { s.issue id with records := s.records ++ [r] }
  let s := (s.connectChannel ch n c id).enter n .inCall
  let s := if s.abandoned.any (·.line = n) then
      s.setAbandoned (s.abandoned.filter fun e => e.line ≠ n)
    else s
  let s := s.notify c.link (.callTaken id n c)
  s.checkHandoverOf (victim.bind (·.claimant))

end Sys2Proof.Machine
end

