-- ==== Sys2Proof/Machine/LineUnit.lean ====
section
/-! DEFINITION. The line condition unit (R33 to R51): what a change of confirmed class does, parking,
rings and their end. -/

namespace Sys2Proof.Machine

/-- The fault kind of a confirmed class, for SHORT, OPEN and FOREIGN. -/
def LoopClass.fault? : LoopClass → Option FaultKind
  | .short => some .short
  | .opn => some .opn
  | .foreign => some .foreign
  | _ => none

/-- A line becomes FAULT of a kind, with its LINE_CONDITION notice (R35). -/
def State.enterFault (s : State) (n : LineId) (k : FaultKind) : State :=
  (s.enter n (.fault k)).notifyCondition n

/-- The notice R40 owes when a line leaves PARKED with its park notice sent flag set. -/
def State.notifyUnparked (s : State) (n : LineId) (noticeSent : Bool) : State :=
  if noticeSent then s.notifyCondition n else s

/-- The condition a line enters when its call record ends RELEASED (R39). -/
def State.parkedNow (s : State) : Condition :=
  .parked (some (s.timer (s.timers.parkNotice * 1000))) false s.tick

/-- A class change of a line in IDLE (R35). -/
def State.changeIdle (s : State) (n : LineId) (new : LoopClass) : State :=
  match new with
  | .offhook => s.callRequest n s.tick
  | _ =>
    match new.fault? with
    | some k => s.enterFault n k
    | none => s

/-- A class change of a line in FAULT (R36). -/
def State.changeFault (s : State) (n : LineId) (old : FaultKind) (new : LoopClass) : State :=
  match new with
  | .idle => (s.enter n .idle).notifyLine n (.faultCleared n old)
  | .offhook => ((s.setCondition n .idle).notifyLine n (.faultCleared n old)).callRequest n s.tick
  | _ =>
    match new.fault? with
    | some k => s.enterFault n k
    | none => s

/-- A class change of a line in IN_CALL (R37). A handover that the loss of the line completes is completed
before the line's LINE_CONDITION is sent (DESIGN CHOICE, assumption 36). -/
def State.changeInCall (s : State) (n : LineId) (new : LoopClass) : State :=
  match s.recordOfLine n with
  | none => s
  | some r =>
    match new with
    | .idle => s.endCall r .callerCleared .idle
    | _ =>
      match new.fault? with
      | some k => (s.endCall r .lineLost (.fault k)).notifyCondition n
      | none => s

/-- A class change of a line in QUEUED (R37, R93). Its tone is removed before its capture is dropped and the
receiver switched (DESIGN CHOICE, assumption 35). -/
def State.changeQueued (s : State) (n : LineId) (new : LoopClass) : State :=
  match new with
  | .idle => ((s.dropOverflow n).enter n .idle).dropCapture n
  | _ =>
    match new.fault? with
    | some k => (((s.dropOverflow n).enter n (.fault k)).dropCapture n).notifyCondition n
    | none => s

/-- A class change of a line in PARKED (R39, R40). -/
def State.changeParked (s : State) (n : LineId) (noticeSent : Bool) (new : LoopClass) : State :=
  match new with
  | .idle => (s.enter n .idle).notifyUnparked n noticeSent
  | _ =>
    match new.fault? with
    | some k => (s.enterFault n k).notifyUnparked n noticeSent
    | none => s

/-- A change of confirmed class reaches the line condition unit (section 3.2). -/
def State.classChange (s : State) (n : LineId) (new : LoopClass) : State :=
  match (s.line n).condition with
  | .idle => s.changeIdle n new
  | .fault k => s.changeFault n k new
  | .inCall => s.changeInCall n new
  | .queued => s.changeQueued n new
  | .parked _ sent _ => s.changeParked n sent new
  | .ringing _ c ch =>
    match new with
    | .offhook => s.answerRecall n c ch
    | _ => s
  | .notFitted | .outOfService | .testing _ => s

/-- A ring ends unanswered: the ringing signal is removed, the reserved channel freed and the line made
IDLE (R44, R45, R46). -/
def State.stopRing (s : State) (n : LineId) (ch : ChannelId) : State :=
  ((s.give (.ring n false)).freeChannel ch).enter n .idle

/-- The rings of a link that becomes LOST are cancelled (R46, R120 step 1), several of them in line order
(DESIGN CHOICE, assumption 38). -/
def State.cancelRings (s : State) (c : Centre) : State :=
  s.each (List.finRange 64) fun s n =>
    match (s.line n).condition with
    | .ringing _ link ch => if link = c then s.stopRing n ch else s
    | _ => s

/-- The condition a line takes from the directory and the group records (R34, R51). -/
def State.conditionFromDirectory (s : State) (n : LineId) : Condition :=
  if (s.group n.group).fitted.val ≤ n.pos.val then .notFitted
  else if (s.entry n).inService then .idle
  else .outOfService

/-- The call id a LINE_BUSY refusal carries: the line's when it is IN_CALL and 0 otherwise (R42, R47,
R137). -/
def State.busyId (s : State) (n : LineId) : CallId :=
  match (s.line n).condition with
  | .inCall =>
    match s.recordOfLine n with
    | some r => r.id
    | none => 0
  | _ => 0

end Sys2Proof.Machine
end

