-- ==== Sys2Proof/Machine/Classify.lean ====
section
/-! DEFINITION. The loop classifier (R17 to R32): the computation of one sample, tracking and LEAKY,
debounce and confirmation. -/

namespace Sys2Proof.Machine

/-- The loop resistance of two codes, rounded to the nearest ohm and held at 65535 (R22). -/
def resistance (vc ic : Code) : Nat :=
  if ic.toNat = 0 then Config.noCurrent
  else min ((1000 * vc.toNat + ic.toNat / 2) / ic.toNat) Config.noCurrent

/-- A sample above the feed reference by more than 50 codes is FOREIGN (R21). A group that holds no feed
reference makes no such check (R139). -/
def isForeign (vc : Code) (vf : Option Code) : Bool :=
  match vf with
  | some v => v.toNat + Config.foreignMargin < vc.toNat
  | none => false

/-- The off-hook limit L_off (R23). -/
def offLimit (p : Profile) (k : Classifier) : Nat :=
  min p.offMax (k.rTrack / 4) + (if k.confirmed = .offhook then p.hyst else 0)

/-- The bottom of the idle band (R24). -/
def bandLow (p : Profile) (k : Classifier) : Nat :=
  max (offLimit p k + 1) (3 * k.rTrack / 4 - (if k.confirmed = .idle then p.hyst else 0))

/-- The top of the idle band (R24). -/
def bandHigh (p : Profile) (k : Classifier) : Nat :=
  if k.confirmed = .idle then min 65534 (p.idleHi + p.hyst) else p.idleHi

/-- The raw class of a resistance (R25). -/
def rawClass (p : Profile) (k : Classifier) (r : Nat) : RawClass :=
  if r < p.short then .short
  else if r ≤ offLimit p k then .offhook
  else if r < bandLow p k then .marginal
  else if r ≤ bandHigh p k then .idle
  else if r ≤ p.opn then .marginal
  else .opn

/-- The tracked idle resistance after an IDLE sample (R26). -/
def tracked (p : Profile) (rTrack r : Nat) : Nat :=
  let moved := (rTrack : Int) + ((r : Int) - (rTrack : Int)).tdiv 8
  min (max moved.toNat Config.trackFloor) p.idleHi

/-- The raw class as a class that can be confirmed; MARGINAL cannot (R17). -/
def RawClass.class? : RawClass → Option LoopClass
  | .idle => some .idle
  | .offhook => some .offhook
  | .short => some .short
  | .opn => some .opn
  | .foreign => some .foreign
  | .marginal => none

/-- The confirm count of a class (R18). -/
def confirmCount (p : Profile) : LoopClass → Nat
  | .offhook => p.cOffhook
  | .idle => p.cIdle
  | .short => p.cShort
  | .opn => p.cOpen
  | .foreign => p.cForeign
  | .unknown => 0

/-- Debounce of one raw class (R28). -/
def debounce (k : Classifier) (raw : RawClass) : Classifier :=
  match raw.class? with
  | none => { k with marginal := min (k.marginal + 1) 65535 }
  | some c =>
    if c = k.confirmed then { k with candidate := none, count := 0 }
    else if k.candidate = some c then { k with count := k.count + 1 }
    else { k with candidate := some c, count := 1 }

/-- The class a candidate confirms, when its count has reached the confirm count (R29). -/
def confirmed? (p : Profile) (k : Classifier) : Option LoopClass :=
  match k.candidate with
  | some c => if confirmCount p c ≤ k.count then some c else none
  | none => none

/-- A raw class enters debounce; a class confirmed is handed to the line condition unit (R28, R29). -/
def State.debounceLine (s : State) (n : LineId) (raw : RawClass) : State :=
  let k := debounce (s.classifier n) raw
  match confirmed? (s.profileOf n) k with
  | some c =>
    (s.setClassifier n { k with confirmed := c, candidate := none, count := 0 }).classChange n c
  | none => s.setClassifier n k

/-- Tracking of an IDLE sample, with the LEAKY flag and its notice (R26, R27). -/
def State.trackLine (s : State) (n : LineId) (r : Nat) : State :=
  let p := s.profileOf n
  let k := s.classifier n
  let t := tracked p k.rTrack r
  let leaky : Bool := t < p.leak
  let s := s.setClassifier n { k with rTrack := t, leaky := leaky }
  if leaky = k.leaky then s else s.notifyCondition n

/-- A sample classified in full (R20 to R29). -/
def State.classifyFull (s : State) (n : LineId) (vc ic : Code) (vf : Option Code) : State :=
  if isForeign vc vf then s.debounceLine n .foreign
  else
    let r := resistance vc ic
    let raw := rawClass (s.profileOf n) (s.classifier n) r
    let s := s.setClassifier n { s.classifier n with rLast := some r }
    let s := if raw = .idle then s.trackLine n r else s
    s.debounceLine n raw

/-- A sample of a RINGING line: only OFFHOOK enters debounce (R30). -/
def State.classifyRinging (s : State) (n : LineId) (vc ic : Code) (vf : Option Code) : State :=
  if isForeign vc vf then s
  else
    let r := resistance vc ic
    let raw := rawClass (s.profileOf n) (s.classifier n) r
    let s := s.setClassifier n { s.classifier n with rLast := some r }
    if raw = .offhook then s.debounceLine n raw else s

/-- A line sample is handed to the classifier (R20). -/
def State.classify (s : State) (n : LineId) (vc ic : Code) (vf : Option Code) : State :=
  match (s.line n).condition with
  | .testing _ | .outOfService | .notFitted => s
  | .ringing _ _ _ => s.classifyRinging n vc ic vf
  | _ => s.classifyFull n vc ic vf

/-- The classifier state of a line is reset (R32). -/
def State.resetClassifier (s : State) (n : LineId) : State :=
  s.setClassifier n (.reset (s.profileOf n).term)

/-- What a write of the profile a line names, or a change of that profile, does to the line (R19). -/
def State.retrack (s : State) (n : LineId) : State :=
  s.setClassifier n
    { s.classifier n with
      rTrack := (s.profileOf n).term, leaky := false, candidate := none, count := 0 }

end Sys2Proof.Machine
end

