-- ==== Sys2Proof/Machine/TestUnit.lean ====
section
/-! DEFINITION. The test unit (R136 to R148) and the counting of path checks (R11): starting a test,
its phases, its end. -/

namespace Sys2Proof.Machine

/-! ### Path checks counted (R11) -/

/-- The two paths disagree (R11, R142). -/
def pathsDisagree (dv di : Int) : Bool :=
  Config.pathTolerance < dv.natAbs || Config.pathTolerance < di.natAbs

/-- A discrepancy or an agreement is counted, the runs saturating at 255, and the group health is
reviewed; nothing is counted while the group is SILENT (R11). -/
def State.countCheck (s : State) (g : GroupId) (discrepancy : Bool) : State :=
  let r := s.group g
  let disc := if discrepancy then min (r.discrepancyRun + 1) 255 else 0
  let agree := if discrepancy then 0 else min (r.agreementRun + 1) 255
  match r.health with
  | .silent => s
  | .scanning =>
    if disc = 2 then
      (s.setGroup g { r with health := .pathFault, discrepancyRun := 0, agreementRun := 0 }).notifyAll
        (.pathFault g true)
    else s.setGroup g { r with discrepancyRun := disc, agreementRun := agree }
  | .pathFault =>
    if agree = 4 then
      (s.setGroup g { r with health := .scanning, discrepancyRun := 0, agreementRun := 0 }).notifyAll
        (.pathFault g false)
    else s.setGroup g { r with discrepancyRun := disc, agreementRun := agree }

/-! ### Starting (R138, R140 to R142) -/

/-- The first phase of a kind. -/
def firstPhase : TestKind → TestPhase
  | .openWire => .measureBefore
  | .insulation => .sourceDwell
  | .pathCheck => .measureMain

/-- A taken TEST_LINE, steps 1 to 3 and 5 of R138 with the reply of step 4 between them. -/
def State.startTest (s : State) (l : Link) (n : LineId) (kind : TestKind) (prior : PriorCondition)
    (command : Byte) : State :=
  let t : TestRecord :=
    { line := n, kind := kind, requester := l, phase := firstPhase kind, start := s.tick,
      limit := s.timerFromTick Config.testTime,
      dwell := if kind = .insulation then some (s.timer Config.dwellTime) else none,
      order := if kind = .insulation then .none else .waiting, samples := [] }
  let s := s.setTest n.group (some t)
  let s := s.enter n (.testing prior)
  let s := s.give (.hookSense n true)
  let s := s.reply l command .ok [byte n.val, byte kind.code]
  if kind = .insulation then s.give (.testSource n true) else s

/-! ### The end of a test (R143) -/

/-- A placed test order is left to end on the port with its outcome discarded (R143, R148). -/
def dropTestOrder (r : GroupRecord) : GroupRecord :=
  match r.port with
  | some o =>
    match o.owner with
    | .test => { r with port := some { o with fate := .stale } }
    | .scanner _ => r
  | none => r

/-- The drives a test has switched are switched back (R139, R143). -/
def State.restoreDrives (s : State) (t : TestRecord) : State :=
  let s := match t.kind with
    | .openWire => if t.phase = TestPhase.measureBefore then s else s.give (.sink t.line false)
    | .insulation => s.give (.testSource t.line false)
    | .pathCheck => s
  s.give (.hookSense t.line false)

/-- The condition a TESTING line returns to (R49). -/
def PriorCondition.condition : PriorCondition → Condition
  | .idle => .idle
  | .fault k => .fault k
  | .outOfService => .outOfService

/-- The line returns to its prior condition (R49). -/
def State.leaveTesting (s : State) (n : LineId) : State :=
  match (s.line n).condition with
  | .testing p => s.enter n p.condition
  | _ => s

/-- A test ends with a result or aborted (R143). -/
def State.endTest (s : State) (g : GroupId) (outcome : TestOutcome) : State :=
  match s.test g with
  | none => s
  | some t =>
    let s := s.setGroup g (dropTestOrder (s.group g))
    let s := s.restoreDrives t
    let result : TestResult :=
      { line := t.line, kind := t.kind, outcome := outcome, health := (s.group g).health,
        elapsed := ticksSince s.tick t.start * 10 }
    let s := (s.leaveTesting t.line).setTest g none
    s.notify t.requester (.testResult result)

/-! ### Measurements (R139 to R142, R147) -/

def State.updTest (s : State) (g : GroupId) (t : TestRecord) : State := s.setTest g (some t)

/-- The result of an INSULATION test (R141). -/
def State.insulationOutcome (s : State) (n : LineId) (vc ic : Code) : TestOutcome :=
  let vf := (s.group n.group).vf
  if isForeign vc vf then .foreign vc ic vf
  else
    let r := resistance vc ic
    if (s.profileOf n).leak ≤ r then .pass vc ic vf r else .lowInsulation vc ic vf r

/-- The differences of the MAIN sample less the CHECK sample (R11, R142). -/
def sampleDiff (main check : Code × Code) : Int × Int :=
  ((main.1.toNat : Int) - check.1.toNat, (main.2.toNat : Int) - check.2.toNat)

/-- The result of a PATH_CHECK test (R142). -/
def pathOutcome (main check : Code × Code) : TestOutcome :=
  let d := sampleDiff main check
  if pathsDisagree d.1 d.2 then .disagree d.1 d.2 else .agree d.1 d.2

/-- The result of an OPEN_WIRE test (R140). -/
def openWireOutcome (before after : Code) : TestOutcome :=
  if Config.continuousDrop ≤ (before.toNat : Int) - after.toNat then .continuous before after
  else .openWire before after

/-- A test order ends with a sample, in a phase of the test (R140 to R142). -/
def State.testSample (s : State) (g : GroupId) (t : TestRecord) (x : Code × Code) : State :=
  match t.phase with
  | .measureBefore =>
    (s.updTest g
      { t with phase := .dwell, order := .none, samples := [x],
               dwell := some (s.timer Config.dwellTime) }).give (.sink t.line true)
  | .measureAfter =>
    match t.samples with
    | b :: _ => (s.updTest g { t with order := .none }).endTest g (openWireOutcome b.1 x.1)
    | [] => s
  | .measure =>
    (s.updTest g { t with order := .none }).endTest g (s.insulationOutcome t.line x.1 x.2)
  | .measureMain =>
    s.updTest g { t with phase := .measureCheck, order := .waiting, samples := [x] }
  | .measureCheck =>
    match t.samples with
    | m :: _ =>
      let d := sampleDiff m x
      ((s.updTest g { t with order := .none }).countCheck g (pathsDisagree d.1 d.2)).endTest g
        (pathOutcome m x)
    | [] => s
  | .dwell | .sourceDwell => s

/-- A test order's outcome goes to the test unit; a no-sample ends the test NO_SAMPLE (R139, R147). -/
def State.testOrderEnd (s : State) (g : GroupId) (outcome : Option (Code × Code)) : State :=
  match s.test g with
  | none => s
  | some t =>
    match outcome with
    | none => s.endTest g (.aborted .noSample)
    | some x => s.testSample g t x

end Sys2Proof.Machine
end

