-- ==== Sys2Proof/Machine/Scanner.lean ====
section
/-! DEFINITION. The line scanner (R1 to R16): the order port, scan passes, the path check, silent groups
and their probing. -/

namespace Sys2Proof.Machine

/-! ### The order port (R3) -/

/-- What a scanner order measures, and on which path (R8, R9, R10, R14). -/
def ScanPurpose.target : ScanPurpose → Target × Path
  | .feed => (.feed, .main)
  | .line p | .checkMain p => (.position p, .main)
  | .checkSecond p _ => (.position p, .check)
  | .probe => (.position 0, .main)

/-- What the order of a test measures, and on which path (R140 to R142). -/
def TestRecord.target (t : TestRecord) : Target × Path :=
  (.position t.line.pos, if t.phase = TestPhase.measureCheck then .check else .main)

/-- An order placed now: in READY it has a 20 ms timer (R5, R6). -/
def State.placedOrder (s : State) (g : GroupId) (owner : OrderOwner) : PlacedOrder :=
  let mode := (s.group g).settle
  { owner := owner, settle := mode,
    timer := if mode = .ready then some (s.timer Config.orderTime) else none, fate := .live }

/-- A free port takes the test unit's order if it has one ready, and otherwise the scanner's (R3). A scanner
order that waits is placed even when its line has become TESTING, or by SET_SERVICE OUT_OF_SERVICE, since it
was made ready (DESIGN CHOICE, assumption 43). -/
def State.arbitrate (s : State) (g : GroupId) : State :=
  let r := s.group g
  match r.port with
  | some _ => s
  | none =>
    match (s.test g).filter (·.order = .waiting) with
    | some t =>
      ((s.setGroup g { r with port := some (s.placedOrder g .test) }).setTest g
        (some { t with order := .placed })).give (.measure g t.target.1 t.target.2)
    | none =>
      match r.scanWaiting with
      | some p =>
        (s.setGroup g
          { r with port := some (s.placedOrder g (.scanner p)), scanWaiting := none }).give
          (.measure g p.target.1 p.target.2)
      | none => s

/-- The scanner makes an order ready (R3). -/
def State.ready (s : State) (g : GroupId) (p : ScanPurpose) : State :=
  s.setGroup g { s.group g with scanWaiting := some p }

/-! ### Passes (R7 to R10) -/

/-- The scan interval of a power state (R7). -/
def scanInterval : PowerState → Nat
  | .normal => 100
  | .economy => 400
  | .reserve => 1000

/-- A scan pass starts: the pass timer starts and the feed reference order is made ready (R7, R8). A
group with a fitted count of 0 starts none (R2). -/
def State.startPass (s : State) (g : GroupId) : State :=
  let r := s.group g
  if r.fitted = 0 then s
  else
    s.setGroup g
      { r with
        pass := .inPass, passTimer := some (s.timer (scanInterval s.power)),
        scanWaiting := some .feed, restartPass := false }

/-- A pass ends; the next starts at once when its timer has expired (R7). -/
def State.endPass (s : State) (g : GroupId) : State :=
  if (s.group g).passTimer.isNone then s.startPass g
  else s.setGroup g { s.group g with pass := .idleWait }

/-- The positions of a group that carry a post line, in ascending order (R2). -/
def fittedPositions (f : Fin 9) : List Pos := (List.finRange 8).filter fun p => p.val < f.val

/-- A position whose line is measured in a pass (R9). -/
def State.scannable (s : State) (g : GroupId) (p : Pos) : Bool :=
  match (s.line (lineAt g p)).condition with
  | .outOfService | .testing _ => false
  | _ => true

/-- The position after one, wrapping from f - 1 to 0 (R10). -/
def positionAfter (f : Fin 9) (p : Pos) : Pos :=
  if p.val + 1 < f.val then p + 1 else 0

/-- The fitted positions in ascending order from a position on, wrapping from f - 1 to 0 (R10). -/
def positionsFrom (f : Fin 9) (p : Pos) : List Pos :=
  (fittedPositions f).filter (fun q => p.val ≤ q.val) ++ (fittedPositions f).filter fun q => q.val < p.val

/-- The path check of a pass is begun, or the pass ends (R10). -/
def State.beginPathCheck (s : State) (g : GroupId) : State :=
  let r := s.group g
  let chosen := (positionsFrom r.fitted r.checkPos).find? fun p =>
    (s.line (lineAt g p)).condition = .idle
  match r.pathCheck, chosen with
  | true, some p =>
    s.setGroup g
      { r with checkPos := positionAfter r.fitted p, scanWaiting := some (.checkMain p) }
  | _, _ => s.endPass g

/-- The pass goes on at a position: the next line to be measured is ordered, or the path check follows
(R9, R10). -/
def State.scanFrom (s : State) (g : GroupId) (k : Nat) : State :=
  match (fittedPositions (s.group g).fitted).find? fun p => k ≤ p.val && s.scannable g p with
  | some p => s.ready g (.line p)
  | none => s.beginPathCheck g

/-! ### Silence and recovery (R13 to R15) -/

/-- The probe delay for the present probe count is started (R14). -/
def State.startProbeDelay (s : State) (g : GroupId) : State :=
  let r := s.group g
  s.setGroup g { r with probeDelay := some (s.timer (100 * 2 ^ min r.probeCount 6)) }

/-- A group becomes SILENT (R13), and its running test is aborted (R146). GROUP_SILENT is sent before the
TEST_RESULT of that test (DESIGN CHOICE, assumption 49). -/
def State.becomeSilent (s : State) (g : GroupId) : State :=
  let s := s.setGroup g
    { s.group g with
      pass := .stopped, passTimer := none, scanWaiting := none, discrepancyRun := 0,
      agreementRun := 0, probeCount := 0, health := .silent }
  let s := (s.notifyAll (.groupSilent g)).startProbeDelay g
  s.endTest g (.aborted .group)

/-- A no-sample of a feed reference, line or path-check order is counted; the third in a row makes the
group SILENT, and otherwise the pass goes on (R13). -/
def State.noSample (s : State) (g : GroupId) (goOn : State → State) : State :=
  let run := min ((s.group g).noSampleRun + 1) 3
  let s := s.setGroup g { s.group g with noSampleRun := run }
  if run = Config.silentRun then s.becomeSilent g else goOn s

/-- A sample of a scanner order sets the no-sample run to 0 (R13). -/
def State.sampled (s : State) (g : GroupId) : State :=
  s.setGroup g { s.group g with noSampleRun := 0 }

/-- A probe ends with a sample: the group recovers (R15). -/
def State.recoverGroup (s : State) (g : GroupId) : State :=
  let s := s.setGroup g { s.group g with health := .scanning, noSampleRun := 0, probeCount := 0 }
  (s.notifyAll (.groupRecovered g)).startPass g

/-! ### The end of an order (R4, R5, R8 to R11, R14) -/

/-- A live scanner order ends with a sample. -/
def State.scanSample (s : State) (g : GroupId) (p : ScanPurpose) (x : Code × Code) : State :=
  match p with
  | .feed =>
    let s := s.sampled g
    (s.setGroup g { s.group g with vf := some x.1 }).scanFrom g 0
  | .line p =>
    let s := s.sampled g
    (s.classify (lineAt g p) x.1 x.2 (s.group g).vf).scanFrom g (p.val + 1)
  | .checkMain p => (s.sampled g).ready g (.checkSecond p (some x))
  | .checkSecond _ first =>
    let s := s.sampled g
    let s := match first with
      | some m =>
        let d := sampleDiff m x
        s.countCheck g (pathsDisagree d.1 d.2)
      | none => s
    s.endPass g
  | .probe => s.recoverGroup g

/-- A live scanner order ends in no-sample. -/
def State.scanNoSample (s : State) (g : GroupId) (p : ScanPurpose) : State :=
  match p with
  | .feed => s.noSample g fun s => if (s.group g).vf.isSome then s.scanFrom g 0 else s.endPass g
  | .line p => s.noSample g fun s => s.scanFrom g (p.val + 1)
  | .checkMain p => s.noSample g fun s => s.ready g (.checkSecond p none)
  | .checkSecond _ _ => s.noSample g fun s => s.endPass g
  | .probe =>
    let r := s.group g
    (s.setGroup g { r with probeCount := min (r.probeCount + 1) 255 }).startProbeDelay g

/-- A scanner order whose line lost fit ends: its outcome is discarded and the pass goes on; a path check
on such a line places no further order and is not counted (R2). -/
def State.scanLostFit (s : State) (g : GroupId) (p : ScanPurpose) : State :=
  match p with
  | .line p => s.scanFrom g (p.val + 1)
  | .checkMain _ | .checkSecond _ _ => s.endPass g
  | .feed | .probe => s

/-- The order on a group's port ends: the port is freed, the outcome goes to the user that placed the
order, a pass that a warm restart owes the group starts, and the port takes the next order
(R3, R16). -/
def State.endOrder (s : State) (g : GroupId) (outcome : Option (Code × Code)) : State :=
  match (s.group g).port with
  | none => s
  | some o =>
    let s := s.setGroup g { s.group g with port := none }
    let s := match o.fate, o.owner with
      | .stale, _ => s
      | .live, .test => s.testOrderEnd g outcome
      | .lostFit, .test => s
      | .lostFit, .scanner p => s.scanLostFit g p
      | .live, .scanner p =>
        match outcome with
        | some x => s.scanSample g p x
        | none => s.scanNoSample g p
    let s := if (s.group g).restartPass then s.startPass g else s
    s.arbitrate g

/-- The result of a measurement: a sample when its valid flag is set (R4, R5). -/
def measured (vc ic : Code) (valid : Bool) : Option (Code × Code) :=
  if valid then some (vc, ic) else none

/-! ### A changed fitted count (R2) -/

/-- An order for a position at or above the new fitted count. -/
def ScanPurpose.losesFit (f : Fin 9) : ScanPurpose → Bool
  | .line p | .checkMain p | .checkSecond p _ => f.val ≤ p.val
  | .feed | .probe => false

/-- A placed scanner order whose line has just lost fit is allowed to end, its outcome discarded; with a
fitted count of 0 every scanner order is (R2). -/
def PlacedOrder.afterFit (o : PlacedOrder) (f : Fin 9) : PlacedOrder :=
  match o.owner, o.fate with
  | .test, _ => o
  | _, .stale => o
  | .scanner p, _ =>
    if f = 0 then { o with fate := .stale }
    else if p.losesFit f then { o with fate := .lostFit }
    else o

/-- The scanner's part of a SET_GROUP that changes the fitted count (R2). -/
def State.refit (s : State) (g : GroupId) (f : Fin 9) : State :=
  let r := s.group g
  let was := r.fitted
  let r := { r with
    fitted := f
    checkPos := if f.val ≤ r.checkPos.val then 0 else r.checkPos
    port := r.port.map fun o => o.afterFit f }
  if f = 0 then
    s.setGroup g
      { r with
        pass := .stopped, passTimer := none, probeDelay := none, scanWaiting := none,
        restartPass := false }
  else if was = 0 then
    let s := s.setGroup g r
    if r.health = .silent then s.startProbeDelay g else (s.startPass g).arbitrate g
  else
    match r.scanWaiting.filter fun p => p.losesFit f with
    | some p => ((s.setGroup g { r with scanWaiting := none }).scanLostFit g p).arbitrate g
    | none => s.setGroup g r

end Sys2Proof.Machine
end

