-- ==== Sys2Proof/Machine/Store.lean ====
section
/-! DEFINITION. The post directory's store (R68 to R80): the write queue, and the load of a cold start
(R171 to R173). -/

namespace Sys2Proof.Machine

/-! ### Items -/

/-- The place of an item among the 79 stored copies, its read number less 1 (R171). -/
def Item.index (i : Item) : Fin 79 := Fin.ofNat 79 (i.number - 1)

/-- The working copy of an item (section 5.1). -/
def State.content (s : State) : Item → ItemContent
  | .acceptance => .acceptance s.acceptance
  | .timers => .timers s.timers
  | .bearer => .bearer s.bearer
  | .profile p => .profile (s.profile p)
  | .group g => .group (s.group g).fitted (s.group g).settle (s.group g).pathCheck
  | .line n => .line (s.entry n)

def State.setStored (s : State) (i : Item) (c : Option ItemContent) : State :=
  { s with stored := s.stored.set i.index c }

/-! ### The store write queue (R75, R76) -/

/-- The WRITE_PENDING flag of an item (R69). -/
def State.writePending (s : State) (i : Item) : Bool := s.writes.any fun e => e.item = i

/-- A WAITING entry for an item (R75). -/
def WriteEntry.waitsFor (e : WriteEntry) (i : Item) : Bool := e.writing.isNone && e.item = i

/-- The queue can accept a write of an item, by replacement or by a new place (R75). -/
def State.canWrite (s : State) (i : Item) : Bool :=
  s.writes.any (·.waitsFor i) || s.writes.length < Config.writeCapacity

/-- The content of the first entry is handed to the store, and the entry becomes WRITING (R75, R76). The
content is handed over alone, and its CRC of R78 is formed on the store's side (DESIGN CHOICE, assumption
40). -/
def State.startWriting (s : State) : State :=
  match s.writes with
  | e :: rest =>
    { s with writes := { e with writing := some (s.timer Config.writeTime) } :: rest }.give
      (.storeWrite e.item e.content)
  | [] => s

/-- A taken command's write is queued, with the working content as it now stands (R75). -/
def State.queueWrite (s : State) (i : Item) : State :=
  let c := s.content i
  if s.writes.any (·.waitsFor i) then
    { s with writes := s.writes.map fun e => if e.waitsFor i then { e with content := c } else e }
  else
    let added := { s with writes := s.writes ++ [{ item := i, content := c, writing := none }] }
    if s.writes.isEmpty then added.startWriting else added

/-- A write ends with success or failure (R76). -/
def State.endWrite (s : State) (success : Bool) : State :=
  match s.writes with
  | e :: rest =>
    if e.writing.isSome then
      let s := { s with writes := rest }.startWriting
      let s := s.setStored e.item (if success then some e.content else none)
      if success then s else s.notifyAll (.storeFault e.item)
    else s
  | [] => s

/-! ### The load (R78 to R80, R171 to R173) -/

/-- The default of an item (R78). -/
def defaultContent : Item → ItemContent
  | .acceptance => .acceptance (.replicate 4 defaultAcceptance)
  | .timers => .timers defaultTimers
  | .bearer => .bearer defaultBearer
  | .profile _ => .profile defaultProfile
  | .group _ => .group 8 .ready true
  | .line _ => .line defaultEntry

/-- A bad item is named in the load report (R80). -/
def LoadReport.name (r : LoadReport) : Item → LoadReport
  | .acceptance => { r with acceptance := true }
  | .timers => { r with timers := true }
  | .bearer => { r with bearer := true }
  | .profile p => { r with profiles := r.profiles ||| (1#4 <<< p.val) }
  | .group g => { r with groups := r.groups ||| (1#8 <<< g.val) }
  | .line _ => { r with lines := r.lines + 1 }

/-- The report names at least one item (R80). -/
def LoadReport.any (r : LoadReport) : Bool := r ≠ LoadReport.empty

/-- The service-state correction of a line that is not fitted (R68). -/
def correctedEntry (f : Fin 9) (n : LineId) (e : Entry) : Entry :=
  if f.val ≤ n.pos.val then { e with inService := false } else e

/-- A line entry is set at load: the correction of R68, the line's condition, the reset of its
classifier state, and the first pass of a group whose fitted lines are all set (R172, R173). -/
def State.loadLine (s : State) (n : LineId) (e : Entry) : State :=
  let f := (s.group n.group).fitted
  let s := s.setEntry n (correctedEntry f n e)
  let s := s.setCondition n (s.conditionFromDirectory n)
  let s := s.resetClassifier n
  if n.pos.val + 1 = f.val then (s.startPass n.group).arbitrate n.group else s

/-- The working copy of an item takes a content (R78). -/
def State.loadItem (s : State) (i : Item) (c : ItemContent) : State :=
  match i, c with
  | .acceptance, .acceptance t => { s with acceptance := t }
  | .timers, .timers t => { s with timers := t }
  | .bearer, .bearer b => { s with bearer := b }
  | .profile p, .profile q => s.setProfile p q
  | .group g, .group f m on =>
    s.setGroup g { s.group g with fitted := f, settle := m, pathCheck := on }
  | .line n, .line e => s.loadLine n e
  | _, _ => s

/-- The load ends: the part leaves STARTING, the report is formed, and LOAD_DEFAULTED is pending for each
link if any item was bad (R80, R173). -/
def State.endLoad (s : State) (r : LoadReport) : State :=
  { s with
    load := none, report := some r,
    reportPendingA := r.any, reportPendingB := r.any, reportPendingS := r.any }

/-- The read in progress ends, with the content it gave when the item is good; then the next read is
handed to the store, or the load ends (R78, R171, R173). -/
def State.endRead (s : State) (good : Option ItemContent) : State :=
  match s.load with
  | none => s
  | some ld =>
    let item := Item.ofNumber ld.read
    let report := if good.isSome then ld.report else ld.report.name item
    let s := (s.loadItem item (good.getD (defaultContent item))).setStored item good
    if ld.read < Config.itemCount then
      { s with
        load := some { read := ld.read + 1, timer := s.timer Config.readTime, report := report }
        }.give (.storeRead (Item.ofNumber (ld.read + 1)))
    else s.endLoad report

end Sys2Proof.Machine
end

