-- ==== Sys2Proof/Machine/Restart.lean ====
section
/-! DEFINITION. The two starts of the part: the cold start (R170) and the warm restart (R174, R175), with
what each block does at it (R16, R32, R51, R54, R102, R135, R148, R166). -/

namespace Sys2Proof.Machine

/-! ### Cold start -/

/-- The stored copies as a cold start finds them: a write under way when power is lost leaves its item
unknown (R77). -/
def State.storedAtPowerLoss (s : State) : Vector (Option ItemContent) 79 :=
  match s.writes with
  | e :: _ => if e.writing.isSome then s.stored.set e.item.index none else s.stored
  | [] => s.stored

/-- The orders that open the crosspoint: a break for each CONNECTED channel, in channel order (R126,
R133). -/
def State.openCrosspoint (s : State) : List Order :=
  (List.finRange 6).filterMap fun ch =>
    match s.channel ch with
    | .connected n _ _ => some (.breakPoint ch n)
    | _ => none

/-- A cold start: every block at its cold-start value, with the store's copies kept (R170). That every point
of the crosspoint is open after it (R126) comes about by break orders to the points that were closed (DESIGN
CHOICE, assumption 45). -/
def State.coldStart (s : State) (mainsOk batteryLow key : Bool) : State :=
  { State.initial mainsOk batteryLow key with
    pending := s.pending, stored := s.storedAtPowerLoss
    orders := s.openCrosspoint ++ (State.initial mainsOk batteryLow key).orders }

/-! ### Warm restart, block by block -/

/-- An abandoned entry's ticks are rebased to a tick counter that starts again from 0 (R102). -/
def AbandonedEntry.rebase (e : AbandonedEntry) (restart : Tick) : AbandonedEntry :=
  { e with arrival := e.arrival - restart, ended := e.ended - restart }

/-- The call register and the channel table (R102, R135). -/
def State.restartRegister (s : State) : State :=
  let order := s.registerOrder
  let s := s.each order fun s r => s.freeHeld r.channel
  let s := s.each (List.finRange 6) State.freeChannel
  let s := { s with records := [] }
  let s := s.each (order.filter (·.state.unclaimed)) fun s r =>
    s.addAbandoned (abandonedOfRecord r s.tick)
  let waiting := s.overflow
  let s := { s with overflow := [] }
  let s := s.each waiting State.abandonOverflow
  { s with abandoned := s.abandoned.map (·.rebase s.tick), idCounter := 1 }

/-- The test unit: each running test is dropped with no result (R148), in group order (DESIGN CHOICE,
assumption 46). -/
def State.restartTests (s : State) : State :=
  let s := s.each (List.finRange 8) fun s g =>
    match s.test g with
    | some t => s.restoreDrives t
    | none => s
  { s with tests := .replicate 8 none }

/-- The orders that silence a line: its tone and its ringing signal are removed (R51), the tone before the
ringing signal (DESIGN CHOICE, assumption 46). -/
def LineUnit.silencing (u : LineUnit) (n : LineId) : List Order :=
  (if u.tone = .none then [] else [.tone n .none])
    ++ match u.condition with
      | .ringing _ _ _ => [.ring n false]
      | _ => []

/-- The line condition unit and the loop classifier: every line is set afresh (R32, R51). The lines are
silenced in line order (DESIGN CHOICE, assumption 46). -/
def State.restartLines (s : State) : State :=
  { s with
    orders := s.orders ++ (List.finRange 64).flatMap fun n => (s.line n).silencing n
    lines := .ofFn fun n => { condition := s.conditionFromDirectory n, tone := .none }
    classifiers := .ofFn fun n => .reset (s.profileOf n).term }

/-- The identity receivers are switched off their lines (R54), in group order (DESIGN CHOICE, assumption
46). -/
def State.restartReceivers (s : State) : State :=
  { s with
    orders := s.orders ++ (List.finRange 8).flatMap fun g =>
      match (s.receiver g).listening with
      | some _ => [.listen g none]
      | none => []
    captures := .replicate 64 none
    receivers := .replicate 8 { listening := none, waiting := [] } }

/-- A group record at a warm restart; an order placed on the port is allowed to end with its outcome
discarded, and the pass the group is owed waits for the port (R16, R148). -/
def GroupRecord.restarted (r : GroupRecord) : GroupRecord :=
  { defaultGroup with
    fitted := r.fitted, settle := r.settle, pathCheck := r.pathCheck,
    port := r.port.map fun o => { o with fate := .stale }
    restartPass := r.fitted.val ≠ 0 && r.port.isSome }

/-- The line scanner: each group whose port is free starts a new pass (R16), in group order (DESIGN CHOICE,
assumption 46). -/
def State.restartGroups (s : State) : State :=
  let s := { s with groups := .ofFn fun g => (s.group g).restarted }
  s.each (List.finRange 8) fun s g =>
    if (s.group g).port.isNone then (s.startPass g).arbitrate g else s

/-- A link controller after a warm restart (R166). -/
def LinkController.restarted : LinkController := { LinkController.initial with resync := true }

/-- The link controllers, their scores and the duty states (R103, R166). -/
def State.restartLinks (s : State) : State :=
  { s with
    linkA := .restarted, linkB := .restarted, linkS := .restarted
    centreA := .initial s.clock, centreB := .initial s.clock }

/-- A warm restart begins (R174, R175): the window is closed, every block clears its live state, the
ticks the register keeps are rebased and the tick counter is set to 0. The orders to the road side are given
block by block in this sequence (DESIGN CHOICE, assumption 46). -/
def State.warmRestart (s : State) : State :=
  let s := { s with window := none }
  let s := s.restartRegister
  let s := s.restartTests
  let s := s.restartLines
  let s := s.restartReceivers
  let s := s.restartGroups
  let s := s.restartLinks
  { s with tick := 0, subTick := 0 }

end Sys2Proof.Machine
end

