-- ==== Sys2Proof/Machine/LinkUnit.lean ====
section
/-! DEFINITION. The link controllers (R149 to R156, R165): link health, loss and recovery, what a loss
does to the calls (R120, R121), the taking of a frame and the checks of a command. -/

namespace Sys2Proof.Machine

/-! ### Loss of a centre link (R120, R121) -/

/-- A claimed record whose claimant is lost: its channel is freed, its claimant cleared, ORPHAN set, and
it is offered to the partner or becomes WAITING (R120 step 4). -/
def State.orphan (s : State) (r : CallRecord) (lost : Centre) : State :=
  let s := s.freeHeld r.channel
  let s := s.updRecord r.id fun r =>
    { r with
      channel := none, claimant := none, longTimer := none, longWaits := false, offered := .empty
      flags := { r.flags with orphan := true } }
  s.offerOrWait r.id lost.partner

/-- The lost link leaves the offered set of an unclaimed record; a transfer to it counts as timed out, and
a set left empty moves to the partner (R121). -/
def State.loseOffer (s : State) (r : CallRecord) (lost : Centre) : State :=
  let s := s.updRecord r.id fun r => { r with offered := r.offered.remove lost }
  let s :=
    if r.origin = some lost.partner then
      let s := s.updRecord r.id fun r => { r with transferTimer := none }
      match s.recordById r.id with
      | some r => s.transferTimedOut r
      | none => s
    else s
  match s.recordById r.id with
  | some r => if r.offered = .empty then s.offerOrWait r.id lost.partner else s
  | none => s

/-- An unclaimed record at the loss of a link (R121). A transfer timer whose partner is lost is stopped where R121
says so, for a record that was still offered to that partner; it runs on for one that the partner's own handover has
already moved to the transfer origin (DESIGN CHOICE, assumption 50). -/
def State.loseUnclaimed (s : State) (r : CallRecord) (lost : Centre) : State :=
  let isOrigin := r.origin = some lost
  let s :=
    if isOrigin then
      s.updRecord r.id fun r =>
        { r with origin := none, transferTimer := none, flags := { r.flags with orphan := true } }
    else s
  let s := if r.offered.has lost then s.loseOffer r lost else s
  if isOrigin then
    (if r.offered.has lost.partner then s.placeOffer r.id lost.partner else s).retone r.line
  else s

/-- The duties at the loss of a link (R120 step 2, R124). -/
def State.loseDuty (s : State) (lost : Centre) : State :=
  let s := if (s.centre lost).duty = .handingOver then s.setDuty lost .standby else s
  if (s.centre lost.partner).duty = .handingOver then
    let s := (s.setDuty lost.partner .active).notify lost.partner.link .handoverCancelled
    if s.usable lost.partner then s.becomeUsable lost.partner else s
  else s

/-- What the offer controller does when a link becomes LOST, in the order of R120. -/
def State.lossOfLink (s : State) (lost : Centre) : State :=
  let s := s.cancelRings lost
  let s := s.loseDuty lost
  let s := s.fallback
  let s := s.eachRecord fun s r => if r.claimant = some lost then s.orphan r lost else s
  s.eachRecord fun s r => if r.state.unclaimed then s.loseUnclaimed r lost else s

/-! ### Health (R152 to R155) -/

/-- The health state of a score (R152). -/
def healthOf (score : Nat) : Health :=
  if score < 96 then .good
  else if score < 128 then .poor
  else if score < Config.lostScore then .failing
  else .lost

/-- A centre link takes a score short of 256, and the change of health is handed on (R152). -/
def State.takeScore (s : State) (c : Centre) (score : Nat) : State :=
  let old := (s.centre c).health
  (s.setCentre c { s.centre c with score := score, health := healthOf score }).healthChanged c old

/-- The silence timer is started (R153). -/
def State.startSilence (s : State) (c : Centre) : State :=
  s.setCentre c { s.centre c with silence := some (s.timer Config.silenceTime) }

/-- A LOST link recovers (R155). -/
def State.recover (s : State) (c : Centre) : State :=
  let s := s.setCentre c { s.centre c with score := 0, health := .good, recovery := 0 }
  let s := s.startSilence c
  let s := s.setLink c.link { s.link c.link with resync := true }
  s.healthChanged c .lost

/-- The health effect of a valid frame (R152, R153, R155). -/
def State.validFrame (s : State) (c : Centre) : State :=
  let k := s.centre c
  if k.health = .lost then
    if Config.recoveryFrames ≤ k.recovery + 1 then s.recover c
    else s.setCentre c { k with recovery := k.recovery + 1 }
  else (s.startSilence c).takeScore c (k.score - 1)

/-- Everything waiting or in transmission on a link is dropped (R154 step 2). -/
def LinkController.emptied (k : LinkController) : LinkController :=
  { k with queue := [], transmit := .idle, lostOffers := [] }

/-- Entry into LOST (R154). When the emptying drops the reply of RESTART, the warm restart begins there,
and the loss then finds nothing to act on (R165). A link already LOST is not entered again. -/
def State.enterLost (s : State) (c : Centre) : State :=
  let k := s.centre c
  if k.health = .lost then s
  else
    let s := s.setCentre c
      { k with score := Config.lostScore, health := .lost, recovery := 0, silence := none }
    let s := s.setLink c.link (s.link c.link).emptied
    if s.window = some c.link then s.warmRestart else s.lossOfLink c

/-- The health effect of a bad frame (R152, R155). -/
def State.badFrame (s : State) (c : Centre) : State :=
  let k := s.centre c
  if k.health = .lost then s.setCentre c { k with recovery := 0 }
  else if Config.lostScore ≤ k.score + Config.badFrameCost then s.enterLost c
  else s.takeScore c (k.score + Config.badFrameCost)

/-- The health effect of a frame on a link; link S is not judged (section 10.3). -/
def State.onCentre (s : State) (l : Link) (f : State → Centre → State) : State :=
  match l.centre? with
  | some c => f s c
  | none => s

/-! ### The receiver and the transmitter -/

def State.setReceive (s : State) (l : Link) (r : Receive) : State :=
  s.setLink l { s.link l with receive := r }

def Receive.inBreak : Receive → Bool
  | .brk _ => true
  | _ => false

def Receive.inFrame : Receive → Bool
  | .frame _ => true
  | _ => false

/-- The reply that opens the warm restart window (R165). -/
def restartReply : Message := .reply Command.restart .ok []

/-- The reply of RESTART still waits or is in transmission on a link (R165). -/
def LinkController.holdsRestartReply (k : LinkController) : Bool :=
  (k.queue.any fun e => e.msg = restartReply) ||
    match k.transmit with
    | .sending m _ => m = restartReply
    | .idle => false

/-- The message in transmission. -/
def Transmit.message? : Transmit → Option Message
  | .idle => none
  | .sending m _ => some m

/-- The end of a transmission that was the reply of RESTART ends the window; any other lets the
transmitter take the next entry (R159, R165). -/
def State.afterTransmission (s : State) (l : Link) (m : Message) : State :=
  if s.window = some l ∧ m = restartReply then s.warmRestart
  else s.setLink l ((s.link l).pump s.tick)

/-- A record is offered to the centre of a link. -/
def State.offeredOn (s : State) (l : Link) (id : CallId) : Bool :=
  match l.centre?, s.recordById id with
  | some c, some r => r.offered.has c
  | _, _ => false

/-- A link clear (R156): the frame in transmission is cut, CLEARED is set, and RESYNC too when the cut
frame was not a reply; the freed transmitter goes on. -/
def State.linkClear (s : State) (l : Link) : State :=
  let k := s.link l
  let cutNotice := match k.transmit.message? with
    | some m => !m.isReply
    | none => false
  let s := s.setLink l
    { k.cut (s.offeredOn l) with cleared := true, resync := k.resync || cutNotice }
  match k.transmit.message? with
  | some m => s.afterTransmission l m
  | none => s.setLink l ((s.link l).pump s.tick)

/-! ### The taking of a command (R80, R150, R151) -/

/-- The rights of R151. -/
inductive Right where
  | none | calls | maintain | configure
  deriving DecidableEq, Repr

/-- A link holds a right (R151). -/
def State.holds (s : State) (l : Link) : Right → Bool
  | .none => true
  | .calls => l ≠ .s
  | .maintain | .configure => l ≠ .s || s.key.taken

/-- The LOAD_DEFAULTED notice that waits for a link is placed by the first valid frame after the load
(R80). -/
def State.deliverReport (s : State) (l : Link) : State :=
  if s.load.isNone && s.reportPending l then
    let s := s.setReportPending l false
    match s.report with
    | some r => s.notify l (.loadDefaulted r)
    | none => s
  else s

/-- A valid frame arrives: the receiver returns to HUNT, and the frame's effect on health and the pending
load report come before its command (R80, R149, R150, R152). -/
def State.arrive (s : State) (l : Link) : State :=
  ((s.setReceive l .hunt).onCentre l State.validFrame).deliverReport l

/-- The refusal of the first two checks of R150: STARTING or RESTARTING, and LINK_RECOVERING. -/
def State.heldUp (s : State) (l : Link) (type : Byte) : Option ReplyCode :=
  if s.window.isSome then some .restarting
  else if type = Command.keepalive then none
  else if s.load.isSome then some .starting
  else if s.isLost l then some .linkRecovering
  else none

/-- A command refused with nothing after the code (R176). -/
def State.refuse (s : State) (l : Link) (type : Byte) (code : ReplyCode) : State := s.reply l type code []

/-- A command is taken: `read` is its body's fields, or nothing when the body's length is wrong, and
`act` does the value and state checks and the effect (R150). During a break no frame is received
(R156). -/
def State.command {α : Type} (s : State) (l : Link) (type : Byte) (right : Right) (read : Option α)
    (act : State → α → State) : State :=
  if (s.link l).receive.inBreak then s
  else
    let s := s.arrive l
    match s.heldUp l type with
    | some code => s.refuse l type code
    | none =>
      if s.holds l right then
        match read with
        | some x => act s x
        | none => s.refuse l type .badLength
      else s.refuse l type .notPermitted

/-- A command of a right that only centre links hold; its requester is a centre (R151). -/
def State.centreCommand {α : Type} (s : State) (l : Link) (type : Byte) (read : Option α)
    (act : State → Centre → α → State) : State :=
  s.command l type .calls read fun s x => s.onCentre l fun s c => act s c x

/-! ### Bodies of fixed length -/

def readNone : List Byte → Option Unit
  | [] => some ()
  | _ => none

def readByte : List Byte → Option Byte
  | [b] => some b
  | _ => none

def readBytes2 : List Byte → Option (Byte × Byte)
  | [a, b] => some (a, b)
  | _ => none

/-- A line byte above 63 is refused BAD_VALUE. -/
def State.withLine (s : State) (l : Link) (type : Byte) (b : Byte) (act : LineId → State) : State :=
  match lineOfNat b.toNat with
  | some n => act n
  | none => s.refuse l type .badValue

/-- A line that is not fitted is refused LINE_NOT_FITTED. -/
def State.withFitted (s : State) (l : Link) (type : Byte) (n : LineId) (act : State) : State :=
  if (s.line n).condition = .notFitted then s.refuse l type .lineNotFitted else act

end Sys2Proof.Machine
end

