-- ==== Sys2Proof/Machine/LineEvents.lean ====
section
/-! DEFINITION. The events at a line and its call: park and ring timers (R40, R44), identity bursts and
capture windows (R56, R57), the timers of a call record (R106 to R119), and the events of a line test
(R140 to R147). -/

namespace Sys2Proof.Machine

/-! ### Park and ring (R40, R44) -/

/-- PARK_TIMER_EXPIRY (R40). -/
def execParkTimerExpiry (n : LineId) (s : State) : Host.Outcome State Fault Refusal :=
  s.taking fun s =>
    match (s.line n).condition with
    | .parked (some t) _ since =>
      (s.setCondition n (.parked none true since)).notifyLine n (.handsetOff n (t.length / 1000))
    | _ => s

/-- RING_TIMER_EXPIRY (R44). -/
def execRingTimerExpiry (n : LineId) (s : State) : Host.Outcome State Fault Refusal :=
  s.taking fun s =>
    match (s.line n).condition with
    | .ringing _ c ch => (s.stopRing n ch).notify c.link (.ringUnanswered n)
    | _ => s

/-! ### Capture (R56, R57) -/

/-- IDENTITY_BURST (R56): only a valid burst on the line the receiver listens to ends a capture. -/
def execIdentityBurst (n : LineId) (bytes : List Byte) (heardStart : Bool) (s : State) :
    Host.Outcome State Fault Refusal :=
  s.taking fun s =>
    match readBurst bytes heardStart with
    | some b => if (s.receiver n.group).listening = some n then s.endCapture n (.received b) else s
    | none => s

/-- WINDOW_TIMER_EXPIRY (R57). -/
def execWindowTimerExpiry (n : LineId) (s : State) : Host.Outcome State Fault Refusal :=
  s.taking fun s =>
    match s.capture n with
    | some _ => s.endCapture n .notReceived
    | none => s

/-! ### The timers of a call record (R106) -/

/-- The escalation timer of a record expires (R109). -/
def State.endEscalation (s : State) (r : CallRecord) : State :=
  match r.escalation with
  | none => s
  | some _ =>
    let s := s.updRecord r.id fun r => { r with escalation := none }
    match r.state with
    | .waiting | .offered => s.escalate r
    | _ => s

/-- The overdue timer of a record expires (R110). -/
def State.endOverdue (s : State) (r : CallRecord) : State :=
  match r.overdueTimer with
  | none => s
  | some _ =>
    let s := s.updRecord r.id fun r => { r with overdueTimer := none }
    if r.state.unclaimed then s.markOverdue r else s

/-- The transfer timer of a record expires (R119). -/
def State.endTransferTimer (s : State) (r : CallRecord) : State :=
  match r.transferTimer with
  | none => s
  | some _ =>
    let s := s.updRecord r.id fun r => { r with transferTimer := none }
    if r.state = .offered then s.transferTimedOut r else s

/-- The long-call flag is set and LONG_CALL placed for the claimant (R117). -/
def State.tellLongCall (s : State) (r : CallRecord) : State :=
  let s := s.updRecord r.id fun r => { r with longCall := true, longWaits := false }
  match r.claimant with
  | some c =>
    s.notify c.link
      (.longCall r.id r.line (seconds (ticksSince s.tick (r.connect.getD r.arrival))))
  | none => s

/-- The long-call timer of a record expires (R117). -/
def State.endLongCallTimer (s : State) (r : CallRecord) : State :=
  match r.longTimer with
  | none => s
  | some _ =>
    let s := s.updRecord r.id fun r => { r with longTimer := none }
    match r.state with
    | .connected => if r.longCall then s else s.tellLongCall r
    | .held => s.updRecord r.id fun r => { r with longWaits := true }
    | _ => s

/-- An event at the record of a call id. -/
def State.atRecord (s : State) (id : CallId) (f : State → CallRecord → State) : State :=
  match s.recordById id with
  | some r => f s r
  | none => s

/-- ESCALATION_TIMER_EXPIRY (R109). -/
def execEscalationTimerExpiry (id : CallId) (s : State) : Host.Outcome State Fault Refusal :=
  s.taking fun s => s.atRecord id State.endEscalation

/-- OVERDUE_TIMER_EXPIRY (R110). -/
def execOverdueTimerExpiry (id : CallId) (s : State) : Host.Outcome State Fault Refusal :=
  s.taking fun s => s.atRecord id State.endOverdue

/-- TRANSFER_TIMER_EXPIRY (R119). -/
def execTransferTimerExpiry (id : CallId) (s : State) : Host.Outcome State Fault Refusal :=
  s.taking fun s => s.atRecord id State.endTransferTimer

/-- LONG_CALL_TIMER_EXPIRY (R117). -/
def execLongCallTimerExpiry (id : CallId) (s : State) : Host.Outcome State Fault Refusal :=
  s.taking fun s => s.atRecord id State.endLongCallTimer

/-! ### Tests (R140, R141, R144, R147) -/

/-- The phase a dwell leads to (R140, R141). -/
def afterDwell : TestPhase → Option TestPhase
  | .dwell => some .measureAfter
  | .sourceDwell => some .measure
  | _ => none

/-- A dwell timer expires: the next measurement order of the test is made ready (R140, R141). -/
def State.endDwell (s : State) (g : GroupId) : State :=
  match s.test g with
  | none => s
  | some t =>
    match t.dwell, afterDwell t.phase with
    | some _, some phase =>
      (s.updTest g { t with dwell := none, phase := phase, order := .waiting }).arbitrate g
    | _, _ => s

/-- DWELL_TIMER_EXPIRY (R140, R141). -/
def execDwellTimerExpiry (g : GroupId) (s : State) : Host.Outcome State Fault Refusal :=
  s.taking fun s => s.endDwell g

/-- TEST_TIME_LIMIT (R147). -/
def execTestTimeLimit (g : GroupId) (s : State) : Host.Outcome State Fault Refusal :=
  s.taking fun s => s.endTest g (.aborted .noSample)

/-- HOOK_SENSE (R144): for a line that is not under test it is ignored. -/
def execHookSense (n : LineId) (s : State) : Host.Outcome State Fault Refusal :=
  s.taking fun s =>
    match s.test n.group with
    | some t => if t.line = n then s.endTest n.group (.aborted .call) else s
    | none => s

end Sys2Proof.Machine
end

