-- ==== Sys2Proof/Machine/CallCommands.lean ====
section
/-! DEFINITION. The commands of the CALLS right (R42, R45, R96, R111 to R125). Every one is a centre link's:
link S never holds the right (R151). -/

namespace Sys2Proof.Machine

/-! ### Finding a call (R98) -/

/-- The three outcomes of the lookup of a call id (R98). -/
inductive Lookup where
  | live (r : CallRecord)
  | gone
  | nothing
  deriving DecidableEq, Repr

/-- The lookup of a call id; 0 finds nothing (R98). -/
def State.lookup (s : State) (id : Byte) : Lookup :=
  if id = 0 then .nothing
  else
    match s.recordById id.toFin with
    | some r => .live r
    | none => if s.abandoned.any (·.id = id.toFin) then .gone else .nothing

/-- A command on a live call; an abandoned id is answered ABANDONED, an unknown one NO_SUCH_CALL
(R98). -/
def State.withCall (s : State) (l : Link) (type : Byte) (id : Byte) (act : CallRecord → State) : State :=
  match s.lookup id with
  | .live r => act r
  | .gone => s.refuse l type .abandoned
  | .nothing => s.refuse l type .noSuchCall

/-- A command on a call that its requester must claim (R114). -/
def State.withClaimed (s : State) (c : Centre) (type : Byte) (id : Byte) (act : CallRecord → State) :
    State :=
  s.withCall c.link type id fun r =>
    if r.claimant = some c then act r else s.refuse c.link type .notClaimant

/-! ### Claiming (R111 to R113) -/

/-- The fields of a record that a taken claim sets (R111). -/
def CallRecord.claimed (r : CallRecord) (c : Centre) (ch : ChannelId) (now : Tick) (long : Timer) :
    CallRecord :=
  { r with
    state := .connected, claimant := some c, channel := some ch, offered := .empty, origin := none,
    flags := { r.flags with orphan := false }, connect := some now, longCall := false,
    longTimer := some long, longWaits := false, escalation := none, overdueTimer := none,
    transferTimer := none, claimedOnce := true }

/-- CALL_TAKEN to each link other than the claimant that the record was offered to or that is its transfer
origin; the claimant leaves the set with no follow-up (R112, R161). -/
def State.tellTaken (s : State) (r : CallRecord) (c : Centre) : State :=
  let n : Notice := .callTaken r.id r.line c
  let s := if r.offered.has c.partner then s.leave c.partner r.id (some n) else s
  let s := if r.origin = some c then s else s.notifyOrigin r n
  s.leave c r.id none

/-- A claim is taken on an allocated channel (R111, R112). -/
def State.takeClaim (s : State) (r : CallRecord) (c : Centre) (ch : ChannelId) (type : Byte)
    (fields : List Byte) : State :=
  let s := s.connectChannel ch r.line c r.id
  let long := s.timerFromTick (s.timers.longCall * 1000)
  let s := s.updRecord r.id fun r => r.claimed c ch s.tick long
  let s := s.reply c.link type .ok fields
  (s.tellTaken r c).retone r.line

/-- The checks of CLAIM on a live record, in the order of R111. -/
def State.claimRecord (s : State) (c : Centre) (r : CallRecord) : State :=
  let no := s.refuse c.link Command.claim
  if (s.centre c).duty = .handingOver then no .handoverActive
  else
    match r.claimant with
    | some holder =>
      if holder = c then no .wrongState
      else s.reply c.link Command.claim .claimLost [byte (centreCode holder)]
    | none =>
      if !r.offered.has c then no .notOffered
      else
        match s.grantedChannel c with
        | some ch => s.takeClaim r c ch Command.claim [byte ch.val]
        | none => no .noChannel

/-- CLAIM (R111). -/
def execClaim (l : Link) (body : List Byte) (s : State) : Host.Outcome State Fault Refusal :=
  s.taking fun s =>
    s.centreCommand l Command.claim (readByte body) fun s c id =>
      s.withCall l Command.claim id fun r => s.claimRecord c r

/-- The first record in register order that is offered to a link (R113). -/
def State.firstOffered (s : State) (c : Centre) : Option CallRecord :=
  s.registerOrder.find? fun r => r.offered.has c

/-- The effect of ANSWER_NEXT (R113). -/
def State.answerNext (s : State) (c : Centre) : State :=
  let no := s.refuse c.link Command.answerNext
  if (s.centre c).duty = .handingOver then no .handoverActive
  else
    match s.firstOffered c with
    | none => no .noCallWaiting
    | some r =>
      match s.grantedChannel c with
      | some ch => s.takeClaim r c ch Command.answerNext [callIdByte r.id, byte ch.val]
      | none => no .noChannel

/-- ANSWER_NEXT (R113). -/
def execAnswerNext (l : Link) (body : List Byte) (s : State) : Host.Outcome State Fault Refusal :=
  s.taking fun s =>
    s.centreCommand l Command.answerNext (readNone body) fun s c _ => s.answerNext c

/-! ### Connected calls (R114 to R116) -/

/-- HOLD taken: the channel is freed and the record becomes HELD (R114). -/
def State.holdCall (s : State) (c : Centre) (r : CallRecord) : State :=
  let s := s.freeHeld r.channel
  let s := s.updRecord r.id fun r => { r with state := .held, channel := none }
  (s.reply c.link Command.hold .ok []).retone r.line

/-- HOLD (R114). -/
def execHold (l : Link) (body : List Byte) (s : State) : Host.Outcome State Fault Refusal :=
  s.taking fun s =>
    s.centreCommand l Command.hold (readByte body) fun s c id =>
      s.withClaimed c Command.hold id fun r =>
        if r.state = .connected then s.holdCall c r else s.refuse l Command.hold .wrongState

/-- RETRIEVE taken on an allocated channel; a long-call notice that waited is sent (R115). -/
def State.retrieveCall (s : State) (c : Centre) (r : CallRecord) (ch : ChannelId) : State :=
  let s := s.connectChannel ch r.line c r.id
  let s := s.updRecord r.id fun r => { r with state := .connected, channel := some ch }
  let s := (s.reply c.link Command.retrieve .ok [byte ch.val]).retone r.line
  if r.longWaits && !r.longCall then s.tellLongCall r else s

/-- RETRIEVE (R115). -/
def execRetrieve (l : Link) (body : List Byte) (s : State) : Host.Outcome State Fault Refusal :=
  s.taking fun s =>
    s.centreCommand l Command.retrieve (readByte body) fun s c id =>
      s.withClaimed c Command.retrieve id fun r =>
        if r.state = .held then
          match s.grantedChannel c with
          | some ch => s.retrieveCall c r ch
          | none => s.refuse l Command.retrieve .noChannel
        else s.refuse l Command.retrieve .wrongState

/-- A claimed record is CONNECTED or HELD (R116, R118). -/
def CallState.spoken : CallState → Bool
  | .connected | .held => true
  | _ => false

/-- RELEASE (R116). -/
def execRelease (l : Link) (body : List Byte) (s : State) : Host.Outcome State Fault Refusal :=
  s.taking fun s =>
    s.centreCommand l Command.release (readByte body) fun s c id =>
      s.withClaimed c Command.release id fun r =>
        if r.state.spoken then
          (s.refuse l Command.release .ok).endCall r .released s.parkedNow
        else s.refuse l Command.release .wrongState

/-! ### Transfer (R118) -/

/-- TRANSFER taken, in the steps of R118. -/
def State.transferCall (s : State) (c : Centre) (r : CallRecord) : State :=
  let s := s.freeHeld r.channel
  let s := s.updRecord r.id fun r =>
    { r with
      channel := none, origin := some c, claimant := none, longTimer := none, longWaits := false,
      offered := .empty }
  let s := s.offerTo r.id c.partner
  let s := s.updRecord r.id fun r =>
    { r with transferTimer := some (s.timer (s.timers.escalate * 1000)) }
  (s.reply c.link Command.transfer .ok []).checkHandover c

/-- TRANSFER (R118). -/
def execTransfer (l : Link) (body : List Byte) (s : State) : Host.Outcome State Fault Refusal :=
  s.taking fun s =>
    s.centreCommand l Command.transfer (readByte body) fun s c id =>
      s.withClaimed c Command.transfer id fun r =>
        if !r.state.spoken then s.refuse l Command.transfer .wrongState
        else if !s.usable c.partner then s.refuse l Command.transfer .partnerUnavailable
        else s.transferCall c r

/-! ### Recall (R42, R45) -/

/-- A LINE_BUSY refusal carries a call id (R176). -/
def State.refuseBusy (s : State) (l : Link) (type : Byte) (id : CallId) : State :=
  s.reply l type .lineBusy [callIdByte id]

/-- RING_POST taken on a reserved channel (R42). -/
def State.ringLine (s : State) (c : Centre) (n : LineId) (ch : ChannelId) : State :=
  let s := s.setChannel ch (.reserved n c)
  let s := s.enter n (.ringing (s.timer (s.timers.ring * 1000)) c ch)
  (s.give (.ring n true)).reply c.link Command.ringPost .ok [byte ch.val]

/-- The state checks of RING_POST, in the order of R42. -/
def State.ringPost (s : State) (c : Centre) (n : LineId) : State :=
  let no := s.refuse c.link Command.ringPost
  match (s.line n).condition with
  | .notFitted => no .lineNotFitted
  | .idle =>
    if s.power = .reserve then no .powerLimit
    else
      match s.grantedChannel c with
      | some ch => s.ringLine c n ch
      | none => no .noChannel
  | _ => s.refuseBusy c.link Command.ringPost (s.busyId n)

/-- RING_POST (R42). -/
def execRingPost (l : Link) (body : List Byte) (s : State) : Host.Outcome State Fault Refusal :=
  s.taking fun s =>
    s.centreCommand l Command.ringPost (readByte body) fun s c b =>
      s.withLine l Command.ringPost b fun n => s.ringPost c n

/-- The state checks and the effect of CANCEL_RING, in the order of R45. -/
def State.cancelRing (s : State) (c : Centre) (n : LineId) : State :=
  let no := s.refuse c.link Command.cancelRing
  match (s.line n).condition with
  | .notFitted => no .lineNotFitted
  | .ringing _ link ch =>
    if link = c then (s.stopRing n ch).reply c.link Command.cancelRing .ok []
    else no .notClaimant
  | _ => no .wrongState

/-- CANCEL_RING (R45). -/
def execCancelRing (l : Link) (body : List Byte) (s : State) : Host.Outcome State Fault Refusal :=
  s.taking fun s =>
    s.centreCommand l Command.cancelRing (readByte body) fun s c b =>
      s.withLine l Command.cancelRing b fun n => s.cancelRing c n

/-! ### The abandoned list (R96) -/

/-- The checks and the effect of DISMISS, in the order of R96. -/
def State.dismiss (s : State) (c : Centre) (id : Byte) : State :=
  let no := s.refuse c.link Command.dismiss
  if id = 0 then no .badValue
  else if s.abandoned.any (·.id = id.toFin) then
    (s.setAbandoned (s.abandoned.filter fun e => e.id ≠ id.toFin)).reply c.link Command.dismiss .ok []
  else if (s.recordById id.toFin).isSome then no .wrongState
  else no .noSuchCall

/-- DISMISS (R96). -/
def execDismiss (l : Link) (body : List Byte) (s : State) : Host.Outcome State Fault Refusal :=
  s.taking fun s =>
    s.centreCommand l Command.dismiss (readByte body) fun s c id => s.dismiss c id

/-! ### Duty (R122, R125) -/

/-- HANDOVER_REQUEST taken, in the steps of R122. -/
def State.takeHandover (s : State) (c : Centre) : State :=
  let s := s.setDuty c .handingOver
  let s := s.reply c.link Command.handoverRequest .ok []
  let s := s.eachRecord fun s r =>
    if r.state.unclaimed && r.offered.has c then
      let s := s.updRecord r.id fun r => { r with offered := r.offered.remove c }
      let s := if r.offered.has c.partner then s else s.offerTo r.id c.partner
      s.withdrawFrom r c .handover
    else s
  s.checkHandover c

/-- The checks of HANDOVER_REQUEST (R122). -/
def State.handoverRequest (s : State) (c : Centre) : State :=
  let no := s.refuse c.link Command.handoverRequest
  match (s.centre c).duty with
  | .handingOver => no .handoverActive
  | .standby => no .wrongState
  | .active => if s.usable c.partner then s.takeHandover c else no .partnerUnavailable

/-- HANDOVER_REQUEST (R122). -/
def execHandoverRequest (l : Link) (body : List Byte) (s : State) : Host.Outcome State Fault Refusal :=
  s.taking fun s =>
    s.centreCommand l Command.handoverRequest (readNone body) fun s c _ => s.handoverRequest c

/-- The checks and the effect of RESUME (R125). -/
def State.resumeDuty (s : State) (c : Centre) : State :=
  match (s.centre c).duty with
  | .handingOver => s.refuse c.link Command.resume .handoverActive
  | .active => s.reply c.link Command.resume .ok []
  | .standby =>
    let s := (s.setDuty c .active).reply c.link Command.resume .ok []
    let s := if s.usable c then s.becomeUsable c else s
    s.fallback

/-- RESUME (R125). -/
def execResume (l : Link) (body : List Byte) (s : State) : Host.Outcome State Fault Refusal :=
  s.taking fun s =>
    s.centreCommand l Command.resume (readNone body) fun s c _ => s.resumeDuty c

end Sys2Proof.Machine
end

