-- ==== Sys2Proof/Machine/LinkEvents.lean ====
section
/-! DEFINITION. The events of a link controller: bytes and bad frames (R149), the frame and silence timers
(R149, R153), breaks (R156), the end of a transmission (R159) and a frame that names no command (R150). -/

namespace Sys2Proof.Machine

/-- SYNC_BYTE_RECEIVED (R149): in HUNT the byte 0xA5 begins a frame; in FRAME it is data, and in BREAK it
is ignored. -/
def execSyncByteReceived (l : Link) (s : State) : Host.Outcome State Fault Refusal :=
  s.taking fun s =>
    match (s.link l).receive with
    | .hunt => s.setReceive l (.frame (s.timer Config.frameTime))
    | .frame _ | .brk _ => s

/-- A frame is judged bad: the receiver returns to HUNT, and the frame counts for health (R149, R152). -/
def State.dropBadFrame (s : State) (l : Link) : State :=
  (s.setReceive l .hunt).onCentre l State.badFrame

/-- FRAME_BAD (R149). -/
def execFrameBad (l : Link) (bytes : List Byte) (s : State) : Host.Outcome State Fault Refusal :=
  s.taking fun s =>
    if !(s.link l).receive.inBreak && judgeFrame bytes = .bad then s.dropBadFrame l else s

/-- FRAME_TIMER_EXPIRY (R149). -/
def execFrameTimerExpiry (l : Link) (s : State) : Host.Outcome State Fault Refusal :=
  s.taking fun s => if (s.link l).receive.inFrame then s.dropBadFrame l else s

/-- SILENCE_TIMER_EXPIRY (R153). -/
def execSilenceTimerExpiry (c : Centre) (s : State) : Host.Outcome State Fault Refusal :=
  s.taking fun s => if (s.centre c).silence.isSome then s.enterLost c else s

/-- A break recognised on a LOST link zeroes its recovery counter (R155, R156). -/
def State.zeroRecovery (s : State) (c : Centre) : State :=
  if (s.centre c).health = .lost then s.setCentre c { s.centre c with recovery := 0 } else s

/-- BREAK_RECOGNISED (R156): a frame in progress is dropped unjudged. -/
def execBreakRecognised (l : Link) (s : State) : Host.Outcome State Fault Refusal :=
  s.taking fun s =>
    if (s.link l).receive.inBreak then s
    else (s.setReceive l (.brk false)).onCentre l State.zeroRecovery

/-- BREAK_LONG (R156): a break on link A or B has lasted 2000 ms. -/
def execBreakLong (c : Centre) (s : State) : Host.Outcome State Fault Refusal :=
  s.taking fun s =>
    match (s.link c.link).receive with
    | .brk false => (s.setReceive c.link (.brk true)).enterLost c
    | _ => s

/-- BREAK_END (R156): a link clear, unless the break was a long one. -/
def execBreakEnd (l : Link) (s : State) : Host.Outcome State Fault Refusal :=
  s.taking fun s =>
    match (s.link l).receive with
    | .brk true => s.setReceive l .hunt
    | .brk false => (s.setReceive l .hunt).linkClear l
    | _ => s

/-- TRANSMISSION_COMPLETE (R159). -/
def execTransmissionComplete (l : Link) (s : State) : Host.Outcome State Fault Refusal :=
  s.taking fun s =>
    match (s.link l).transmit with
    | .sending m _ => (s.setLink l { s.link l with transmit := .idle }).afterTransmission l m
    | .idle => s

/-- UNKNOWN_COMMAND (R150 step 3). A TYPE that names a command is not this event. -/
def execUnknownCommand (l : Link) (type : Byte) (body : List Byte) (s : State) :
    Host.Outcome State Fault Refusal :=
  s.taking fun s =>
    if Command.named type then s
    else s.command l type .none (some body) fun s _ => s.refuse l type .unknownCommand

end Sys2Proof.Machine
end

