-- ==== Sys2Proof/Machine/Query.lean ====
section
/-! DEFINITION. The commands that need no right: KEEPALIVE, the lists, LINE_STATUS, the reads and SET_WATCH
(R69, R99 to R101, R163, R164, R167). -/

namespace Sys2Proof.Machine

/-! ### KEEPALIVE (R163) -/

/-- The health and duty bytes of a link, NONE for link S (section 12.3). -/
def State.healthDutyBytes (s : State) (l : Link) : List Byte :=
  match l.centre? with
  | some c => [byte (s.centre c).health.code, byte (s.centre c).duty.code]
  | none => [0xFF#8, 0xFF#8]

/-- The fields of the KEEPALIVE reply (R163). -/
def State.keepaliveFields (s : State) (l : Link) : List Byte :=
  s.healthDutyBytes l ++
    [byte s.power.code, byte s.records.length, byte s.overflow.length, byte s.abandoned.length,
     keepaliveFlags (s.link l).resync (s.link l).cleared]

/-- KEEPALIVE taken: CLEARED is cleared as the reply that carries it is placed (R163). -/
def State.takeKeepalive (s : State) (l : Link) : State :=
  let fields := s.keepaliveFields l
  (s.setLink l { s.link l with cleared := false }).reply l Command.keepalive .ok fields

/-- KEEPALIVE (R163). -/
def execKeepalive (l : Link) (body : List Byte) (s : State) : Host.Outcome State Fault Refusal :=
  s.taking fun s =>
    s.command l Command.keepalive .none (readNone body) fun s _ => s.takeKeepalive l

/-! ### LIST_CALLS and LIST_ABANDONED (R99 to R101) -/

/-- The channel byte, 0xFF when absent (R177). -/
def channelByte (ch : Option ChannelId) : Byte :=
  match ch with
  | some ch => byte ch.val
  | none => 0xFF#8

/-- A call summary (R100, section 12.3). -/
def CallRecord.summary (r : CallRecord) (now : Tick) : List Byte :=
  [callIdByte r.id, byte r.line.val, byte r.state.code, byte r.category.code,
   callFlagsByte r.flags r.longCall r.origin.isSome, claimantByte r.claimant r.offered,
   channelByte r.channel] ++ bytesHeld (seconds (ticksSince now r.arrival))

/-- An abandoned entry as it is listed (R101, section 12.3). -/
def AbandonedEntry.listing (e : AbandonedEntry) (now : Tick) : List Byte :=
  [callIdByte e.id, byte e.line.val, byte e.category.code, abandonedByte e.offered e.orphan]
    ++ bytesHeld (seconds (ticksSince now e.arrival)) ++ bytesHeld (seconds (ticksSince now e.ended))

/-- The six positions from a start on, fewer where the list ends (R99, R101). -/
def page {α : Type} (xs : List α) (start : Nat) : List α := (xs.drop start).take 6

/-- The fields of the LIST_CALLS reply (R99). -/
def State.listCallsFields (s : State) (start : Byte) : List Byte :=
  let shown := page s.registerOrder start.toNat
  [byte s.records.length, byte s.overflow.length, byte shown.length]
    ++ shown.flatMap (·.summary s.tick)

/-- LIST_CALLS taken: start 0 clears RESYNC (R99, R162). -/
def State.takeListCalls (s : State) (l : Link) (start : Byte) : State :=
  let fields := s.listCallsFields start
  let s := if start = 0 then s.setLink l { s.link l with resync := false } else s
  s.reply l Command.listCalls .ok fields

/-- LIST_CALLS (R99). -/
def execListCalls (l : Link) (body : List Byte) (s : State) : Host.Outcome State Fault Refusal :=
  s.taking fun s =>
    s.command l Command.listCalls .none (readByte body) fun s start => s.takeListCalls l start

/-- The fields of the LIST_ABANDONED reply (R101). -/
def State.listAbandonedFields (s : State) (start : Byte) : List Byte :=
  let shown := page s.abandoned start.toNat
  [byte s.abandoned.length, flagBit s.overflowed 0, byte shown.length]
    ++ shown.flatMap (·.listing s.tick)

/-- LIST_ABANDONED (R101). -/
def execListAbandoned (l : Link) (body : List Byte) (s : State) : Host.Outcome State Fault Refusal :=
  s.taking fun s =>
    s.command l Command.listAbandoned .none (readByte body) fun s start =>
      s.reply l Command.listAbandoned .ok (s.listAbandonedFields start)

/-! ### LINE_STATUS (R33, R167) -/

/-- The ringing link and the milliseconds left on the ring timer, when RINGING (R33). -/
def ringFields (k : Condition) (clock : Nat) : List Byte :=
  match k with
  | .ringing t c _ =>
    optionalField 1 (some [byte (centreCode c)]) ++ optionalField 4 (some (bytes4 (t.left clock)))
  | _ => optionalField 1 none ++ optionalField 4 none

/-- The four bytes of a time parked in milliseconds (R33, R177). From 2^32 on, which the four bytes cannot
hold, they are a free value (DESIGN CHOICE, assumption 37). -/
def parkBytes (ms : Nat) : List Byte :=
  bytes4 (if ms < 2 ^ 32 then ms else (Config.longPark ms).toNat)

/-- The milliseconds since the park tick, when PARKED (R33). -/
def parkField (k : Condition) (now : Tick) : List Byte :=
  match k with
  | .parked _ _ since => optionalField 4 (some (parkBytes (10 * ticksSince now since)))
  | _ => optionalField 4 none

/-- The classifier fields of R17, in its order. -/
def Classifier.fields (k : Classifier) : List Byte :=
  [byte k.confirmed.code] ++ optionalField 1 (k.candidate.map fun c => [byte c.code])
    ++ [byte k.count] ++ bytes2 k.rTrack ++ optionalField 2 (k.rLast.map bytes2)
    ++ bytes2 k.marginal ++ [soleFlag k.leaky]

/-- The call id of a line's record, 0 when it has none (R33). -/
def State.lineCallId (s : State) (n : LineId) : CallId :=
  match s.recordOfLine n with
  | some r => r.id
  | none => 0

/-- The fields of the LINE_STATUS reply (R33, R167). -/
def State.lineStatusFields (s : State) (n : LineId) : List Byte :=
  let u := s.line n
  [byte u.condition.code] ++ optionalField 1 (u.condition.faultKind.map fun k => [byte k.code])
    ++ [callIdByte (s.lineCallId n), byte u.tone.code]
    ++ ringFields u.condition s.clock ++ parkField u.condition s.tick ++ (s.classifier n).fields

/-- LINE_STATUS (R167). -/
def execLineStatus (l : Link) (body : List Byte) (s : State) : Host.Outcome State Fault Refusal :=
  s.taking fun s =>
    s.command l Command.lineStatus .none (readByte body) fun s b =>
      s.withLine l Command.lineStatus b fun n =>
        s.reply l Command.lineStatus .ok (s.lineStatusFields n)

/-! ### The read commands (R69) -/

/-- A line entry in the layout of the WRITE_DIRECTORY body (section 12.3). -/
def Entry.bytes (e : Entry) (n : LineId) : List Byte :=
  [byte n.val, flagBit e.expected.isSome 0] ++ bytes3 (e.expected.getD 0).toNat
    ++ [e.sect] ++ bytes2 e.marker.toNat
    ++ [byte e.cway.code, byte (centreCode e.home), byte e.profile.val, byte e.naming.code]
    ++ labelField e.label

/-- The fields of the READ_DIRECTORY reply (R69, section 12.3). -/
def State.entryFields (s : State) (n : LineId) : List Byte :=
  let e := s.entry n
  entryFlagsByte e.inService e.defaulted (s.writePending (.line n)) :: e.bytes n

/-- READ_DIRECTORY (R69). -/
def execReadDirectory (l : Link) (body : List Byte) (s : State) : Host.Outcome State Fault Refusal :=
  s.taking fun s =>
    s.command l Command.readDirectory .none (readByte body) fun s b =>
      s.withLine l Command.readDirectory b fun n =>
        s.withFitted l Command.readDirectory n
          (s.reply l Command.readDirectory .ok (s.entryFields n))

/-- A profile in the layout of the WRITE_PROFILE body (section 12.3). -/
def profileBytes (p : ProfileId) (q : Profile) : List Byte :=
  [byte p.val] ++ bytes2 q.short ++ bytes2 q.offMax ++ bytes2 q.term ++ bytes2 q.leak
    ++ bytes2 q.idleHi ++ bytes2 q.opn ++ bytes2 q.hyst
    ++ [byte q.cOffhook, byte q.cIdle, byte q.cShort, byte q.cOpen, byte q.cForeign]

/-- The fields of the replies of READ_PROFILE and WRITE_PROFILE (R69, R72, section 12.3). -/
def State.profileFields (s : State) (p : ProfileId) : List Byte :=
  flagBit (s.writePending (.profile p)) 2 :: profileBytes p (s.profile p)

/-- READ_PROFILE (R69). -/
def execReadProfile (l : Link) (body : List Byte) (s : State) : Host.Outcome State Fault Refusal :=
  s.taking fun s =>
    s.command l Command.readProfile .none (readByte body) fun s b =>
      match profileOfNat b.toNat with
      | some p => s.reply l Command.readProfile .ok (s.profileFields p)
      | none => s.refuse l Command.readProfile .badValue

/-- The three settings of a group (R1, R73). -/
def GroupRecord.settings (r : GroupRecord) : List Byte :=
  [byte r.fitted.val, byte r.settle.code, soleFlag r.pathCheck]

/-- The fields of the READ_GROUP reply: those R1 lists, and WRITE_PENDING (R1, R69) in bit 0 of a last byte
of its own (DESIGN CHOICE, assumption 9). -/
def State.groupFields (s : State) (g : GroupId) : List Byte :=
  let r := s.group g
  r.settings ++ [byte r.health.code] ++ optionalField 2 (r.vf.map fun v => bytes2 v.toNat)
    ++ [byte r.discrepancyRun, byte r.agreementRun, byte r.probeCount,
        soleFlag (s.writePending (.group g))]

/-- READ_GROUP (R69). -/
def execReadGroup (l : Link) (body : List Byte) (s : State) : Host.Outcome State Fault Refusal :=
  s.taking fun s =>
    s.command l Command.readGroup .none (readByte body) fun s b =>
      match groupOfNat b.toNat with
      | some g => s.reply l Command.readGroup .ok (s.groupFields g)
      | none => s.refuse l Command.readGroup .badValue

/-! ### SET_WATCH (R164) -/

/-- The filter a SET_WATCH body gives, when every value is in range (R164). -/
def checkWatch (mode : Nat) (ranges : List WatchRange) : Option WatchFilter :=
  match watchOfNat mode with
  | some m =>
    if ranges.length ≤ 4 ∧ (∀ r ∈ ranges, r.low ≤ r.high) then some { mode := m, ranges := ranges }
    else none
  | none => none

/-- SET_WATCH (R164). -/
def execSetWatch (l : Link) (body : List Byte) (s : State) : Host.Outcome State Fault Refusal :=
  s.taking fun s =>
    s.command l Command.setWatch .none (readWatch body) fun s x =>
      match checkWatch x.1 x.2 with
      | some f => (s.setLink l { s.link l with watch := f }).reply l Command.setWatch .ok []
      | none => s.refuse l Command.setWatch .badValue

end Sys2Proof.Machine
end

