-- ==== Sys2Proof/Machine/Maintenance.lean ====
section
/-! DEFINITION. The commands of the MAINTAIN and CONFIGURE rights: SET_SERVICE and TEST_LINE (R47, R48,
R137), provisioning (R63, R70 to R74, R129) and RESTART (R165). -/

namespace Sys2Proof.Machine

/-! ### Service state (R47, R48) -/

/-- The entry's service state becomes IN or OUT, and its store write is queued (R47, R48). -/
def State.storeService (s : State) (n : LineId) (inService : Bool) : State :=
  (s.setEntry n { s.entry n with inService := inService }).queueWrite (.line n)

/-- SET_SERVICE(line, OUT) taken (R47). -/
def State.takeOut (s : State) (l : Link) (n : LineId) : State :=
  let s := s.reply l Command.setService .ok []
  ((s.enter n .outOfService).storeService n false).notifyCondition n

/-- The state checks of SET_SERVICE(line, OUT) (R47). -/
def State.serviceOut (s : State) (l : Link) (n : LineId) : State :=
  match (s.line n).condition with
  | .notFitted => s.refuse l Command.setService .lineNotFitted
  | .outOfService => s.reply l Command.setService .ok []
  | .idle | .fault _ | .parked _ _ _ =>
    if s.canWrite (.line n) then s.takeOut l n else s.refuse l Command.setService .storeBusy
  | .inCall | .queued | .ringing _ _ _ | .testing _ =>
    s.refuseBusy l Command.setService (s.busyId n)

/-- SET_SERVICE(line, IN) taken (R48). -/
def State.takeIn (s : State) (l : Link) (n : LineId) : State :=
  let s := s.reply l Command.setService .ok []
  (((s.storeService n true).resetClassifier n).enter n .idle).notifyCondition n

/-- The state checks of SET_SERVICE(line, IN) (R48). -/
def State.serviceIn (s : State) (l : Link) (n : LineId) : State :=
  match (s.line n).condition with
  | .notFitted => s.refuse l Command.setService .lineNotFitted
  | .testing _ => s.refuseBusy l Command.setService 0
  | .outOfService =>
    if s.canWrite (.line n) then s.takeIn l n else s.refuse l Command.setService .storeBusy
  | .idle | .fault _ | .parked _ _ _ | .inCall | .queued | .ringing _ _ _ =>
    s.reply l Command.setService .ok []

/-- SET_SERVICE (R47, R48): the service byte is 0 for IN and 1 for OUT (R177). -/
def State.setService (s : State) (l : Link) (body : List Byte) : State :=
  s.command l Command.setService .maintain (readBytes2 body) fun s x =>
    s.withLine l Command.setService x.1 fun n =>
      if x.2 = 0 then s.serviceIn l n
      else if x.2 = 1 then s.serviceOut l n
      else s.refuse l Command.setService .badValue

/-- SET_SERVICE_OUT (R47). -/
def execSetServiceOut (l : Link) (body : List Byte) (s : State) : Host.Outcome State Fault Refusal :=
  s.taking fun s => s.setService l body

/-- SET_SERVICE_IN (R48). -/
def execSetServiceIn (l : Link) (body : List Byte) (s : State) : Host.Outcome State Fault Refusal :=
  s.taking fun s => s.setService l body

/-! ### TEST_LINE (R137, R138) -/

/-- The prior condition of a line a test may take: IDLE, FAULT or OUT_OF_SERVICE (R49, R137). -/
def Condition.prior? : Condition → Option PriorCondition
  | .idle => some .idle
  | .fault k => some (.fault k)
  | .outOfService => some .outOfService
  | _ => none

/-- The reason of a TEST_REFUSED, by its code in R176: SILENT group, group in PATH_FAULT, power state
(R137 steps 6 to 8). -/
def State.testRefusal (s : State) (n : LineId) (kind : TestKind) : Option Byte :=
  if (s.group n.group).health = .silent then some 0
  else if kind ≠ .pathCheck ∧ (s.group n.group).health = .pathFault then some 1
  else if s.power ≠ .normal then some 2
  else none

/-- The state checks of TEST_LINE, in the order of R137, and its taking (R138). -/
def State.testLine (s : State) (l : Link) (n : LineId) (kind : TestKind) : State :=
  match (s.line n).condition.prior? with
  | none => s.refuseBusy l Command.testLine (s.busyId n)
  | some prior =>
    match s.testRefusal n kind with
    | some reason => s.reply l Command.testLine .testRefused [reason]
    | none =>
      if (s.test n.group).isSome then s.refuse l Command.testLine .testBusy
      else (s.startTest l n kind prior Command.testLine).arbitrate n.group

/-- TEST_LINE (R137). -/
def execTestLine (l : Link) (body : List Byte) (s : State) : Host.Outcome State Fault Refusal :=
  s.taking fun s =>
    s.command l Command.testLine .maintain (readBytes2 body) fun s x =>
      s.withLine l Command.testLine x.1 fun n =>
        match kindOfNat x.2.toNat with
        | some kind => s.withFitted l Command.testLine n (s.testLine l n kind)
        | none => s.refuse l Command.testLine .badValue

/-! ### WRITE_DIRECTORY (R70, R71) -/

/-- WRITE_DIRECTORY taken (R71). -/
def State.takeEntry (s : State) (l : Link) (n : LineId) (e : Entry) : State :=
  let old := s.entry n
  let s := s.setEntry n { e with inService := old.inService, defaulted := false }
  let s := if e.profile = old.profile then s else s.retrack n
  (s.queueWrite (.line n)).reply l Command.writeDirectory .ok []

/-- The state checks of WRITE_DIRECTORY, in the order of R70. -/
def State.writeEntry (s : State) (l : Link) (n : LineId) (e : Entry) : State :=
  let no := s.refuse l Command.writeDirectory
  match (s.line n).condition with
  | .notFitted => no .lineNotFitted
  | .outOfService =>
    if s.canWrite (.line n) then s.takeEntry l n e else no .storeBusy
  | _ => no .lineInService

/-- WRITE_DIRECTORY (R70). -/
def execWriteDirectory (l : Link) (body : List Byte) (s : State) : Host.Outcome State Fault Refusal :=
  s.taking fun s =>
    s.command l Command.writeDirectory .configure (readWriteDirectory body) fun s x =>
      match lineOfNat x.1, checkEntry x.2 with
      | some n, some e => s.writeEntry l n e
      | _, _ => s.refuse l Command.writeDirectory .badValue

/-! ### WRITE_PROFILE (R18, R19, R72) -/

/-- A profile is named by the entry of a line whose service state is IN (R19). -/
def State.profileInUse (s : State) (p : ProfileId) : Bool :=
  (List.finRange 64).any fun n => (s.entry n).inService && (s.entry n).profile = p

/-- WRITE_PROFILE taken: the lines that name the profile are changed as R19 states (R72). -/
def State.takeProfile (s : State) (l : Link) (p : ProfileId) (q : Profile) : State :=
  let s := s.setProfile p q
  let s := s.each ((List.finRange 64).filter fun n => (s.entry n).profile = p) State.retrack
  let s := s.queueWrite (.profile p)
  s.reply l Command.writeProfile .ok (s.profileFields p)

/-- The value and state checks of WRITE_PROFILE, in the order of R72. -/
def State.writeProfile (s : State) (l : Link) (p : ProfileId) (q : Profile) : State :=
  let no := s.refuse l Command.writeProfile
  if !profileRelated q then no .badValue
  else if s.profileInUse p then no .profileInUse
  else if s.canWrite (.profile p) then s.takeProfile l p (clampProfile q)
  else no .storeBusy

/-- WRITE_PROFILE (R72). -/
def execWriteProfile (l : Link) (body : List Byte) (s : State) : Host.Outcome State Fault Refusal :=
  s.taking fun s =>
    s.command l Command.writeProfile .configure (readWriteProfile body) fun s x =>
      match profileOfNat x.1 with
      | some p => s.writeProfile l p x.2
      | none => s.refuse l Command.writeProfile .badValue

/-! ### SET_GROUP (R2, R6, R50, R73) -/

/-- The settings a SET_GROUP gives. -/
structure GroupSettings where
  fitted : Fin 9
  settle : SettleMode
  pathCheck : Bool
  deriving DecidableEq, Repr

/-- The values of a SET_GROUP, when each is in range (R73). -/
def checkSettings (fitted settle check : Byte) : Option GroupSettings :=
  match settleOfNat settle.toNat, enableOfNat check.toNat with
  | some m, some on =>
    if h : fitted.toNat < 9 then some { fitted := ⟨fitted.toNat, h⟩, settle := m, pathCheck := on }
    else none
  | _, _ => none

/-- The lines of a group at positions from one count up to another. -/
def linesBetween (g : GroupId) (low high : Nat) : List LineId :=
  ((List.finRange 8).filter fun p => low ≤ p.val && p.val < high).map (lineAt g)

/-- A line that would lose fit is in another condition than OUT_OF_SERVICE (R73). -/
def State.refitBlocked (s : State) (g : GroupId) (f : Fin 9) : Bool :=
  (linesBetween g f.val (s.group g).fitted.val).any fun n =>
    (s.line n).condition ≠ .outOfService

/-- The lines whose fit changes (R50). -/
def State.refitLines (s : State) (g : GroupId) (f : Fin 9) : State :=
  let was := (s.group g).fitted
  let s := s.each (linesBetween g f.val was.val) fun s n => s.setCondition n .notFitted
  s.each (linesBetween g was.val f.val) fun s n =>
    (s.setEntry n { s.entry n with inService := false }).setCondition n .outOfService

/-- SET_GROUP taken (R2, R6, R50, R73). A path check that is chosen goes ahead with both its orders when
path checking is turned off while its first order still waits for the port (DESIGN CHOICE, assumption
34). -/
def State.takeSettings (s : State) (l : Link) (g : GroupId) (x : GroupSettings) : State :=
  let was := (s.group g).fitted
  let s := s.setGroup g { s.group g with settle := x.settle, pathCheck := x.pathCheck }
  let s := if x.fitted = was then s else (s.refitLines g x.fitted).refit g x.fitted
  let s := s.queueWrite (.group g)
  s.reply l Command.setGroup .ok (s.group g).settings

/-- The state checks of SET_GROUP, in the order of R73. -/
def State.writeSettings (s : State) (l : Link) (g : GroupId) (x : GroupSettings) : State :=
  if s.refitBlocked g x.fitted then s.refuse l Command.setGroup .lineInService
  else if s.canWrite (.group g) then s.takeSettings l g x
  else s.refuse l Command.setGroup .storeBusy

def readBytes4 : List Byte → Option (Byte × Byte × Byte × Byte)
  | [a, b, c, d] => some (a, b, c, d)
  | _ => none

/-- SET_GROUP (R73). -/
def execSetGroup (l : Link) (body : List Byte) (s : State) : Host.Outcome State Fault Refusal :=
  s.taking fun s =>
    s.command l Command.setGroup .configure (readBytes4 body) fun s x =>
      match groupOfNat x.1.toNat, checkSettings x.2.1 x.2.2.1 x.2.2.2 with
      | some g, some settings => s.writeSettings l g settings
      | _, _ => s.refuse l Command.setGroup .badValue

/-! ### SET_ACCEPTANCE (R63) -/

/-- The SET_ACCEPTANCE body: index, pattern, mask, enable. -/
def readAcceptance : List Byte → Option (Byte × RawAcceptance)
  | [i, p2, p1, p0, m2, m1, m0, e] =>
    some (i, { pattern := nat3 p2 p1 p0, mask := nat3 m2 m1 m0, enable := e.toNat })
  | _ => none

/-- The acceptance table as a reply carries it: the pattern, the mask and the enable of each of its four
entries (R62, R69). The layout is DEDUCED (assumption 39). -/
def acceptanceBytes (table : Vector Acceptance 4) : List Byte :=
  table.toList.flatMap fun e => bytes3 e.pattern.toNat ++ bytes3 e.mask.toNat ++ [flagBit e.enable 0]

/-- SET_ACCEPTANCE taken, or refused STORE_BUSY (R63). Its OK reply returns the working copy (R69). -/
def State.writeAcceptance (s : State) (l : Link) (i : Fin 4) (e : Acceptance) : State :=
  if s.canWrite .acceptance then
    let table := s.acceptance.set i e
    ({ s with acceptance := table }.queueWrite .acceptance).reply l Command.setAcceptance .ok
      (acceptanceBytes table)
  else s.refuse l Command.setAcceptance .storeBusy

/-- SET_ACCEPTANCE (R63). -/
def execSetAcceptance (l : Link) (body : List Byte) (s : State) : Host.Outcome State Fault Refusal :=
  s.taking fun s =>
    s.command l Command.setAcceptance .configure (readAcceptance body) fun s x =>
      match profileOfNat x.1.toNat, checkAcceptance x.2 with
      | some i, some e => s.writeAcceptance l i e
      | _, _ => s.refuse l Command.setAcceptance .badValue

/-! ### SET_CALL_TIMERS and SET_BEARER (R74, R129) -/

/-- The five timers as a reply carries them (R74). -/
def timersBytes (t : CallTimers) : List Byte :=
  bytes2 t.escalate ++ bytes2 t.overdue ++ bytes2 t.longCall ++ bytes2 t.parkNotice ++ bytes2 t.ring

/-- SET_CALL_TIMERS taken, or refused STORE_BUSY (R74). -/
def State.writeTimers (s : State) (l : Link) (t : CallTimers) : State :=
  if s.canWrite .timers then
    ({ s with timers := t }.queueWrite .timers).reply l Command.setCallTimers .ok (timersBytes t)
  else s.refuse l Command.setCallTimers .storeBusy

/-- SET_CALL_TIMERS (R74). -/
def execSetCallTimers (l : Link) (body : List Byte) (s : State) : Host.Outcome State Fault Refusal :=
  s.taking fun s =>
    s.command l Command.setCallTimers .configure (readCallTimers body) fun s t =>
      s.writeTimers l (clampTimers t)

/-- The two bearer limits, clamped to 1 to 6 (R129). -/
def clampBearer (a b : Byte) : Bearer := { limitA := clamp 1 6 a.toNat, limitB := clamp 1 6 b.toNat }

/-- SET_BEARER taken, or refused STORE_BUSY (R129). -/
def State.writeBearer (s : State) (l : Link) (b : Bearer) : State :=
  if s.canWrite .bearer then
    ({ s with bearer := b }.queueWrite .bearer).reply l Command.setBearer .ok
      [byte b.limitA, byte b.limitB]
  else s.refuse l Command.setBearer .storeBusy

/-- SET_BEARER (R129). -/
def execSetBearer (l : Link) (body : List Byte) (s : State) : Host.Outcome State Fault Refusal :=
  s.taking fun s =>
    s.command l Command.setBearer .configure (readBytes2 body) fun s x =>
      s.writeBearer l (clampBearer x.1 x.2)

/-! ### RESTART (R165) -/

/-- RESTART taken: its reply is placed and the window opens; a reply that the full queue has discarded
ends the window at once (R158, R165). -/
def State.takeRestart (s : State) (l : Link) : State :=
  let s := { s.reply l Command.restart .ok [] with window := some l }
  if (s.link l).holdsRestartReply then s else s.warmRestart

/-- RESTART (R165). -/
def execRestart (l : Link) (body : List Byte) (s : State) : Host.Outcome State Fault Refusal :=
  s.taking fun s =>
    s.command l Command.restart .configure (readNone body) fun s _ => s.takeRestart l

end Sys2Proof.Machine
end

