-- ==== Sys2Proof/Machine/ScanEvents.lean ====
section
/-! DEFINITION. The events of the line scanner: pass timers, ends of orders, probe delays (R4, R5, R7,
R14). -/

namespace Sys2Proof.Machine

/-- The order on a group's port ends at the front end's ready signal when it was placed in READY, and at
the end of its settle steps otherwise (R4, R5). -/
def PlacedOrder.inReady (o : PlacedOrder) : Bool := o.settle = .ready

/-- A pass timer expires: the next pass starts if the last one has ended (R7). -/
def State.endPassTimer (s : State) (g : GroupId) : State :=
  let r := s.group g
  match r.passTimer with
  | none => s
  | some _ =>
    let s := s.setGroup g { r with passTimer := none }
    if r.pass = .idleWait then (s.startPass g).arbitrate g else s

/-- A probe delay expires: a probe order is made ready (R14). -/
def State.endProbeDelay (s : State) (g : GroupId) : State :=
  let r := s.group g
  match r.probeDelay with
  | none => s
  | some _ =>
    (s.setGroup g { r with probeDelay := none, scanWaiting := some .probe }).arbitrate g

/-- PASS_TIMER_EXPIRY (R7). -/
def execPassTimerExpiry (g : GroupId) (s : State) : Host.Outcome State Fault Refusal :=
  s.taking fun s => s.endPassTimer g

/-- ORDER_READY (R5): the ready signal of an order that has already ended is ignored. -/
def execOrderReady (g : GroupId) (late : Bool) (vc ic : Code) (valid : Bool) (s : State) :
    Host.Outcome State Fault Refusal :=
  s.taking fun s =>
    match late, (s.group g).port with
    | false, some o => if o.inReady then s.endOrder g (measured vc ic valid) else s
    | _, _ => s

/-- ORDER_READY_TIMEOUT (R5). -/
def execOrderReadyTimeout (g : GroupId) (s : State) : Host.Outcome State Fault Refusal :=
  s.taking fun s =>
    match (s.group g).port with
    | some o => if o.inReady then s.endOrder g none else s
    | none => s

/-- FIXED_SETTLE_END (R4). -/
def execFixedSettleEnd (g : GroupId) (vc ic : Code) (valid : Bool) (s : State) :
    Host.Outcome State Fault Refusal :=
  s.taking fun s =>
    match (s.group g).port with
    | some o => if o.inReady then s else s.endOrder g (measured vc ic valid)
    | none => s

/-- PROBE_DELAY_EXPIRY (R14). -/
def execProbeDelayExpiry (g : GroupId) (s : State) : Host.Outcome State Fault Refusal :=
  s.taking fun s => s.endProbeDelay g

end Sys2Proof.Machine
end

