-- ==== Sys2Proof/Machine/Supply.lean ====
section
/-! DEFINITION. The commands of start-up, supply and store: COLD_START, the load reads, the cabinet inputs
and the store's write completions (R76, R168 to R173). -/

namespace Sys2Proof.Machine

/-! ### The supply monitor (R168, R169) -/

/-- The debounce period of an input (R168). -/
def debouncePeriod : Input → Nat
  | .mainsOk | .batteryLow => Config.supplyDebounce
  | .key => Config.keyDebounce

/-- An input stands at a level: its timer is started at the first departure from the taken value and
stopped at the first return to it (R168). -/
def State.takeLevel (s : State) (i : Input) (level : Bool) : State :=
  let k := s.input i
  let timer :=
    if level = k.taken then none
    else
      match k.debounce with
      | some t => some t
      | none => some (s.timer (debouncePeriod i))
  s.setInput i { k with level := level, debounce := timer }

/-- Every running test ends ABORTED_POWER (R145), those of several groups from group 0 to group 7 (DESIGN
CHOICE, assumption 44). -/
def State.abortTestsForPower (s : State) : State :=
  s.each (List.finRange 8) fun s g => s.endTest g (.aborted .power)

/-- The power state is formed afresh; a changed one is held and notified, and one that leaves NORMAL aborts
the running tests (R145, R169). -/
def State.formPower (s : State) : State :=
  let old := s.power
  let new := powerOf s.mainsOk.taken s.batteryLow.taken
  if new = old then s
  else
    let s := { s with power := new }.notifyAll
      (.powerState new old s.mainsOk.taken s.batteryLow.taken)
    if old = .normal then s.abortTestsForPower else s

/-- A debounce timer expires: the input's level becomes its taken value, and a supply input forms the power
state afresh (R168, R169). -/
def State.endDebounce (s : State) (i : Input) : State :=
  let k := s.input i
  match k.debounce with
  | none => s
  | some _ =>
    let s := s.setInput i { k with taken := k.level, debounce := none }
    match i with
    | .key => s
    | .mainsOk | .batteryLow => s.formPower

/-! ### The commands -/

/-- COLD_START (R170). -/
def execColdStart (mainsOk batteryLow key : Bool) (s : State) : Host.Outcome State Fault Refusal :=
  s.taking fun s => s.coldStart mainsOk batteryLow key

/-- STORE_READ_COMPLETION (R171, R78). -/
def execStoreReadCompletion (late : Bool) (report : ReadReport) (s : State) :
    Host.Outcome State Fault Refusal :=
  s.taking fun s =>
    match late, s.load with
    | false, some ld => s.endRead (judgeRead (Item.ofNumber ld.read) report)
    | _, _ => s

/-- STORE_READ_TIMEOUT (R171): the read ends as a failure. -/
def execStoreReadTimeout (s : State) : Host.Outcome State Fault Refusal :=
  s.taking fun s => s.endRead none

/-- INPUT_CHANGE (R168). -/
def execInputChange (i : Input) (level : Bool) (s : State) : Host.Outcome State Fault Refusal :=
  s.taking fun s => s.takeLevel i level

/-- DEBOUNCE_EXPIRY (R168). -/
def execDebounceExpiry (i : Input) (s : State) : Host.Outcome State Fault Refusal :=
  s.taking fun s => s.endDebounce i

/-- STORE_WRITE_COMPLETION (R76). -/
def execStoreWriteCompletion (late success : Bool) (s : State) : Host.Outcome State Fault Refusal :=
  s.taking fun s => if late then s else s.endWrite success

/-- STORE_WRITE_TIMEOUT (R76): the write ends as a failure. -/
def execStoreWriteTimeout (s : State) : Host.Outcome State Fault Refusal :=
  s.taking fun s => s.endWrite false

end Sys2Proof.Machine
end

