-- ==== Sys2Proof/Machine/Dispatch.lean ====
section
/-! DEFINITION. The dispatch of a command to its meaning, one arm per row of the opcode table. -/

namespace Sys2Proof.Machine

def exec (i : Instr) (s : State) : Host.Outcome State Fault Refusal :=
  match i with
  | .coldStart mainsOk batteryLow key => Sys2Proof.Machine.execColdStart mainsOk batteryLow key s
  | .storeReadCompletion late report => Sys2Proof.Machine.execStoreReadCompletion late report s
  | .storeReadTimeout => Sys2Proof.Machine.execStoreReadTimeout s
  | .inputChange input level => Sys2Proof.Machine.execInputChange input level s
  | .debounceExpiry input => Sys2Proof.Machine.execDebounceExpiry input s
  | .passTimerExpiry g => Sys2Proof.Machine.execPassTimerExpiry g s
  | .orderReady g late vc ic valid => Sys2Proof.Machine.execOrderReady g late vc ic valid s
  | .orderReadyTimeout g => Sys2Proof.Machine.execOrderReadyTimeout g s
  | .fixedSettleEnd g vc ic valid => Sys2Proof.Machine.execFixedSettleEnd g vc ic valid s
  | .probeDelayExpiry g => Sys2Proof.Machine.execProbeDelayExpiry g s
  | .parkTimerExpiry n => Sys2Proof.Machine.execParkTimerExpiry n s
  | .ringTimerExpiry n => Sys2Proof.Machine.execRingTimerExpiry n s
  | .identityBurst n bytes heardStart => Sys2Proof.Machine.execIdentityBurst n bytes heardStart s
  | .windowTimerExpiry n => Sys2Proof.Machine.execWindowTimerExpiry n s
  | .escalationTimerExpiry id => Sys2Proof.Machine.execEscalationTimerExpiry id s
  | .overdueTimerExpiry id => Sys2Proof.Machine.execOverdueTimerExpiry id s
  | .transferTimerExpiry id => Sys2Proof.Machine.execTransferTimerExpiry id s
  | .longCallTimerExpiry id => Sys2Proof.Machine.execLongCallTimerExpiry id s
  | .dwellTimerExpiry g => Sys2Proof.Machine.execDwellTimerExpiry g s
  | .testTimeLimit g => Sys2Proof.Machine.execTestTimeLimit g s
  | .hookSense n => Sys2Proof.Machine.execHookSense n s
  | .storeWriteCompletion late success => Sys2Proof.Machine.execStoreWriteCompletion late success s
  | .storeWriteTimeout => Sys2Proof.Machine.execStoreWriteTimeout s
  | .frameBad l bytes => Sys2Proof.Machine.execFrameBad l bytes s
  | .frameTimerExpiry l => Sys2Proof.Machine.execFrameTimerExpiry l s
  | .silenceTimerExpiry c => Sys2Proof.Machine.execSilenceTimerExpiry c s
  | .breakRecognised l => Sys2Proof.Machine.execBreakRecognised l s
  | .breakLong c => Sys2Proof.Machine.execBreakLong c s
  | .breakEnd l => Sys2Proof.Machine.execBreakEnd l s
  | .transmissionComplete l => Sys2Proof.Machine.execTransmissionComplete l s
  | .unknownCommand l type body => Sys2Proof.Machine.execUnknownCommand l type body s
  | .keepalive l body => Sys2Proof.Machine.execKeepalive l body s
  | .listCalls l body => Sys2Proof.Machine.execListCalls l body s
  | .listAbandoned l body => Sys2Proof.Machine.execListAbandoned l body s
  | .lineStatus l body => Sys2Proof.Machine.execLineStatus l body s
  | .readDirectory l body => Sys2Proof.Machine.execReadDirectory l body s
  | .readProfile l body => Sys2Proof.Machine.execReadProfile l body s
  | .readGroup l body => Sys2Proof.Machine.execReadGroup l body s
  | .setWatch l body => Sys2Proof.Machine.execSetWatch l body s
  | .claim l body => Sys2Proof.Machine.execClaim l body s
  | .answerNext l body => Sys2Proof.Machine.execAnswerNext l body s
  | .hold l body => Sys2Proof.Machine.execHold l body s
  | .retrieve l body => Sys2Proof.Machine.execRetrieve l body s
  | .release l body => Sys2Proof.Machine.execRelease l body s
  | .transfer l body => Sys2Proof.Machine.execTransfer l body s
  | .ringPost l body => Sys2Proof.Machine.execRingPost l body s
  | .cancelRing l body => Sys2Proof.Machine.execCancelRing l body s
  | .dismiss l body => Sys2Proof.Machine.execDismiss l body s
  | .handoverRequest l body => Sys2Proof.Machine.execHandoverRequest l body s
  | .resume l body => Sys2Proof.Machine.execResume l body s
  | .setServiceOut l body => Sys2Proof.Machine.execSetServiceOut l body s
  | .setServiceIn l body => Sys2Proof.Machine.execSetServiceIn l body s
  | .testLine l body => Sys2Proof.Machine.execTestLine l body s
  | .writeDirectory l body => Sys2Proof.Machine.execWriteDirectory l body s
  | .writeProfile l body => Sys2Proof.Machine.execWriteProfile l body s
  | .setGroup l body => Sys2Proof.Machine.execSetGroup l body s
  | .setAcceptance l body => Sys2Proof.Machine.execSetAcceptance l body s
  | .setCallTimers l body => Sys2Proof.Machine.execSetCallTimers l body s
  | .setBearer l body => Sys2Proof.Machine.execSetBearer l body s
  | .restart l body => Sys2Proof.Machine.execRestart l body s
  | .syncByteReceived l => Sys2Proof.Machine.execSyncByteReceived l s

end Sys2Proof.Machine
end

