-- ==== Sys2Proof/Machine/Step.lean ====
section
/-! DEFINITION. One step of the part: the command at the front of the queue is taken, or, with nothing
waiting, a millisecond passes. -/

namespace Sys2Proof.Machine

/-- The outcome of a step. -/
abbrev Step := Host.Outcome State Fault Refusal

/-- With nothing waiting, one millisecond passes; the tick counter counts every 10 ms (section 5.3). What a
timer does when it expires is a command of its own (DESIGN CHOICE, assumption 2). -/
def State.idle (s : State) : State :=
  if s.subTick + 1 < 10 then
    { s with orders := [], clock := s.clock + 1, subTick := s.subTick + 1 }
  else { s with orders := [], clock := s.clock + 1, subTick := 0, tick := s.tick + 1 }

/-- The step of the part: first come, first served. -/
def step (s : State) : Step :=
  match s.pending with
  | [] => .next s.idle
  | c :: rest => exec c { s with pending := rest }

/-- The state with the command a table word spells at the front of its queue; no word spells one. -/
def State.withFetchWord (s : State) (nbits w : Nat) : State :=
  match decodeTableWord nbits w with
  | some c => { s with pending := c :: s.pending }
  | none => s

end Sys2Proof.Machine
end

