-- ==== Sys2Proof/WellFormed.lean ====
section
/-! DEFINITION. The operands a command's row admits: what the outside world can hand the part under that
row's name. -/

namespace Sys2Proof

open Machine

/-- A frame's BODY is 0 to 63 bytes, since LEN is 1 to 64 (R149). -/
def bodyFits (body : List Byte) : Bool := body.length ≤ 63

/-- The SET_SERVICE body names the service state IN (R48, R177). -/
def spellsIn : List Byte → Bool
  | [_, b] => b = 0
  | _ => false

/-- A command is well formed: its operands are ones its row admits. -/
def Instr.wellFormed : Instr → Bool
  | .coldStart _ _ _ => true
  | .storeReadCompletion _ _ => true
  | .storeReadTimeout => true
  | .inputChange _ _ => true
  | .debounceExpiry _ => true
  | .passTimerExpiry _ => true
  | .orderReady _ _ _ _ _ => true
  | .orderReadyTimeout _ => true
  | .fixedSettleEnd _ _ _ _ => true
  | .probeDelayExpiry _ => true
  | .parkTimerExpiry _ => true
  | .ringTimerExpiry _ => true
  | .identityBurst _ bytes _ => bytes.length ≤ 5
  | .windowTimerExpiry _ => true
  | .escalationTimerExpiry id => id ≠ 0
  | .overdueTimerExpiry id => id ≠ 0
  | .transferTimerExpiry id => id ≠ 0
  | .longCallTimerExpiry id => id ≠ 0
  | .dwellTimerExpiry _ => true
  | .testTimeLimit _ => true
  | .hookSense _ => true
  | .storeWriteCompletion _ _ => true
  | .storeWriteTimeout => true
  | .frameBad _ bytes => judgeFrame bytes = .bad
  | .frameTimerExpiry _ => true
  | .silenceTimerExpiry _ => true
  | .breakRecognised _ => true
  | .breakLong _ => true
  | .breakEnd _ => true
  | .transmissionComplete _ => true
  | .unknownCommand _ type body => !Command.named type && bodyFits body
  | .keepalive _ body => bodyFits body
  | .listCalls _ body => bodyFits body
  | .listAbandoned _ body => bodyFits body
  | .lineStatus _ body => bodyFits body
  | .readDirectory _ body => bodyFits body
  | .readProfile _ body => bodyFits body
  | .readGroup _ body => bodyFits body
  | .setWatch _ body => bodyFits body
  | .claim _ body => bodyFits body
  | .answerNext _ body => bodyFits body
  | .hold _ body => bodyFits body
  | .retrieve _ body => bodyFits body
  | .release _ body => bodyFits body
  | .transfer _ body => bodyFits body
  | .ringPost _ body => bodyFits body
  | .cancelRing _ body => bodyFits body
  | .dismiss _ body => bodyFits body
  | .handoverRequest _ body => bodyFits body
  | .resume _ body => bodyFits body
  | .setServiceOut _ body => bodyFits body && !spellsIn body
  | .setServiceIn _ body => spellsIn body
  | .testLine _ body => bodyFits body
  | .writeDirectory _ body => bodyFits body
  | .writeProfile _ body => bodyFits body
  | .setGroup _ body => bodyFits body
  | .setAcceptance _ body => bodyFits body
  | .setCallTimers _ body => bodyFits body
  | .setBearer _ body => bodyFits body
  | .restart _ body => bodyFits body
  | .syncByteReceived _ => true

end Sys2Proof
end

