-- ==== Sys2Proof/Safety.lean ====
section
/-! DEFINITION. The terms claims are made in: when a link command is taken, what a message does to a
link, and the invariants of the part, block by block. -/

namespace Sys2Proof.Machine

/-! ### Taking a command -/

/-- The state a valid frame on a link leaves for its command to act on: the receiver in HUNT, the frame's
effect on health, and a pending load report placed (R80, R149, R152). -/
def State.heard (s : State) (l : Link) : State := { s with orders := [] }.arrive l

/-- A command of a TYPE that needs a right is taken on a link: no break is being received, and neither the
start-up, the recovery of the link nor its rights hold the command up (R150, R151, R156). -/
def State.admits (s : State) (l : Link) (type : Byte) (right : Right) : Prop :=
  (s.link l).receive.inBreak = false ∧ (s.heard l).heldUp l type = none ∧ (s.heard l).holds l right = true

/-- A message that a link does not discard enters its queue, and an IDLE transmitter takes the first
entry within the same step (R157 to R160, assumption 11). -/
def State.told (s : State) (l : Link) (m : Message) : State :=
  s.setLink l (((s.link l).enqueue m false).pump s.tick)

/-- The reply to a command enters the queue of its link (R150, R176). -/
def State.answered (s : State) (l : Link) (type : Byte) (code : ReplyCode) (fields : List Byte) : State :=
  s.told l (.reply type code fields)

/-- A notice enters the queue of a link that is not LOST (R157). -/
def State.informed (s : State) (l : Link) (n : Notice) : State :=
  if s.isLost l then s else s.told l (.notice n)

/-- A notice enters the queues of links A, B and S, as far as they are not LOST. -/
def State.announced (s : State) (n : Notice) : State :=
  ((s.informed .a n).informed .b n).informed .s n

/-- A notice about a line enters the queue of each link whose watch filter passes the line (R164). -/
def State.reported (s : State) (n : LineId) (x : Notice) : State :=
  [Link.a, .b, .s].foldl (fun s l => if (s.link l).watch.passes (s.entry n) then s.informed l x else s) s

/-- The CALL_OFFERs of records enter the queue of a link that is not LOST, one after the other (R105). -/
def State.offeredAll (s : State) (l : Link) (rs : List CallRecord) : State :=
  rs.foldl (fun s r => s.informed l (.callOffer (offerOf r))) s

/-- A record as an offer to a link leaves it: the offered set, the state, and the two flags that the health of
the group sets; the first-offer tick and the escalation timer when it waited for its first offer (R105 to
R108). -/
def State.asOffered (s : State) (r : CallRecord) (c : Centre) : CallRecord :=
  let first : Bool := r.state = .waiting && r.firstOffer.isNone && !r.claimedOnce
  { r with
    state := .offered, offered := r.offered.add c
    flags := { r.flags with
      unsupervised := (s.group r.line.group).health = .silent
      doubtful := (s.group r.line.group).health = .pathFault }
    firstOffer := if first then some s.tick else r.firstOffer
    escalation :=
      if first then some { length := s.timers.escalate * 1000, due := s.clock + s.timers.escalate * 1000 }
      else r.escalation }

/-- A link that becomes usable is offered this record: one that waits, and an ORPHAN or ESCALATED one that is
offered, but not to the link (R108). -/
def CallRecord.dueTo (r : CallRecord) (c : Centre) : Bool :=
  r.state = .waiting || (r.state = .offered && (r.flags.orphan || r.flags.escalated) && !r.offered.has c)

/-- A link that becomes usable is offered the records due to it, in register order (R105, R108). -/
def State.welcomed (s : State) (c : Centre) : State :=
  { s.offeredAll c.link ((s.registerOrder.filter (·.dueTo c)).map (s.asOffered · c)) with
    records := s.records.map fun r => if r.dueTo c then s.asOffered r c else r }

/-- A STANDBY link that the fall-back returns to duty: ACTIVE, with DUTY_RESUMED and the records due to it
(R104). -/
def State.calledBack (s : State) (c : Centre) : State :=
  ((s.setCentre c { s.centre c with duty := .active }).informed c.link .dutyResumed).welcomed c

/-- A record leaves the offered set of a link that is told so, unless its offer still waits there or is lost
(R161). -/
def State.leftBy (s : State) (c : Centre) (id : CallId) (n : Notice) : State :=
  s.setLink c.link ((s.link c.link).leave id (if s.isLost c.link then none else some n) s.tick)

/-- CALL_WITHDRAWN for a record that is taken from the links it is offered to, and for its transfer origin when
that is not one of them (R90, R92). -/
def State.withdrawnAll (s : State) (r : CallRecord) (reason : EndReason) : State :=
  let n : Notice := .callWithdrawn r.id r.line reason
  let s := r.offered.members.foldl (fun s c => s.leftBy c r.id n) s
  match r.origin with
  | some o => if r.offered.has o then s else s.informed o.link n
  | none => s

/-- The record of a call that a completing handover takes from a link: it stays offered to the partner when it is
already, is offered to a usable partner, and otherwise waits (R123). -/
def State.movedFrom (s : State) (r : CallRecord) (c : Centre) : CallRecord :=
  let left : CallRecord := { r with offered := r.offered.remove c }
  if r.offered.has c.partner then left
  else if s.usable c.partner then s.asOffered left c.partner
  else { left with state := .waiting }

/-- The handover of a link completes: it is STANDBY, leaves every offered set with CALL_WITHDRAWN HANDOVER, and
gets HANDOVER_DONE; with its partner not usable, the fall-back calls it back at once when it is heard (R104,
R123). -/
def State.handedOver (s : State) (c : Centre) : State :=
  let moves := s.registerOrder.filter fun r => r.offered.has c
  let offers := (moves.filter fun r => s.usable c.partner && !r.offered.has c.partner).map (s.movedFrom · c)
  let told := moves.foldl (fun s r => s.leftBy c r.id (.callWithdrawn r.id r.line .handover)) s
  let moved : State :=
    { told.offeredAll c.partner.link offers with
      records := s.records.map fun r => if r.offered.has c then s.movedFrom r c else r }
  let done := (moved.setCentre c { s.centre c with duty := .standby }).informed c.link .handoverDone
  if s.usable c.partner || !(s.centre c).health.heard then done else done.calledBack c

/-- The check made when a record leaves its claimant: a HANDING_OVER link that claims no record any more
completes its handover (R123). -/
def State.handoverChecked (s : State) (claimant : Option Centre) : State :=
  match claimant with
  | some c =>
    if (s.centre c).duty = .handingOver && s.records.all fun r => r.claimant ≠ some c then s.handedOver c
    else s
  | none => s

/-- The record that a lost link claimed: it has no claimant and no channel, it is ORPHAN, and it is offered to the
partner when that is heard, and waits otherwise (R120 step 4). A partner that is heard is ACTIVE by then (R104,
R124). -/
def State.orphaned (s : State) (r : CallRecord) (lost : Centre) : CallRecord :=
  let left : CallRecord :=
    { r with
      claimant := none, channel := none, longTimer := none, longWaits := false, offered := .empty
      flags := { r.flags with orphan := true } }
  if (s.centre lost.partner).health.heard then s.asOffered left lost.partner
  else { left with state := .waiting }

/-- An unclaimed record at the loss of a link: with the lost link as its transfer origin it is ORPHAN without one;
out of the lost link's offers it stays with the partner, or is offered to it when the partner is heard or is the
origin of a transfer that so times out, and otherwise waits (R119, R121). -/
def State.bereft (s : State) (r : CallRecord) (lost : Centre) : CallRecord :=
  let d := lost.partner
  let r := if r.origin = some lost then
      { r with origin := none, transferTimer := none, flags := { r.flags with orphan := true } }
    else r
  if r.offered.has lost then
    let timesOut : Bool := r.origin = some d
    let left : CallRecord :=
      { r with
        offered := r.offered.remove lost
        transferTimer := if timesOut then none else r.transferTimer }
    if r.offered.has d then left
    else if (s.centre d).health.heard ||
        (timesOut && (s.centre d).health ≠ .lost && (s.centre d).duty ≠ .standby) then s.asOffered left d
    else { left with state := .waiting }
  else r

/-- An unclaimed record whose CALL_OFFER the loss of a link places at the partner: one that goes on to it, and one
it keeps that becomes ORPHAN by the loss of its transfer origin (R121). -/
def State.passedOn (s : State) (r : CallRecord) (lost : Centre) : Bool :=
  (r.offered.has lost && !r.offered.has lost.partner && (s.bereft r lost).offered.has lost.partner) ||
    (r.origin = some lost && r.offered.has lost.partner)

/-- The line of a group's receiver is taken from it, or from its wait list; a receiver that is freed so hears
the oldest line that waits (R57 to R59). -/
def Receiver.without (r : Receiver) (n : LineId) : Receiver :=
  if r.listening = some n then { listening := r.waiting.head?, waiting := r.waiting.tail }
  else { r with waiting := r.waiting.filter fun m => m ≠ n }

/-- A line's capture is dropped, with the order that switches its receiver on (R58, R59). -/
def State.uncaptured (s : State) (n : LineId) : State :=
  let r := s.receiver n.group
  if s.capture n = none then s
  else
    { s with
      captures := s.captures.set n none, receivers := s.receivers.set n.group (r.without n)
      orders := s.orders ++ (if r.listening = some n then [.listen n.group r.waiting.head?] else []) }

/-- The first offer of a resolved record: to its home link when that is usable, else to a usable partner; else it
waits (R107). -/
def State.offeredFirst (s : State) (r : CallRecord) : CallRecord :=
  let home := (s.entry r.line).home
  let waits : CallRecord := { r with state := .waiting }
  if s.usable home then s.asOffered waits home
  else if s.usable home.partner then s.asOffered waits home.partner
  else waits

/-- The record of a call id that the register makes of the overflow entry it promotes: with the entry's arrival
tick; resolved and first offered at once when the entry holds a capture result; OVERDUE when its overdue moment
has passed, and with its overdue timer running to that moment otherwise (R81, R88, R106). -/
def State.promoted (s : State) (e : OverflowEntry) (id : CallId) : CallRecord :=
  let overdue := s.timers.overdue * 1000
  let age := (s.tick - e.arrival).toNat * 10
  let late : Bool := overdue ≤ age
  let made := CallRecord.create id e.line e.arrival
    (if late then none else some { length := overdue, due := s.clock - s.subTick + (overdue - age) })
  let r := match e.result with
    | some res => s.offeredFirst (made.resolved s.acceptance (s.entry e.line) res)
    | none => made
  { r with flags := { r.flags with overdue := late } }

/-- The notices of a promotion: the CALL_OFFER of a record that is offered at once, and after it the CALL_OVERDUE
of one whose overdue moment has passed (R105, R106, R110). -/
def State.promotionTold (s : State) (q : CallRecord) : State :=
  let offer := offerOf { q with flags := { q.flags with overdue := false } }
  let s := q.offered.members.foldl (fun s c => s.informed c.link (.callOffer offer)) s
  if q.flags.overdue then
    s.announced (.callOverdue q.id q.line q.category ((s.tick - q.arrival).toNat / 100))
  else s

/-- The abandoned entry of a call record (R94). -/
def State.leftBehind (s : State) (r : CallRecord) : AbandonedEntry :=
  { id := r.id, line := r.line, category := r.category, arrival := r.arrival, ended := s.tick
    offered := r.offered, orphan := r.flags.orphan }

/-- The abandoned entry of an overflow entry, with a new id: its category is that of the result it holds, as R61
gives it, and EMERGENCY with none (R93, R94). -/
def State.overflowLeft (s : State) (e : OverflowEntry) (id : CallId) : AbandonedEntry :=
  { id := id, line := e.line, arrival := e.arrival, ended := s.tick, offered := .empty, orphan := false
    category := match e.result with
      | some (.received b) =>
        if b.code = 1#2 then .breakdown
        else if b.code = 2#2 ∧ ∃ k : Fin 4, s.acceptance[k].enable = true ∧
          (b.identity &&& s.acceptance[k].mask) = (s.acceptance[k].pattern &&& s.acceptance[k].mask) then .service
        else .emergency
      | _ => .emergency }

/-- An abandoned list with one more entry: a full list first discards its oldest (R95). -/
def abandonedWith (xs : List AbandonedEntry) (e : AbandonedEntry) : List AbandonedEntry :=
  (if xs.length < 16 then xs else xs.tail) ++ [e]

/-- The id that is issued next: the first one from the counter on, 255 being followed by 1, that is not held
(R84). -/
def issuedId (held : List CallId) (counter : CallId) : CallId :=
  (((List.range 255).map fun k => Fin.ofNat 256 ((counter.val - 1 + k) % 255 + 1)).find? fun id =>
    id ∉ held).getD counter

/-- The id of the record that a full register promotes when a record leaves it: the next one that no other record
holds, nor any entry of the abandoned list as the leaving leaves it (R84, R88, R92). -/
def State.promotedId (s : State) (r : CallRecord) : CallId :=
  let abandoned := if r.state.unclaimed then abandonedWith s.abandoned (s.leftBehind r) else s.abandoned
  issuedId ((s.records.filter fun q => q.id ≠ r.id).map (·.id) ++ abandoned.map (·.id)) s.idCounter

/-- The end of a call, with the line as it then stands and the record that a full register promotes in its
place: the record leaves the register and its channel is freed; its claimant is sent CALL_ENDED, and the links
it is offered to and its transfer origin CALL_WITHDRAWN; an unclaimed call becomes an abandoned entry; the
promoted record is offered and told; the line's capture is dropped; and the claimant's handover is checked (R58,
R88, R91 to R95, R123). -/
def State.ended (s : State) (r : CallRecord) (reason : EndReason) (line : LineUnit)
    (promoted : Option CallRecord) : State :=
  let told := match r.claimant with
    | some c => s.informed c.link (.callEnded r.id r.line reason)
    | none => s
  let withdrawn := told.withdrawnAll r reason
  let toned (n : LineId) (tone : Tone) : List Order :=
    if (s.line n).tone = tone then [] else [.tone n tone]
  let freed : State :=
    { (match promoted with
        | some q => withdrawn.promotionTold q
        | none => withdrawn) with
      records := (s.records.filter fun q => q.id ≠ r.id) ++ promoted.toList
      overflow := if promoted.isSome then s.overflow.tail else s.overflow
      idCounter := match promoted with
        | some q => if q.id = 255 then 1 else q.id + 1
        | none => s.idCounter
      channels := match r.channel with
        | some ch => s.channels.set ch .free
        | none => s.channels
      abandoned := if r.state.unclaimed then abandonedWith s.abandoned (s.leftBehind r) else s.abandoned
      overflowed := s.overflowed || (r.state.unclaimed && 16 ≤ s.abandoned.length)
      lines := (match promoted with
        | some q => s.lines.set q.line { condition := .inCall, tone := .registered }
        | none => s.lines).set r.line line
      orders := s.orders ++
        (match r.channel with
          | some ch => [.breakPoint ch r.line]
          | none => []) ++
        (match promoted with
          | some q => toned q.line .registered
          | none => []) ++ toned r.line line.tone }
  (freed.uncaptured r.line).handoverChecked r.claimant

/-- The refusal of a command on a call that its requester must claim: NO_SUCH_CALL, ABANDONED or NOT_CLAIMANT,
or nothing (R98, R114). -/
def State.claimedRefusal (s : State) (c : Centre) (id : Byte) : Option ReplyCode :=
  if id = 0 then some .noSuchCall
  else
    match s.recordById id.toFin with
    | some r => if r.claimant = some c then none else some .notClaimant
    | none => if s.abandoned.any fun e => e.id = id.toFin then some .abandoned else some .noSuchCall

/-- What a link command is: its link, its TYPE, the right it needs and its body (R151, R176). -/
structure LinkCommand where
  link : Link
  type : Byte
  right : Right
  body : List Byte
  deriving DecidableEq, Repr

/-- The link command of a command row; the other rows are events. -/
def linkCommand : Instr → Option LinkCommand
  | .keepalive l b => some ⟨l, Command.keepalive, .none, b⟩
  | .listCalls l b => some ⟨l, Command.listCalls, .none, b⟩
  | .listAbandoned l b => some ⟨l, Command.listAbandoned, .none, b⟩
  | .lineStatus l b => some ⟨l, Command.lineStatus, .none, b⟩
  | .readDirectory l b => some ⟨l, Command.readDirectory, .none, b⟩
  | .readProfile l b => some ⟨l, Command.readProfile, .none, b⟩
  | .readGroup l b => some ⟨l, Command.readGroup, .none, b⟩
  | .setWatch l b => some ⟨l, Command.setWatch, .none, b⟩
  | .claim l b => some ⟨l, Command.claim, .calls, b⟩
  | .answerNext l b => some ⟨l, Command.answerNext, .calls, b⟩
  | .hold l b => some ⟨l, Command.hold, .calls, b⟩
  | .retrieve l b => some ⟨l, Command.retrieve, .calls, b⟩
  | .release l b => some ⟨l, Command.release, .calls, b⟩
  | .transfer l b => some ⟨l, Command.transfer, .calls, b⟩
  | .ringPost l b => some ⟨l, Command.ringPost, .calls, b⟩
  | .cancelRing l b => some ⟨l, Command.cancelRing, .calls, b⟩
  | .dismiss l b => some ⟨l, Command.dismiss, .calls, b⟩
  | .handoverRequest l b => some ⟨l, Command.handoverRequest, .calls, b⟩
  | .resume l b => some ⟨l, Command.resume, .calls, b⟩
  | .setServiceOut l b => some ⟨l, Command.setService, .maintain, b⟩
  | .setServiceIn l b => some ⟨l, Command.setService, .maintain, b⟩
  | .testLine l b => some ⟨l, Command.testLine, .maintain, b⟩
  | .writeDirectory l b => some ⟨l, Command.writeDirectory, .configure, b⟩
  | .writeProfile l b => some ⟨l, Command.writeProfile, .configure, b⟩
  | .setGroup l b => some ⟨l, Command.setGroup, .configure, b⟩
  | .setAcceptance l b => some ⟨l, Command.setAcceptance, .configure, b⟩
  | .setCallTimers l b => some ⟨l, Command.setCallTimers, .configure, b⟩
  | .setBearer l b => some ⟨l, Command.setBearer, .configure, b⟩
  | .restart l b => some ⟨l, Command.restart, .configure, b⟩
  | _ => none

/-- The body length of each command whose body has a fixed one (section 12.3). -/
def fixedLength (type : Byte) : Option Nat :=
  if type ∈ [Command.keepalive, Command.answerNext, Command.handoverRequest, Command.resume,
      Command.restart] then some 0
  else if type ∈ [Command.listCalls, Command.listAbandoned, Command.lineStatus, Command.readDirectory,
      Command.readProfile, Command.readGroup, Command.claim, Command.hold, Command.retrieve,
      Command.release, Command.transfer, Command.ringPost, Command.cancelRing, Command.dismiss] then some 1
  else if type ∈ [Command.setService, Command.testLine, Command.setBearer] then some 2
  else if type = Command.setGroup then some 4
  else if type = Command.setAcceptance then some 8
  else if type = Command.setCallTimers then some 10
  else if type = Command.writeProfile then some 20
  else none

/-! ### Orders -/

/-- The outcome by which an event ends the order that a group's port holds: in READY the ready signal or the
20 ms timer, in a fixed mode the end of its settle steps (R4, R5). -/
def State.orderEnds (s : State) (g : GroupId) : Instr → Option (Option (Code × Code))
  | .orderReady h late vc ic valid =>
    if h = g ∧ late = false ∧ (s.group g).port.any (·.settle = .ready) then
      some (if valid then some (vc, ic) else none)
    else none
  | .orderReadyTimeout h =>
    if h = g ∧ (s.group g).port.any (·.settle = .ready) then some none else none
  | .fixedSettleEnd h vc ic valid =>
    if h = g ∧ (s.group g).port.any (·.settle ≠ .ready) then some (if valid then some (vc, ic) else none)
    else none
  | _ => none

/-- An order placed on a group's port now: with the group's settle mode, and in READY with a 20 ms timer (R3
to R6). -/
def State.newOrder (s : State) (g : GroupId) (owner : OrderOwner) : PlacedOrder :=
  { owner := owner, settle := (s.group g).settle, fate := .live
    timer := if (s.group g).settle = .ready then some { length := 20, due := s.clock + 20 } else none }

/-- A group record with a pass begun: the pass timer runs for the scan interval of the power state, and the feed
reference order is ready (R7, R8). -/
def State.passBegun (s : State) (g : GroupId) : GroupRecord :=
  let interval : Nat := match s.power with
    | .normal => 100
    | .economy => 400
    | .reserve => 1000
  { s.group g with
    pass := .inPass, passTimer := some { length := interval, due := s.clock + interval }
    scanWaiting := some .feed, restartPass := false }

/-- A group with a free port that starts a pass, its feed reference order placed (R3, R7, R8). -/
def State.firstPass (s : State) (g : GroupId) : GroupRecord :=
  { s.passBegun g with scanWaiting := none, port := some (s.newOrder g (.scanner .feed)) }

/-- What a group's port measures for a purpose of the scanner (R8 to R10, R14). -/
def ScanPurpose.aim : ScanPurpose → Target × Path
  | .feed => (.feed, .main)
  | .line p => (.position p, .main)
  | .checkMain p => (.position p, .main)
  | .checkSecond p _ => (.position p, .check)
  | .probe => (.position 0, .main)

/-- A port that has fallen free takes the test unit's order when one is ready, and the scanner's waits for the next
free port; with no order of a test ready it takes the scanner's (R3). -/
def State.served (s : State) (g : GroupId) : State :=
  let r := s.group g
  match (s.test g).filter (·.order = .waiting), r.scanWaiting with
  | some t, _ =>
    { s with
      orders := s.orders ++
        [.measure g (.position t.line.pos) (if t.phase = .measureCheck then .check else .main)]
      tests := s.tests.set g (some { t with order := .placed })
      groups := s.groups.set g { r with port := some (s.newOrder g .test) } }
  | none, some p =>
    { s with
      orders := s.orders ++ [.measure g p.aim.1 p.aim.2]
      groups := s.groups.set g { r with port := some (s.newOrder g (.scanner p)), scanWaiting := none } }
  | none, none => { s with groups := s.groups.set g { r with port := none } }

/-- The scanner makes an order ready at a port that has fallen free (R3). -/
def State.scanOrdered (s : State) (g : GroupId) (p : ScanPurpose) : State :=
  State.served { s with groups := s.groups.set g { s.group g with scanWaiting := some p } } g

/-- The pass of a group whose port has fallen free ends: the next starts at once when its pass timer has expired,
unless no position is fitted, and otherwise waits for it (R2, R7). -/
def State.passEnds (s : State) (g : GroupId) : State :=
  let r := s.group g
  let ended : GroupRecord := if r.passTimer.isSome then { r with pass := .idleWait }
    else if r.fitted = 0 then r
    else s.passBegun g
  State.served { s with groups := s.groups.set g ended } g

/-- The scanner's order that the port of a group holds has a live outcome, and no pass is owed (R3, R16). -/
def State.scannerHolds (s : State) (g : GroupId) (p : ScanPurpose) : Prop :=
  (∃ o ∈ (s.group g).port, o.owner = .scanner p ∧ o.fate = .live) ∧ (s.group g).restartPass = false

/-- The line the pass measures next from a position on: the lowest fitted one that is neither OUT_OF_SERVICE
nor TESTING (R9). -/
def State.nextLine (s : State) (g : GroupId) (k : Nat) (p : Pos) : Prop :=
  k ≤ p.val ∧ p.val < (s.group g).fitted.val ∧ s.scannable g p = true ∧
  ∀ q : Pos, k ≤ q.val → q.val < p.val → s.scannable g q = false

/-- The state that a pass leads to from a position on, the port having fallen free: the next line is ordered; after
the last one the first order of a path check, for the first IDLE line from the check position on; and with path
checking off or no line IDLE the pass ends (R7, R9, R10). -/
def State.GoesOn (s : State) (g : GroupId) (k : Nat) (t : State) : Prop :=
  let r := s.group g
  let chosen := (positionsFrom r.fitted r.checkPos).find? fun p =>
    (s.line (lineAt g p)).condition = .idle
  (∀ q, s.nextLine g k q → t = s.scanOrdered g (.line q)) ∧
  ((∀ q, ¬ s.nextLine g k q) →
    (r.pathCheck = false ∨ chosen = none → t = s.passEnds g) ∧
    (∀ q ∈ chosen, r.pathCheck = true →
      t = State.scanOrdered { s with groups := s.groups.set g { r with checkPos := positionAfter r.fitted q } } g
        (.checkMain q)))

/-! ### The load -/

/-- What the read of a line's item leaves of the lines: the entry read, or the default, OUT on a position that is
not fitted; the line's condition from it, its tone as it was; its classifier reset under the profile it names; and
every other line as it stood (R32, R68, R78, R172). -/
def State.LineRead (s : State) (n : LineId) (good : Option ItemContent) (t : State) : Prop :=
  let fitted : Bool := n.pos.val < (s.group n.group).fitted.val
  let read : Entry := match good with
    | some (.line e) => e
    | _ =>
      { inService := true, expected := none, sect := 0, marker := 0, cway := .cw1, label := [],
        home := .a, profile := 0, naming := .directory, defaulted := true }
  t.entry n = { read with inService := read.inService && fitted } ∧
  t.line n =
    { s.line n with
      condition := if fitted then (if read.inService then .idle else .outOfService) else .notFitted } ∧
  t.classifier n =
    { confirmed := .unknown, candidate := none, count := 0, rTrack := (s.profile read.profile).term
      rLast := none, marginal := 0, leaky := false } ∧
  ∀ m, m ≠ n → t.line m = s.line m ∧ t.entry m = s.entry m ∧ t.classifier m = s.classifier m

/-! ### Tests -/

/-- The orders that switch a test's drives back: the sink off once it is on, or the normal feed restored, and the
hook sense disarmed (R139 to R141, R143). -/
def TestRecord.restoring (t : TestRecord) : List Order :=
  (if t.kind = .openWire ∧ t.phase ≠ .measureBefore then [.sink t.line false] else []) ++
    (if t.kind = .insulation then [.testSource t.line false] else []) ++ [.hookSense t.line false]

/-- A group's running test, if any, ends with an outcome: an order of it on the port is left to end there, its
outcome discarded; its drives are switched back; its line returns to its prior condition; the record is dropped;
and TEST_RESULT goes to the requester, with the health of the group (R49, R143). -/
def State.testStopped (s : State) (g : GroupId) (outcome : TestOutcome) : State :=
  match s.test g with
  | none => s
  | some t =>
    let r := s.group g
    let line : LineUnit := match (s.line t.line).condition with
      | .testing p => { condition := p.condition, tone := .none }
      | _ => s.line t.line
    { s with
      orders := s.orders ++ t.restoring, tests := s.tests.set g none, lines := s.lines.set t.line line
      groups := s.groups.set g
        { r with port := r.port.map fun (o : PlacedOrder) => if o.owner = OrderOwner.test then { o with fate := .stale } else o } }.informed
      t.requester (.testResult
        { line := t.line, kind := t.kind, outcome := outcome, health := r.health
          elapsed := (s.tick - t.start).toNat * 10 })

/-- A line under test (R33). -/
def Condition.isTesting : Condition → Bool
  | .testing _ => true
  | _ => false

/-- A running test stands on a line of its group that is TESTING with no tone (R41, R49, R136). -/
def State.testStands (s : State) (g : GroupId) : Prop :=
  ∀ t ∈ s.test g, t.line.group = g ∧ (s.line t.line).condition.isTesting = true ∧
    (s.line t.line).tone = .none

/-! ### Links -/

/-- An outbound queue holds at most 8 entries in their order, at most one CALL_OFFER for a call id, and
nothing while its transmitter is IDLE; a call id stands once in the lost-offer set (R157 to R161). -/
def LinkController.Ordered (k : LinkController) : Prop :=
  k.queue.length ≤ Config.queueCapacity ∧
  k.queue.Pairwise (fun e f => (e.msg.cls < f.msg.cls ∨ (e.msg.cls = f.msg.cls ∧ e.time < f.time))) ∧
  (∀ e ∈ k.queue, e.time < k.submissions) ∧
  (k.queue.filterMap (·.msg.offerId)).Nodup ∧
  (k.transmit = .idle → k.queue = []) ∧
  k.lostOffers.Nodup

/-- The health state agrees with the score; the recovery counter counts only in LOST and below 64; the
silence timer runs in every state but LOST (R152 to R155). -/
def CentreControl.Sound (k : CentreControl) : Prop :=
  k.score ≤ Config.lostScore ∧ k.health = healthOf k.score ∧ k.recovery < Config.recoveryFrames ∧
  (k.health ≠ .lost → k.recovery = 0) ∧ (k.health = .lost ↔ k.silence = none)

/-- A LOST link's queue and transmitter hold replies alone, and its lost-offer set is empty (R154,
R157). -/
def State.QuietWhenLost (s : State) (c : Centre) : Prop :=
  (s.centre c).health = .lost →
    (∀ e ∈ (s.link c.link).queue, e.msg.isReply = true) ∧
    (∀ m ∈ (s.link c.link).transmit.message?, m.isReply = true) ∧ (s.link c.link).lostOffers = []

/-- The invariant of the link controllers. -/
def InvLinks (s : State) : Prop :=
  s.linkA.Ordered ∧ s.linkB.Ordered ∧ s.linkS.Ordered ∧ s.centreA.Sound ∧ s.centreB.Sound ∧
  s.QuietWhenLost .a ∧ s.QuietWhenLost .b

/-! ### Duty -/

/-- The invariant of the duty states: at most one centre link is not ACTIVE; a HANDING_OVER link claims a
record and its partner is not LOST; and a STANDBY link stays so only while a link is usable or it is
itself FAILING or LOST (R103, R104, R122 to R124). -/
def InvDuty (s : State) : Prop :=
  (s.centreA.duty = .active ∨ s.centreB.duty = .active) ∧
  (∀ c ∈ [Centre.a, .b], (s.centre c).duty = .handingOver →
    s.claimsAny c = true ∧ (s.centre c.partner).health ≠ .lost) ∧
  (∀ c ∈ [Centre.a, .b], s.usable .a = false → s.usable .b = false →
    (s.centre c).duty = .standby → (s.centre c).health.heard = false)

/-! ### Store -/

/-- The invariant of the write queue and the working copies: at most 4 entries, the first WRITING and no
other, no two WAITING entries for one item; every profile related and clamped, the call timers and the
bearer limits in range, every label at most 16 printable characters (R18, R74 to R76, R68, R129). -/
def InvStore (s : State) : Prop :=
  s.writes.length ≤ Config.writeCapacity ∧
  (∀ e ∈ s.writes.head?, e.writing.isSome = true) ∧
  (∀ e ∈ s.writes.tail, e.writing = none) ∧
  (s.writes.tail.map (·.item)).Nodup ∧
  (∀ p, profileRelated (s.profile p) = true ∧ clampProfile (s.profile p) = s.profile p) ∧
  clampTimers s.timers = s.timers ∧
  (1 ≤ s.bearer.limitA ∧ s.bearer.limitA ≤ 6 ∧ 1 ≤ s.bearer.limitB ∧ s.bearer.limitB ≤ 6) ∧
  (∀ n, (s.entry n).label.length ≤ 16 ∧
    ∀ ch ∈ (s.entry n).label, 32 ≤ ch.toNat ∧ ch.toNat ≤ 126)

/-! ### Supply and load -/

/-- An input's debounce timer runs exactly while its level differs from its taken value (R168). -/
def InputState.Sound (k : InputState) : Prop := k.debounce.isSome = true ↔ k.level ≠ k.taken

/-- The invariant of the supply monitor: the inputs are sound, and the power state is the one that the two
taken supply values form (R168, R169). -/
def InvSupply (s : State) : Prop :=
  s.mainsOk.Sound ∧ s.batteryLow.Sound ∧ s.key.Sound ∧ s.power = powerOf s.mainsOk.taken s.batteryLow.taken

/-- The group's item and the items of its fitted lines are not all read yet (R171). -/
def State.loading (s : State) (g : GroupId) : Prop :=
  ∃ ld ∈ s.load, ld.read ≤ 8 + 9 * g.val + (s.group g).fitted.val

/-- The line's item is not read yet (R171). -/
def State.unread (s : State) (n : LineId) : Prop :=
  ∃ ld ∈ s.load, ld.read ≤ (Item.line n).number

/-- The invariant of the load: the read in progress is one of the 79; no restart window is open and
nothing waits to be written; a group whose lines are not all read has no pass, order or test; a line not
read is NOT_FITTED (R170 to R173). -/
def InvLoad (s : State) : Prop :=
  (∀ ld ∈ s.load, 1 ≤ ld.read ∧ ld.read ≤ Config.itemCount ∧ s.window = none ∧ s.writes = []) ∧
  (∀ g, s.loading g →
    (s.group g).pass = .stopped ∧ (s.group g).passTimer = none ∧ (s.group g).probeDelay = none ∧
    (s.group g).port = none ∧ (s.group g).scanWaiting = none ∧ (s.group g).health = .scanning ∧
    (s.group g).checkPos = 0 ∧ s.test g = none) ∧
  (∀ n, s.unread n → (s.line n).condition = .notFitted)

/-! ### Scanner and tests -/

/-- The order that the scanner of a group has out on the port, when its outcome is still the scanner's to
act on (R2, R3). -/
def GroupRecord.placed (r : GroupRecord) : Option ScanPurpose :=
  match r.port with
  | some o =>
    match o.owner, o.fate with
    | .scanner p, .live | .scanner p, .lostFit => some p
    | _, _ => none
  | none => none

/-- A group's scanner has an order waiting or out (R3, R7 to R10). -/
def GroupRecord.ordering (r : GroupRecord) : Bool := r.scanWaiting.isSome || r.placed.isSome

/-- The outcome of the order on the port is discarded because its line has lost fit (R2). -/
def GroupRecord.lostFit (r : GroupRecord) : Bool :=
  match r.port with
  | some o => o.fate = .lostFit
  | none => false

/-- The counters of a group and its path-check position in range; a group of fitted count 0 makes no
passes; SILENT exactly when its no-sample run has reached 3, with no pass and its check runs 0; a probe
delay, a probe count and a probe order only in SILENT, and no other order there (R1, R2, R10, R11, R13,
R14). -/
def GroupRecord.Sound (r : GroupRecord) : Prop :=
  r.noSampleRun ≤ 3 ∧ r.discrepancyRun ≤ 255 ∧ r.agreementRun ≤ 255 ∧ r.probeCount ≤ 255 ∧
  (r.checkPos.val < r.fitted.val ∨ r.checkPos = 0) ∧
  (r.fitted = 0 → r.pass = .stopped ∧ r.passTimer = none ∧ r.probeDelay = none ∧ r.ordering = false) ∧
  (r.health = .silent ↔ r.noSampleRun = Config.silentRun) ∧
  (r.health = .silent → r.pass = .stopped ∧ r.passTimer = none ∧ r.discrepancyRun = 0 ∧
    r.agreementRun = 0) ∧
  (r.health ≠ .silent → r.probeDelay = none ∧ r.probeCount = 0) ∧
  (∀ p ∈ r.scanWaiting, p = .probe ↔ r.health = .silent) ∧
  (∀ p ∈ r.placed, p = .probe ↔ r.health = .silent) ∧
  (r.lostFit = true → ∀ p ∈ r.placed, p ≠ .feed ∧ p ≠ .probe)

/-- No pass stalls: a group in a pass has an order waiting or out, a group between passes has its pass
timer running, a SILENT group that is fitted waits for its probe delay or its probe, and a pass that a warm
restart owes waits only for the port (R7, R14, R16). -/
def GroupRecord.Live (r : GroupRecord) : Prop :=
  (r.pass = .inPass → r.ordering = true) ∧
  (r.restartPass = true →
    r.port.isSome = true ∧ r.pass = .stopped ∧ r.ordering = false ∧ r.fitted ≠ 0 ∧ r.health ≠ .silent) ∧
  (r.pass = .idleWait → r.passTimer.isSome = true) ∧
  (r.health = .silent → r.fitted ≠ 0 → r.probeDelay.isSome = true ∨ r.ordering = true)

/-- The port of a group serves the test unit and the scanner: an order waits only while another is out,
and a test has its order placed exactly while the port holds it (R3). -/
def State.PortSound (s : State) (g : GroupId) : Prop :=
  ((s.group g).port = none →
    (s.group g).scanWaiting = none ∧ ∀ t ∈ s.test g, t.order ≠ .waiting) ∧
  ((∃ t ∈ s.test g, t.order = .placed) ↔
    ∃ o ∈ (s.group g).port, o.owner = .test ∧ o.fate = .live)

/-- A running test: its line is one of the group and TESTING; the power state is NORMAL and the group is
not SILENT; in its dwell phases its dwell timer runs and it has no order, and in the others the reverse;
it holds the first sample from its second phase on (R49, R136 to R147). -/
def State.TestSound (s : State) (g : GroupId) : Prop :=
  ∀ t ∈ s.test g,
    t.line.group = g ∧ (s.line t.line).condition.isTesting = true ∧
    s.power = .normal ∧ (s.group g).health ≠ .silent ∧
    (t.dwell.isSome = true ↔ t.phase = .dwell ∨ t.phase = .sourceDwell) ∧
    (t.order = .none ↔ t.phase = .dwell ∨ t.phase = .sourceDwell) ∧
    (t.phase = .measureAfter ∨ t.phase = .measureCheck → t.samples ≠ [])

/-- The invariant of the scanner and the test unit: every group is sound and live, a fitted group that is
not SILENT and makes no passes is one still loading or one owed a pass, and every TESTING line is the line
of its group's test (R2, R7, R16, R136, R172). -/
def InvScan (s : State) : Prop :=
  (∀ g, (s.group g).Sound ∧ (s.group g).Live ∧ s.PortSound g ∧ s.TestSound g) ∧
  (∀ g, (s.group g).pass = .stopped → (s.group g).fitted ≠ 0 → (s.group g).health ≠ .silent →
    (s.group g).restartPass = true ∨ s.loading g) ∧
  (∀ n, (s.line n).condition.isTesting = true → ∃ t ∈ s.test n.group, t.line = n)

/-! ### Call register -/

/-- The invariant of the register's three lists: at most 16 records and 16 abandoned entries, a line in
overflow only while the register is full, and no call id 0 and none held twice (R82, R84, R87, R95). -/
def InvIds (s : State) : Prop :=
  s.records.length ≤ Config.registerCapacity ∧ s.abandoned.length ≤ Config.abandonedCapacity ∧
  (s.overflow ≠ [] → s.records.length = Config.registerCapacity) ∧
  (s.records.map (·.id) ++ s.abandoned.map (·.id)).Nodup ∧
  (∀ r ∈ s.records, r.id ≠ 0) ∧ (∀ e ∈ s.abandoned, e.id ≠ 0) ∧ s.idCounter ≠ 0 ∧
  (s.overflowed = true → s.abandoned ≠ [])

/-- The fields of a call record agree: CONNECTED and HELD are the claimed states, CONNECTED is the state
with a channel, OFFERED the state with an offered set; a claimed record has no transfer origin, is no
orphan and has no escalation, overdue or transfer timer; an unclaimed one has no long-call timer; an
IDENTIFYING one alone has no location and no capture result, and was never offered (R60, R81, R105, R106,
R111, R114, R118, R120). -/
def CallRecord.Sound (r : CallRecord) : Prop :=
  (r.claimant.isSome = true ↔ r.state = .connected ∨ r.state = .held) ∧
  (r.channel.isSome = true ↔ r.state = .connected) ∧
  (r.offered ≠ .empty ↔ r.state = .offered) ∧
  (r.claimant.isSome = true →
    r.origin = none ∧ r.flags.orphan = false ∧ r.escalation = none ∧ r.overdueTimer = none ∧
    r.transferTimer = none) ∧
  (r.claimant = none → r.longTimer = none ∧ r.longWaits = false) ∧
  (r.transferTimer.isSome = true → r.origin.isSome = true) ∧
  (r.location = none ↔ r.state = .identifying) ∧ (r.capture = none ↔ r.state = .identifying) ∧
  (r.state = .identifying → r.firstOffer = none ∧ r.escalation = none ∧ r.origin = none)

/-- The invariant of the calls: one entry a line; the lines with a call record are the IN_CALL lines and
those in overflow the QUEUED ones; every record is sound; and no LOST link claims a record, is in an
offered set or rings a line (R37, R81 to R88, R120, R121). -/
def InvCalls (s : State) : Prop :=
  (s.records.map (·.line) ++ s.overflow.map (·.line)).Nodup ∧
  (∀ n, (s.line n).condition = .inCall ↔ n ∈ s.records.map (·.line)) ∧
  (∀ n, (s.line n).condition = .queued ↔ n ∈ s.overflow.map (·.line)) ∧
  (∀ r ∈ s.records, r.Sound) ∧
  (∀ c ∈ [Centre.a, .b], (s.centre c).health = .lost →
    ∀ r ∈ s.records, r.claimant ≠ some c ∧ r.offered.has c = false)

/-- The park timer, the park notice sent flag and the park tick of a PARKED line (R33). -/
def Condition.park? : Condition → Option (Option Timer × Bool × Tick)
  | .parked timer sent since => some (timer, sent, since)
  | _ => none

/-! ### Channels -/

/-- The link and channel a line is rung by (R33). -/
def Condition.ring? : Condition → Option (Centre × ChannelId)
  | .ringing _ c ch => some (c, ch)
  | _ => none

/-- What a channel's entry says agrees with the line or the record it names (R126, R127). -/
def State.ChannelSound (s : State) (ch : ChannelId) : Prop :=
  match s.channel ch with
  | .free => True
  | .reserved n c => (s.line n).condition.ring? = some (c, ch)
  | .connected n c id =>
    ∃ r ∈ s.records, r.id = id ∧ r.line = n ∧ r.claimant = some c ∧ r.channel = some ch

/-- The invariant of the channel table: every entry agrees with its line or record, every record's channel
and every ringing line's channel names it, and no LOST link has a channel (R126, R127, R120). -/
def InvChannels (s : State) : Prop :=
  (∀ ch, s.ChannelSound ch) ∧
  (∀ r ∈ s.records, ∀ ch ∈ r.channel, ∃ c ∈ r.claimant, s.channel ch = .connected r.line c r.id) ∧
  (∀ n, ∀ x ∈ (s.line n).condition.ring?, s.channel x.2 = .reserved n x.1) ∧
  (∀ c ∈ [Centre.a, .b], (s.centre c).health = .lost → s.channelsRouted c = 0)

/-! ### Captures -/

/-- The invariant of the identity receivers: the lines in capture are those with an IDENTIFYING record or
with an overflow entry that holds no result; each is listened to or waits once at its group's receiver; and
an IDLE receiver has no line waiting (R54 to R59, R86, R87). -/
def InvCaptures (s : State) : Prop :=
  (∀ n, (s.capture n).isSome = true ↔
    (∃ r ∈ s.records, r.line = n ∧ r.state = .identifying) ∨
    (∃ e ∈ s.overflow, e.line = n ∧ e.result = none)) ∧
  (∀ g, ((s.receiver g).listening.toList ++ (s.receiver g).waiting).Nodup ∧
    ((s.receiver g).listening = none → (s.receiver g).waiting = [])) ∧
  (∀ g n, n ∈ (s.receiver g).listening.toList ++ (s.receiver g).waiting ↔
    n.group = g ∧ (s.capture n).isSome = true)

/-! ### Lines -/

/-- A line that is out of service, or is tested out of service. -/
def Condition.outside : Condition → Bool
  | .outOfService => true
  | .testing p => p = .outOfService
  | _ => false

/-- The invariant of the lines: a line not fitted is NOT_FITTED and its entry OUT, as is the entry of a line
not read yet; of the fitted lines those whose entry is OUT are OUT_OF_SERVICE or tested from it; and every
line has the tone of its condition (R34, R41, R47 to R50, R68). -/
def InvLines (s : State) : Prop :=
  (∀ n, s.unread n → (s.entry n).inService = false) ∧
  (∀ n, ¬ s.unread n →
    ((s.line n).condition = .notFitted ↔ (s.group n.group).fitted.val ≤ n.pos.val) ∧
    ((s.entry n).inService = false ↔
      (s.line n).condition = .notFitted ∨ (s.line n).condition.outside = true)) ∧
  (∀ n, (s.line n).tone = toneFor (s.line n).condition (s.recordOfLine n))

/-! ### Classifiers -/

/-- A classifier under the profile of its line: the candidate count is 0 exactly without a candidate and
stays below the confirm count of its class, the candidate is never the confirmed class, the tracked
resistance lies between 2000 and the top of the idle band, and LEAKY is set exactly below R_leak (R17,
R26 to R29). -/
def Classifier.Sound (k : Classifier) (p : Profile) : Prop :=
  (k.candidate = none ↔ k.count = 0) ∧ k.candidate ≠ some k.confirmed ∧ k.candidate ≠ some .unknown ∧
  (∀ c ∈ k.candidate, k.count < confirmCount p c) ∧
  (Config.trackFloor ≤ k.rTrack ∧ k.rTrack ≤ p.idleHi) ∧ (∀ r ∈ k.rLast, r ≤ Config.noCurrent) ∧
  k.marginal ≤ 65535 ∧ (k.leaky = true ↔ k.rTrack < p.leak)

/-- The invariant of the loop classifier, over the lines whose entry is read (R17, R172). -/
def InvClassifiers (s : State) : Prop := ∀ n, ¬ s.unread n → (s.classifier n).Sound (s.profileOf n)

/-! ### The whole part -/

/-- Everything the part keeps, in every state that a step can lead to. -/
def Inv (s : State) : Prop :=
  InvLinks s ∧ InvDuty s ∧ InvStore s ∧ InvSupply s ∧ InvLoad s ∧ InvScan s ∧ InvIds s ∧ InvCalls s ∧
  InvChannels s ∧ InvCaptures s ∧ InvLines s ∧ InvClassifiers s

end Sys2Proof.Machine
end

