-- ==== Sys2Proof/Certificates/Slice0/Obligations.lean ====
section
/-! DEFINITION. The statements about the part, in the order of the manual's steps: what taking a command does
first, links, queries, calls, maintenance, starts, supply, scanning, classification, tests, store, and the
invariants that every step keeps. A link command acts on `s.heard l`, the state its valid frame leaves. -/

open Sys2Proof Sys2Proof.Machine

/-! ### The step and the taking of a command -/

/-- The command at the front of the queue is taken with the queue's rest. That the commands that wait stand in a
queue, first in first out, and that a step takes the one in front, is the model's choice (assumption 3). -/
def Obligations.StepTakesFrontCommand : Prop :=
  ∀ (s : State) (c : Instr) (rest : List Instr), s.pending = c :: rest →
    step s = exec c { s with pending := rest }

/-- With nothing waiting a millisecond passes, and every tenth of them counts the tick (section 5.3). That an
empty queue lets time pass is the model's choice (assumption 2). -/
def Obligations.IdleStepPassesTime : Prop :=
  ∀ s : State, s.pending = [] → ∃ t, step s = .next t ∧
    t = { s with orders := [], clock := s.clock + 1, subTick := t.subTick, tick := t.tick } ∧
    (s.subTick < 9 → t.subTick = s.subTick + 1 ∧ t.tick = s.tick) ∧
    (9 ≤ s.subTick → t.subTick = 0 ∧ t.tick = s.tick + 1)

/-- Every command and event of the part completes in every state: the part never stops. That none of them, a
cold start among them, changes the queue of the commands that wait is the model's choice (assumption 3). -/
def Obligations.EveryCommandCompletes : Prop :=
  ∀ (c : Instr) (s : State), ∃ t, exec c s = .next t ∧ t.pending = s.pending

/-- The checks that come before a command's own, in the order of R150: RESTARTING, STARTING,
LINK_RECOVERING, NOT_PERMITTED; and a command that arrives in a break is not received (R156). A refused
command leaves its valid frame's effects and the reply, and nothing else. -/
def Obligations.CommandChecksBeforeTaking : Prop :=
  ∀ (s : State) (c : Instr) (k : LinkCommand), linkCommand c = some k →
    let a := s.heard k.link
    ((s.link k.link).receive.inBreak = true → exec c s = .next { s with orders := [] }) ∧
    ((s.link k.link).receive.inBreak = false →
      (a.window.isSome = true → exec c s = .next (a.answered k.link k.type .restarting [])) ∧
      (a.window = none → k.type ≠ Command.keepalive → a.load.isSome = true →
        exec c s = .next (a.answered k.link k.type .starting [])) ∧
      (a.window = none → k.type ≠ Command.keepalive → a.load = none → a.isLost k.link = true →
        exec c s = .next (a.answered k.link k.type .linkRecovering [])) ∧
      (a.window = none → a.load = none → k.link = .s →
        (k.right = .calls ∨ (k.right = .maintain ∨ k.right = .configure) ∧ a.key.taken = false) →
        exec c s = .next (a.answered k.link k.type .notPermitted [])))

/-- A command that is taken and whose body has not the length its layout requires is refused BAD_LENGTH:
the fixed lengths of section 12.3, 2 + 5n for SET_WATCH of n ranges, 13 + L for WRITE_DIRECTORY with a
label of L characters (R70, R150, R164). That a SET_WATCH body carries its number of ranges at offset 1, and
so has the length 2 + 5n, is an inference of the model (assumption 10); the other lengths are those of
sections 12.2 and 12.3 (R176, R177). -/
def Obligations.WrongLengthRefused : Prop :=
  ∀ (s : State) (c : Instr) (k : LinkCommand), linkCommand c = some k →
    s.admits k.link k.type k.right →
    ((∃ n ∈ fixedLength k.type, k.body.length ≠ n) ∨
     (k.type = Command.setWatch ∧
       (k.body.length < 2 ∨ k.body.length ≠ 2 + 5 * (k.body.getD 1 0).toNat)) ∨
     (k.type = Command.writeDirectory ∧
       (k.body.length < 13 ∨ k.body.length ≠ 13 + (k.body.getD 12 0).toNat))) →
    exec c s = .next ((s.heard k.link).answered k.link k.type .badLength [])

/-! ### Frames and link health -/

/-- UNKNOWN_COMMAND: a valid frame whose TYPE names no command is refused so, after its effect on the
health of a centre link: the score falls by 1 but not below 0, and the silence timer starts afresh; a LOST
link counts it, and the 64th in a row recovers the link with RESYNC set. A link that so comes from FAILING or
LOST to POOR or GOOD is offered, when it is ACTIVE, the calls that wait and the ORPHAN and ESCALATED ones it was
not offered, in register order; when it is STANDBY and its partner is not usable, it returns to ACTIVE with
DUTY_RESUMED and the same offers (R104, R105, R108, R150, R152, R153, R155). On link S it changes nothing but
the receiver. -/
def Obligations.ValidFrameImprovesHealth : Prop :=
  ∀ (s : State) (l : Link) (type : Byte) (body : List Byte),
    Command.named type = false → (s.link l).receive.inBreak = false → s.reportPending l = false →
    s.window = none → s.load = none →
    let a := s.heard l
    (a.isLost l = false → exec (.unknownCommand l type body) s = .next (a.answered l type .unknownCommand [])) ∧
    (l = .s → a = { s with orders := [], linkS := { s.linkS with receive := .hunt } }) ∧
    (∀ c ∈ l.centre?, (a.link l).receive = .hunt ∧
      ((s.centre c).health ≠ .lost →
        (a.centre c).score = (s.centre c).score - 1 ∧
        (a.centre c).health = healthOf ((s.centre c).score - 1) ∧
        (a.centre c).recovery = (s.centre c).recovery ∧
        (a.centre c).silence = some { length := 5000, due := s.clock + 5000 }) ∧
      ((s.centre c).health ≠ .lost → healthOf ((s.centre c).score - 1) = (s.centre c).health →
        a = (({ s with orders := [] }.setReceive l .hunt).setCentre c (a.centre c)) ∧
        (a.centre c).duty = (s.centre c).duty) ∧
      ((s.centre c).health = .lost → (s.centre c).recovery + 1 < 64 →
        a = (({ s with orders := [] }.setReceive l .hunt).setCentre c
          { s.centre c with recovery := (s.centre c).recovery + 1 })) ∧
      ((s.centre c).health = .lost → 64 ≤ (s.centre c).recovery + 1 →
        (a.centre c).score = 0 ∧ (a.centre c).health = .good ∧ (a.centre c).recovery = 0 ∧
        (a.centre c).silence = some { length := 5000, due := s.clock + 5000 } ∧
        (a.link l).resync = true) ∧
      (((s.centre c).health = .lost → 64 ≤ (s.centre c).recovery + 1) →
        (s.centre c).health = healthOf (s.centre c).score →
        InvIds s → InvCalls s → InvLines s → InvDuty s →
        let old := s.centre c
        let recovers : Bool := old.health = .lost
        let score := if recovers then 0 else old.score - 1
        let better : State := ({ s with orders := [] }.setLink l
          { s.link l with receive := .hunt, resync := (s.link l).resync || recovers }).setCentre c
            { old with
              score := score, health := healthOf score
              recovery := if recovers then 0 else old.recovery
              silence := some { length := 5000, due := s.clock + 5000 } }
        let returns : Bool := (healthOf score).heard && !old.health.heard
        a = if returns && old.duty = .active then better.welcomed c
          else if returns && old.duty = .standby && !s.usable c.partner then better.calledBack c
          else better))

/-- The first valid frame on a link after a load with bad items places LOAD_DEFAULTED for that link, unless the
link is LOST, and clears its mark. It does so whatever the frame's command, and the marks of the other links
and the report stay. A later frame places none (R80). That the notice stands after the frame's effect on
health and before the reply to its command is an inference of the model (assumption 12). -/
def Obligations.FirstFrameDeliversLoadReport : Prop :=
  ∀ (s : State) (l : Link) (r : LoadReport) (c : Instr) (k : LinkCommand) (type : Byte) (body : List Byte),
    s.load = none → s.report = some r → (s.link l).receive.inBreak = false →
    let b := ({ s with orders := [] }.setReceive l .hunt).onCentre l State.validFrame
    let a := s.heard l
    a = (if s.reportPending l then (b.setReportPending l false).informed l (.loadDefaulted r) else b) ∧
    (linkCommand c = some k → k.link = l → ∃ t, exec c s = .next t ∧ t.report = some r ∧
      ∀ x : Link, t.reportPending x = (s.reportPending x && !decide (x = l))) ∧
    (Command.named type = false →
      exec (.unknownCommand l type body) s = .next (a.answered l type
        (if s.window.isSome then .restarting
        else if a.isLost l then .linkRecovering else .unknownCommand) []))

/-- FRAME_BAD and FRAME_TIMER_EXPIRY: the frame is dropped and the receiver returns to HUNT; on a centre
link the score rises by 8 and the health follows it, short of LOST; a LOST link's recovery counter returns
to 0 (R149, R152, R155). A move into FAILING marks every call offered to the link ESCALATED and offers it to
the partner, when that is usable; with neither link usable a STANDBY partner that is heard returns to ACTIVE
with DUTY_RESUMED, and is offered the calls that wait and the ORPHAN and ESCALATED ones (R104, R105, R108,
R109). That the calls are escalated, in register order, before the fall-back is checked is the model's choice
(assumption 16). -/
def Obligations.BadFrameWorsensHealth : Prop :=
  ∀ (s : State) (l : Link) (c : Instr) (bytes : List Byte),
    (c = .frameBad l bytes ∧ judgeFrame bytes = .bad ∧ (s.link l).receive.inBreak = false ∨
      c = .frameTimerExpiry l ∧ (s.link l).receive.inFrame = true) →
    ∃ t, exec c s = .next t ∧
      (l = .s → t = { s with orders := [], linkS := { s.linkS with receive := .hunt } }) ∧
      ∀ d ∈ l.centre?,
        ((s.centre d).health = .lost →
          t = ({ s with orders := [] }.setReceive l .hunt).setCentre d
            { s.centre d with recovery := 0 }) ∧
        ((s.centre d).health ≠ .lost → (s.centre d).score + 8 < 256 →
          let new := healthOf ((s.centre d).score + 8)
          let b := ({ s with orders := [] }.setReceive l .hunt).setCentre d
            { s.centre d with score := (s.centre d).score + 8, health := new }
          (t.link l).receive = .hunt ∧ (t.centre d).score = (s.centre d).score + 8 ∧
          (t.centre d).health = new ∧ (t.centre d).silence = (s.centre d).silence ∧
          (new = (s.centre d).health ∨
              new.heard = true ∧ (s.centre d).health.heard = true ∧
                (s.usable .a = true ∨ s.usable .b = true) →
            t = b) ∧
          (new = .failing → (s.centre d).health.heard = true → InvIds s → InvCalls s → InvLines s →
            let e := d.partner
            let marked (r : CallRecord) : CallRecord :=
              if r.offered.has d then { r with flags := { r.flags with escalated := true } } else r
            let resumes : Bool := (s.centre e).duty = .standby && (s.centre e).health.heard
            let due (r : CallRecord) : Bool :=
              if s.usable e then r.offered.has d && !r.offered.has e else resumes && (marked r).dueTo e
            let becomes (r : CallRecord) : CallRecord :=
              if due r then s.asOffered (marked r) e else marked r
            let back : State :=
              if resumes then
                (b.setCentre e { s.centre e with duty := .active }).informed e.link .dutyResumed
              else b
            t = { back.offeredAll e.link ((s.registerOrder.filter due).map becomes) with
              records := s.records.map becomes }))

/-- A centre link that becomes LOST, by silence, by a long break or by a bad frame that takes its score to 256,
stands at score 256 with
nothing queued, in transmission or in its lost-offer set, and holds no call: no record is claimed by it or
offered to it, no line rings for it and no channel is routed to it. A record it claimed is an orphan with no
claimant and no channel. It is offered to a partner that is heard, and otherwise waits, and so are the unclaimed
calls that were offered to the lost link alone; a transfer to the lost link is offered to its origin as a timed-out
one is, and one from it becomes an orphan, with its CALL_OFFER placed again at a partner it stays offered to. The
offers enter the partner's queue in register order, the orphans' first. A lost link that was handing over is STANDBY; a partner that was handing over is ACTIVE
again and is sent HANDOVER_CANCELLED, and one that stands by and is heard returns to ACTIVE with DUTY_RESUMED,
each before any offer to it (R104, R105, R108, R119 to R121, R124, R152 to R154, R156). That the partner whose handover is
cancelled is offered calls by that alone, and that an orphan keeps its connect tick, are inferences of the model
(assumptions 26 and 29); that a transfer timer runs on at the loss of a partner that is no longer offered the call
is its choice (assumption 50). -/
def Obligations.LostLinkHoldsNoCall : Prop :=
  ∀ (s : State) (c : Centre) (e : Instr) (bytes : List Byte),
    (e = .silenceTimerExpiry c ∧ (s.centre c).silence.isSome = true ∨
      e = .breakLong c ∧ (s.link c.link).receive = .brk false ∨
      (e = .frameTimerExpiry c.link ∧ (s.link c.link).receive.inFrame = true ∨
        e = .frameBad c.link bytes ∧ judgeFrame bytes = .bad ∧
          (s.link c.link).receive.inBreak = false) ∧ 256 ≤ (s.centre c).score + 8) →
    (s.centre c).health ≠ .lost → s.window ≠ some c.link → InvIds s → InvCalls s → InvChannels s →
    ∃ t, exec e s = .next t ∧
      (t.centre c).score = 256 ∧ (t.centre c).health = .lost ∧ (t.centre c).recovery = 0 ∧
      (t.centre c).silence = none ∧ (t.link c.link).queue = [] ∧ (t.link c.link).transmit = .idle ∧
      (t.link c.link).lostOffers = [] ∧
      (∀ r ∈ t.records, r.claimant ≠ some c ∧ r.offered.has c = false ∧ r.origin ≠ some c) ∧
      (∀ n, ∀ x ∈ (t.line n).condition.ring?, x.1 ≠ c) ∧ t.channelsRouted c = 0 ∧
      (∀ r ∈ s.records, r.claimant = some c →
        ∃ q ∈ t.records, q.id = r.id ∧ q.line = r.line ∧ q.flags.orphan = true ∧ q.claimant = none ∧
          q.channel = none) ∧
      (t.centre c).duty = (if (s.centre c).duty = .handingOver then .standby else (s.centre c).duty) ∧
      (let d := c.partner
      let was := (s.centre d).duty
      let resumes : Bool := was = .standby && (s.centre d).health.heard
      (t.centre d).duty = (if was = .handingOver || resumes then .active else was) ∧
      let returns : Bool := was = .handingOver || resumes
      let called : State :=
        if returns then
          s.informed d.link (if was = .handingOver then .handoverCancelled else .dutyResumed)
        else s
      let due (r : CallRecord) : Bool := returns && (s.centre d).health.heard && r.dueTo d
      let met (r : CallRecord) : CallRecord := if due r then s.asOffered r d else r
      let calls := s.registerOrder
      let welcome := (calls.filter due).map met
      let orphans := (calls.filter fun r => r.claimant = some c).map (s.orphaned · c)
      let others := ((calls.filter (·.state.unclaimed)).map met).filter (s.passedOn · c)
      t.records = (s.records.map fun r =>
        if r.claimant = some c then s.orphaned r c
        else if r.state.unclaimed then s.bereft (met r) c
        else r) ∧
      t.link d.link = (((called.offeredAll d.link welcome).offeredAll d.link
        (if (s.centre d).health.heard then orphans else [])).offeredAll d.link
          (others.map (s.bereft · c))).link d.link)

/-- SYNC_BYTE_RECEIVED begins a frame in HUNT alone; BREAK_RECOGNISED drops a frame in progress unjudged and
sets a LOST link's recovery counter to 0 (R149, R155, R156). -/
def Obligations.ReceiverFollowsSyncAndBreaks : Prop :=
  ∀ (s : State) (l : Link),
    ((s.link l).receive = .hunt →
      exec (.syncByteReceived l) s = .next ({ s with orders := [] }.setLink l
        { s.link l with receive := .frame { length := 100, due := s.clock + 100 } })) ∧
    ((s.link l).receive ≠ .hunt → exec (.syncByteReceived l) s = .next { s with orders := [] }) ∧
    ((s.link l).receive.inBreak = false →
      exec (.breakRecognised l) s = .next
        (let a := { s with orders := [] }.setLink l { s.link l with receive := .brk false }
         match l.centre? with
         | some c =>
           if (s.centre c).health = .lost then a.setCentre c { s.centre c with recovery := 0 } else a
         | none => a))

/-- BREAK_END: the end of a break of less than 2000 ms is a link clear. The frame in transmission is cut and
not sent again; CLEARED is set, and RESYNC too when a notice was cut; a CALL_OFFER that is cut takes its
waiting follow-up with it, or else enters its id in the lost-offer set while its record is still offered; the
transmitter goes on with the next entry. The end of a long break returns the receiver to HUNT (R156,
R161). Which cut offers enter the set, and that an id which stands there while a newer offer waits leaves it when an
offer merges and leaves both at a leave, are inferences of the model (assumption 14). -/
def Obligations.BreakEndClearsLink : Prop :=
  (∀ (k : LinkController) (m : Message) (followUp : Bool) (id : CallId) (follow : Option Notice) (now : Tick),
    (∃ e ∈ k.queue, e.msg.offerId = some id) → id ∈ k.lostOffers →
    (m.offerId = some id → k.enqueue m followUp =
      { k with
        queue := k.queue.map fun e => if e.msg.offerId = some id then { e with msg := m } else e
        lostOffers := k.lostOffers.erase id }) ∧
    k.leave id follow now =
      { k with
        queue := k.queue.filter fun e => e.msg.offerId ≠ some id, lostOffers := k.lostOffers.erase id }) ∧
  ∀ (s : State) (l : Link),
    ((s.link l).receive = .brk true →
      exec (.breakEnd l) s =
        .next ({ s with orders := [] }.setLink l { s.link l with receive := .hunt })) ∧
    ((s.link l).receive = .brk false →
      (s.window = some l → (s.link l).transmit.message? ≠ some (.reply Command.restart .ok [])) →
      let k := s.link l
      let cut (queue : List QueueEntry) (lostOffers : List CallId) (resync : Bool) : LinkController :=
        { k with receive := .hunt, cleared := true, transmit := .idle, queue := queue,
                 lostOffers := lostOffers, resync := resync }
      (k.transmit = .idle →
        exec (.breakEnd l) s =
          .next ({ s with orders := [] }.setLink l ((cut k.queue k.lostOffers k.resync).pump s.tick))) ∧
      (∀ m ∈ k.transmit.message?,
        (m.isReply = true →
          exec (.breakEnd l) s =
            .next ({ s with orders := [] }.setLink l ((cut k.queue k.lostOffers k.resync).pump s.tick))) ∧
        (m.isReply = false → m.offerId = none →
          exec (.breakEnd l) s =
            .next ({ s with orders := [] }.setLink l ((cut k.queue k.lostOffers true).pump s.tick))) ∧
        (∀ id ∈ m.offerId,
          let follows (e : QueueEntry) : Bool := e.followUp && e.msg.followUpId = some id
          (k.queue.any follows = true →
            exec (.breakEnd l) s = .next ({ s with orders := [] }.setLink l
              ((cut (k.queue.filter fun e => !follows e) k.lostOffers true).pump s.tick))) ∧
          (k.queue.any follows = false → s.offeredOn l id = true → id ∉ k.lostOffers →
            exec (.breakEnd l) s = .next ({ s with orders := [] }.setLink l
              ((cut k.queue (k.lostOffers ++ [id]) true).pump s.tick))))))

/-- TRANSMISSION_COMPLETE: the transmitter takes the first entry of the queue and forms its frame, or is IDLE
(R159). The end of a RESTART reply is another statement. -/
def Obligations.TransmissionCompleteTakesNext : Prop :=
  ∀ (s : State) (l : Link) (m : Message) (frame : List Byte),
    (s.link l).transmit = .sending m frame → s.window ≠ some l →
    ((s.link l).queue = [] →
      exec (.transmissionComplete l) s =
        .next ({ s with orders := [] }.setLink l { s.link l with transmit := .idle })) ∧
    (∀ e ∈ (s.link l).queue.head?,
      exec (.transmissionComplete l) s =
        .next ({ s with orders := [] }.setLink l
          { s.link l with queue := (s.link l).queue.tail
                          transmit := .sending e.msg (frameOf e.msg.type (e.msg.body s.tick)) }))

/-! ### Queries -/

/-- KEEPALIVE: the reply carries the link's health and duty (NONE for link S), the power state, the counts of
records, overflow entries and abandoned entries, and RESYNC and CLEARED as they stand; CLEARED is then clear
(R163). That CLEARED is cleared before the reply is submitted is an inference of the model (assumption 25). -/
def Obligations.KeepaliveReportsState : Prop :=
  ∀ (s : State) (l : Link), s.admits l Command.keepalive .none →
    let a := s.heard l
    exec (.keepalive l []) s = .next
      ((a.setLink l { a.link l with cleared := false }).answered l Command.keepalive .ok
        ((match l with
          | .a => [byte a.centreA.health.code, byte a.centreA.duty.code]
          | .b => [byte a.centreB.health.code, byte a.centreB.duty.code]
          | .s => [0xFF#8, 0xFF#8]) ++
          [byte a.power.code, byte a.records.length, byte a.overflow.length, byte a.abandoned.length,
           (if (a.link l).resync then 1#8 else 0#8) ||| (if (a.link l).cleared then 2#8 else 0#8)]))

/-- LIST_CALLS and LIST_ABANDONED: from the start position on, at most six call summaries in register order or
six abandoned entries oldest first, after the counts; LIST_CALLS from 0 clears RESYNC (R99 to R101). That
RESYNC is cleared before the reply is submitted is an inference of the model (assumption 25). -/
def Obligations.ListsAnswerPages : Prop :=
  ∀ (s : State) (l : Link) (start : Byte),
    (s.admits l Command.listCalls .none →
      let a := s.heard l
      let shown := (a.registerOrder.drop start.toNat).take 6
      exec (.listCalls l [start]) s = .next
        ((if start = 0 then a.setLink l { a.link l with resync := false } else a).answered l
          Command.listCalls .ok
          ([byte a.records.length, byte a.overflow.length, byte shown.length] ++
            shown.flatMap fun r =>
              [BitVec.ofFin r.id, byte r.line.val, byte r.state.code, byte r.category.code,
               callFlagsByte r.flags r.longCall r.origin.isSome, claimantByte r.claimant r.offered,
               match r.channel with
               | some ch => byte ch.val
               | none => 0xFF#8] ++
              bytes2 (min ((a.tick - r.arrival).toNat / 100) 65535)))) ∧
    (s.admits l Command.listAbandoned .none →
      let a := s.heard l
      let shown := (a.abandoned.drop start.toNat).take 6
      exec (.listAbandoned l [start]) s = .next
        (a.answered l Command.listAbandoned .ok
          ([byte a.abandoned.length, if a.overflowed then 1#8 else 0#8, byte shown.length] ++
            shown.flatMap fun e =>
              [BitVec.ofFin e.id, byte e.line.val, byte e.category.code,
               abandonedByte e.offered e.orphan] ++
              bytes2 (min ((a.tick - e.arrival).toNat / 100) 65535) ++
              bytes2 (min ((a.tick - e.ended).toNat / 100) 65535))))

/-- LINE_STATUS, READ_DIRECTORY, READ_PROFILE and READ_GROUP answer with the fields of their item as it stands
and change nothing else; a number that names no item is refused BAD_VALUE, and READ_DIRECTORY of a line that
is not fitted LINE_NOT_FITTED (R17, R33, R69, R167, R177). The bytes of the LINE_STATUS and READ_GROUP
replies, in the order of R33, R17 and R1, are an inference of the model (assumption 10); that LEAKY and the
WRITE_PENDING of READ_GROUP stand in bit 0 of a byte of their own, and that a park time of 2^32 milliseconds or
more is sent as a free value, are its choices (assumptions 9 and 37). -/
def Obligations.ReadsAnswerItems : Prop :=
  ∀ (s : State) (l : Link) (b : Byte),
    let a := s.heard l
    (s.admits l Command.lineStatus .none →
      (∀ n ∈ lineOfNat b.toNat, exec (.lineStatus l [b]) s =
        let u := a.line n
        let k := a.classifier n
        .next (a.answered l Command.lineStatus .ok
          ([byte u.condition.code] ++
            (match u.condition with
              | .fault f => [1#8, byte f.code]
              | _ => [0#8, 0#8]) ++
            [match a.recordOfLine n with
              | some r => BitVec.ofFin r.id
              | none => 0#8,
             byte u.tone.code] ++
            (match u.condition with
              | .ringing ringTimer c _ =>
                [1#8, byte (centreCode c), 1#8] ++ bytes4 (ringTimer.due - a.clock)
              | _ => .replicate 7 0#8) ++
            (match u.condition with
              | .parked _ _ parkTick =>
                let ms := 10 * (a.tick - parkTick).toNat
                1#8 :: bytes4 (if ms < 2 ^ 32 then ms else (Config.longPark ms).toNat)
              | _ => .replicate 5 0#8) ++
            [byte k.confirmed.code] ++
            (match k.candidate with
              | some c => [1#8, byte c.code]
              | none => [0#8, 0#8]) ++
            [byte k.count] ++ bytes2 k.rTrack ++
            (match k.rLast with
              | some r => 1#8 :: bytes2 r
              | none => [0#8, 0#8, 0#8]) ++
            bytes2 k.marginal ++ [if k.leaky then 1#8 else 0#8]))) ∧
      (64 ≤ b.toNat → exec (.lineStatus l [b]) s =
        .next (a.answered l Command.lineStatus .badValue []))) ∧
    (s.admits l Command.readDirectory .none →
      (∀ n ∈ lineOfNat b.toNat,
        ((a.line n).condition ≠ .notFitted → exec (.readDirectory l [b]) s =
          .next (a.answered l Command.readDirectory .ok
            (entryFlagsByte (a.entry n).inService (a.entry n).defaulted
                (a.writes.any fun w => w.item = .line n)
              :: (a.entry n).bytes n))) ∧
        ((a.line n).condition = .notFitted → exec (.readDirectory l [b]) s =
          .next (a.answered l Command.readDirectory .lineNotFitted []))) ∧
      (64 ≤ b.toNat → exec (.readDirectory l [b]) s =
        .next (a.answered l Command.readDirectory .badValue []))) ∧
    (s.admits l Command.readProfile .none →
      (∀ p ∈ profileOfNat b.toNat, exec (.readProfile l [b]) s =
        .next (a.answered l Command.readProfile .ok
          ((if a.writes.any fun w => w.item = .profile p then 4#8 else 0#8)
            :: profileBytes p (a.profile p)))) ∧
      (4 ≤ b.toNat → exec (.readProfile l [b]) s =
        .next (a.answered l Command.readProfile .badValue []))) ∧
    (s.admits l Command.readGroup .none →
      (∀ g ∈ groupOfNat b.toNat,
        let r := a.group g
        exec (.readGroup l [b]) s =
          .next (a.answered l Command.readGroup .ok
            ([byte r.fitted.val, byte r.settle.code, if r.pathCheck then 1#8 else 0#8,
              byte r.health.code] ++
             (match r.vf with
              | some v => [1#8, byte (v.toNat / 256), byte v.toNat]
              | none => [0#8, 0#8, 0#8]) ++
             [byte r.discrepancyRun, byte r.agreementRun, byte r.probeCount,
              if a.writes.any fun w => w.item = .group g then 1#8 else 0#8]))) ∧
      (8 ≤ b.toNat → exec (.readGroup l [b]) s =
        .next (a.answered l Command.readGroup .badValue [])))

/-- SET_WATCH: a body of a known mode and at most four ranges, none with its low marker above its high one,
replaces the link's filter; any other is refused BAD_VALUE and changes nothing. A filter in ALL passes every
line, in RANGES a line whose entry's section is that of a range and whose marker lies between its low and high
markers, both included, and in RANGES_INVERTED the lines that fall in no range (R164). -/
def Obligations.SetWatchSetsFilter : Prop :=
  (∀ (f : WatchFilter) (e : Entry),
    let fallsIn : Prop := ∃ r ∈ f.ranges,
      e.sect = r.sect ∧ r.low.toNat ≤ e.marker.toNat ∧ e.marker.toNat ≤ r.high.toNat
    (f.mode = .all → f.passes e = true) ∧
    (f.mode = .ranges → (f.passes e = true ↔ fallsIn)) ∧
    (f.mode = .rangesInverted → (f.passes e = true ↔ ¬ fallsIn))) ∧
  ∀ (s : State) (l : Link) (body : List Byte) (mode : Nat) (ranges : List WatchRange),
    s.admits l Command.setWatch .none → readWatch body = some (mode, ranges) →
    let a := s.heard l
    (∀ m ∈ watchOfNat mode, ranges.length ≤ 4 → (∀ r ∈ ranges, r.low.toNat ≤ r.high.toNat) →
      exec (.setWatch l body) s = .next
        ((a.setLink l { a.link l with watch := { mode := m, ranges := ranges } }).answered l
          Command.setWatch .ok [])) ∧
    ((2 < mode ∨ 4 < ranges.length ∨ ∃ r ∈ ranges, r.high.toNat < r.low.toNat) →
      exec (.setWatch l body) s = .next (a.answered l Command.setWatch .badValue []))

/-! ### Calls -/

/-- CLAIM of a call offered to a usable centre with a channel to spare: the call is CONNECTED to it on the
lowest FREE channel, its crosspoint connection is made, its flags, timers and offered set are as R111 says,
and the line's tone stops. The reply carries the channel; the partner is told CALL_TAKEN when the call was
offered to it or came from it, and an offer still waiting is withdrawn with it (R111, R112, R130, R133,
R161). That the order to the crosspoint stands before the tone's is the model's choice (assumption 48). -/
def Obligations.ClaimConnectsCall : Prop :=
  ∀ (s : State) (c : Centre) (id : Byte) (r : CallRecord) (ch : ChannelId),
    s.admits c.link Command.claim .calls → id ≠ 0 →
    let a := s.heard c.link
    a.recordById id.toFin = some r → a.recordOfLine r.line = some r →
    (a.line r.line).condition = .inCall → r.claimant = none → r.offered.has c = true →
    (a.centre c).duty ≠ .handingOver →
    a.channelsInUse < cabinetLimit a.power → a.channelsRouted c < a.bearer.limit c →
    a.channel ch = .free → (∀ k : ChannelId, k.val < ch.val → a.channel k ≠ .free) →
    ∃ t, exec (.claim c.link [id]) s = .next t ∧
      t = { a with records := t.records, channels := t.channels, lines := t.lines, orders := t.orders,
                   linkA := t.linkA, linkB := t.linkB } ∧
      t.records = (a.records.map fun q => if q.id = r.id then
        { q with
          state := .connected, claimant := some c, channel := some ch, offered := .empty, origin := none,
          flags := { q.flags with orphan := false }, connect := some a.tick, longCall := false,
          longTimer := some { length := a.timers.longCall * 1000,
                              due := a.clock - a.subTick + a.timers.longCall * 1000 },
          longWaits := false, escalation := none, overdueTimer := none, transferTimer := none,
          claimedOnce := true } else q) ∧
      t.channels = a.channels.set ch (.connected r.line c r.id) ∧
      t.lines = a.lines.set r.line { condition := .inCall, tone := .none } ∧
      t.orders = a.orders ++ [.makePoint ch r.line c] ++
        (if (a.line r.line).tone = .none then [] else [.tone r.line .none]) ∧
      t.link c.link =
        ((a.answered c.link Command.claim .ok [byte ch.val]).link c.link).leave r.id none a.tick ∧
      t.link c.partner.link =
        (if r.offered.has c.partner then
          (a.link c.partner.link).leave r.id
            (if a.isLost c.partner.link then none else some (.callTaken r.id r.line c)) a.tick
        else if r.origin = some c.partner then
          (a.informed c.partner.link (.callTaken r.id r.line c)).link c.partner.link
        else a.link c.partner.link)

/-- The refusals of CLAIM in their order, none of which changes anything but the requester's queue: ABANDONED or
NO_SUCH_CALL when no live call has the id; HANDOVER_ACTIVE; CLAIM_LOST with the claiming link, or WRONG_STATE
when the requester holds the call itself; NOT_OFFERED; NO_CHANNEL (R98, R111, R130). -/
def Obligations.ClaimRefusals : Prop :=
  ∀ (s : State) (c : Centre) (id : Byte), s.admits c.link Command.claim .calls →
    let a := s.heard c.link
    let no (code : ReplyCode) (fields : List Byte) : Host.Outcome State Fault Refusal :=
      .next (a.answered c.link Command.claim code fields)
    (id = 0 → exec (.claim c.link [id]) s = no .noSuchCall []) ∧
    (id ≠ 0 → a.recordById id.toFin = none →
      exec (.claim c.link [id]) s =
        if a.abandoned.any fun e => e.id = id.toFin then no .abandoned [] else no .noSuchCall []) ∧
    (∀ r ∈ a.recordById id.toFin, id ≠ 0 →
      ((a.centre c).duty = .handingOver → exec (.claim c.link [id]) s = no .handoverActive []) ∧
      ((a.centre c).duty ≠ .handingOver →
        (r.claimant = some c → exec (.claim c.link [id]) s = no .wrongState []) ∧
        (r.claimant = some c.partner →
          exec (.claim c.link [id]) s = no .claimLost [match c.partner with
            | .a => 0#8
            | .b => 1#8]) ∧
        (r.claimant = none → r.offered.has c = false →
          exec (.claim c.link [id]) s = no .notOffered []) ∧
        (r.claimant = none → r.offered.has c = true →
          (cabinetLimit a.power ≤ a.channelsInUse ∨ a.bearer.limit c ≤ a.channelsRouted c) →
          exec (.claim c.link [id]) s = no .noChannel [])))

/-- ANSWER_NEXT claims the first call in register order that is offered to the centre, exactly as CLAIM would:
the record, the channel and its crosspoint connection, the line's tone, the reply, which carries the call id
and the channel, and CALL_TAKEN to the partner. It is refused HANDOVER_ACTIVE to a centre that is handing
over, NO_CALL_WAITING when no call is offered to it and NO_CHANNEL when no channel can be had (R111 to R113,
R130, R133, R161). That the order to the crosspoint stands before the tone's is the model's choice (assumption
48). -/
def Obligations.AnswerNextClaimsFirst : Prop :=
  ∀ (s : State) (c : Centre), s.admits c.link Command.answerNext .calls →
    let a := s.heard c.link
    let no (code : ReplyCode) : Host.Outcome State Fault Refusal :=
      .next (a.answered c.link Command.answerNext code [])
    ((a.centre c).duty = .handingOver → exec (.answerNext c.link []) s = no .handoverActive) ∧
    ((a.centre c).duty ≠ .handingOver → (∀ r ∈ a.records, r.offered.has c = false) →
      exec (.answerNext c.link []) s = no .noCallWaiting) ∧
    (∀ k : Fin a.registerOrder.length, (a.centre c).duty ≠ .handingOver →
      a.registerOrder[k].offered.has c = true →
      (∀ j : Fin a.registerOrder.length, j.val < k.val → a.registerOrder[j].offered.has c = false) →
      let r := a.registerOrder[k]
      ((cabinetLimit a.power ≤ a.channelsInUse ∨ a.bearer.limit c ≤ a.channelsRouted c) →
        exec (.answerNext c.link []) s = no .noChannel) ∧
      (∀ ch : ChannelId, a.channelsInUse < cabinetLimit a.power →
        a.channelsRouted c < a.bearer.limit c → a.channel ch = .free →
        (∀ j : ChannelId, j.val < ch.val → a.channel j ≠ .free) →
        ∃ t, exec (.answerNext c.link []) s = .next t ∧
          t = { a with records := t.records, channels := t.channels, lines := t.lines,
                       orders := t.orders, linkA := t.linkA, linkB := t.linkB } ∧
          t.records = (a.records.map fun q => if q.id = r.id then
            { q with
              state := .connected, claimant := some c, channel := some ch, offered := .empty,
              origin := none, flags := { q.flags with orphan := false }, connect := some a.tick,
              longCall := false,
              longTimer := some { length := a.timers.longCall * 1000,
                                  due := a.clock - a.subTick + a.timers.longCall * 1000 },
              longWaits := false, escalation := none, overdueTimer := none, transferTimer := none,
              claimedOnce := true } else q) ∧
          t.channels = a.channels.set ch (.connected r.line c r.id) ∧
          (∀ n, n ≠ r.line → t.line n = a.line n) ∧
          (a.recordOfLine r.line = some r → (a.line r.line).condition = .inCall →
            t.lines = a.lines.set r.line { condition := .inCall, tone := .none } ∧
            t.orders = a.orders ++ [.makePoint ch r.line c] ++
              (if (a.line r.line).tone = .none then [] else [.tone r.line .none])) ∧
          t.link c.link =
            ((a.answered c.link Command.answerNext .ok [BitVec.ofFin r.id, byte ch.val]).link
              c.link).leave r.id none a.tick ∧
          t.link c.partner.link =
            (if r.offered.has c.partner then
              (a.link c.partner.link).leave r.id
                (if a.isLost c.partner.link then none else some (.callTaken r.id r.line c)) a.tick
            else if r.origin = some c.partner then
              (a.informed c.partner.link (.callTaken r.id r.line c)).link c.partner.link
            else a.link c.partner.link)))

/-- HOLD frees the channel of a CONNECTED call of the requester, breaks its connection and gives the line the
tone HOLD; RETRIEVE connects a HELD one again on the lowest FREE channel, and sends a LONG_CALL that waited
for it. Both are refused as any command on a claimed call is, and WRONG_STATE for a call that is not CONNECTED,
or not HELD; RETRIEVE is refused NO_CHANNEL when none can be had (R98, R114, R115, R117, R130). That the reply
stands before the LONG_CALL, and the crosspoint's order before the tone's, are the model's choices (assumptions 24
and 48). -/
def Obligations.HoldAndRetrieve : Prop :=
  ∀ (s : State) (c : Centre) (id : Byte) (r : CallRecord) (ch : ChannelId),
    let a := s.heard c.link
    let known : Prop := id ≠ 0 ∧ a.recordById id.toFin = some r ∧ r.claimant = some c
    let stands : Prop := known ∧ a.recordOfLine r.line = some r ∧ (a.line r.line).condition = .inCall
    (s.admits c.link Command.hold .calls →
      (∀ code ∈ a.claimedRefusal c id,
        exec (.hold c.link [id]) s = .next (a.answered c.link Command.hold code [])) ∧
      (known → r.state ≠ .connected →
        exec (.hold c.link [id]) s = .next (a.answered c.link Command.hold .wrongState []))) ∧
    (s.admits c.link Command.retrieve .calls →
      (∀ code ∈ a.claimedRefusal c id,
        exec (.retrieve c.link [id]) s = .next (a.answered c.link Command.retrieve code [])) ∧
      (known → r.state ≠ .held →
        exec (.retrieve c.link [id]) s = .next (a.answered c.link Command.retrieve .wrongState [])) ∧
      (known → r.state = .held →
        (cabinetLimit a.power ≤ a.channelsInUse ∨ a.bearer.limit c ≤ a.channelsRouted c) →
        exec (.retrieve c.link [id]) s = .next (a.answered c.link Command.retrieve .noChannel []))) ∧
    (s.admits c.link Command.hold .calls → stands → r.state = .connected → r.channel = some ch →
      a.channel ch = .connected r.line c r.id →
      ∃ t, exec (.hold c.link [id]) s = .next t ∧
        t = { (a.answered c.link Command.hold .ok []) with
          records := t.records, channels := t.channels, lines := t.lines, orders := t.orders } ∧
        t.records = (a.records.map fun q => if q.id = r.id then
          { q with state := .held, channel := none } else q) ∧
        t.channels = a.channels.set ch .free ∧
        t.lines = a.lines.set r.line { condition := .inCall, tone := .hold } ∧
        t.orders = a.orders ++ [.breakPoint ch r.line] ++
          (if (a.line r.line).tone = .hold then [] else [.tone r.line .hold])) ∧
    (s.admits c.link Command.retrieve .calls → stands → r.state = .held →
      a.channelsInUse < cabinetLimit a.power → a.channelsRouted c < a.bearer.limit c →
      a.channel ch = .free → (∀ k : ChannelId, k.val < ch.val → a.channel k ≠ .free) →
      let told : Bool := r.longWaits && !r.longCall
      let b := a.answered c.link Command.retrieve .ok [byte ch.val]
      let b := if told then b.informed c.link (.longCall r.id r.line
          ((a.tick - r.connect.getD r.arrival).toNat / 100)) else b
      ∃ t, exec (.retrieve c.link [id]) s = .next t ∧
        t = { b with
          records := t.records, channels := t.channels, lines := t.lines, orders := t.orders } ∧
        t.records = (a.records.map fun q => if q.id = r.id then
          { q with state := .connected, channel := some ch, longCall := q.longCall || told,
                   longWaits := q.longWaits && !told } else q) ∧
        t.channels = a.channels.set ch (.connected r.line c r.id) ∧
        t.lines = a.lines.set r.line { condition := .inCall, tone := .none } ∧
        t.orders = a.orders ++ [.makePoint ch r.line c] ++
          (if (a.line r.line).tone = .none then [] else [.tone r.line .none]))

/-- RELEASE of a call the requester holds: the record leaves the register, its channel is freed, CALL_ENDED
with RELEASED goes to the claimant after the reply, and the line is PARKED with the tone CLEAR and its park
timer running. From a full register the first overflow entry is promoted to a new record with the next id from the counter that
nothing holds: resolved and first offered at once when the entry holds a capture result, and OVERDUE with
CALL_OVERDUE when its overdue moment has passed. A requester that is handing over and releases its last claimed call completes its handover. It
is refused as any command on a claimed call is, and WRONG_STATE for a claimed one that is neither CONNECTED nor
HELD (R39, R58, R84, R88, R91, R92, R98, R106, R107, R110, R116, R123). That the reply stands before the notice, that an
overdue moment met exactly has passed, the tone's order before the receiver's, the order of the records that a
completing link leaves, and the crosspoint's order before the tone's are the model's choices (assumptions 24, 19,
35, 42 and 48). -/
def Obligations.ReleaseParksLine : Prop :=
  ∀ (s : State) (c : Centre) (id : Byte) (r : CallRecord),
    s.admits c.link Command.release .calls →
    let a := s.heard c.link
    let no (code : ReplyCode) : Host.Outcome State Fault Refusal :=
      .next (a.answered c.link Command.release code [])
    (∀ code ∈ a.claimedRefusal c id, exec (.release c.link [id]) s = no code) ∧
    (id ≠ 0 → a.recordById id.toFin = some r → r.claimant = some c →
      ¬(r.state = .connected ∨ r.state = .held) → exec (.release c.link [id]) s = no .wrongState) ∧
    (id ≠ 0 → a.recordById id.toFin = some r → r.claimant = some c →
      (r.state = .connected ∨ r.state = .held) →
      (∀ ch ∈ r.channel, a.channel ch = .connected r.line c r.id) →
      ((a.centre c).duty = .handingOver → InvIds a ∧ InvCalls a ∧ InvLines a ∧ InvDuty a) →
      let b := a.answered c.link Command.release .ok []
      let park := a.timers.parkNotice * 1000
      let parked : LineUnit :=
        { condition := .parked (some { length := park, due := a.clock + park }) false a.tick
          tone := .clear }
      ((a.records.length < 16 ∨ a.overflow = []) →
        exec (.release c.link [id]) s = .next (b.ended r .released parked none)) ∧
      (∀ e ∈ a.overflow.head?, 16 ≤ a.records.length → InvIds a → e.line ≠ r.line →
        a.recordOfLine e.line = none →
        let new := a.promotedId r
        new ≠ 0 ∧ (∀ p ∈ a.records, p.id ≠ r.id → new ≠ p.id) ∧ (∀ p ∈ a.abandoned, new ≠ p.id) ∧
          exec (.release c.link [id]) s = .next (b.ended r .released parked (some (a.promoted e new)))))

/-- TRANSFER of a call the requester holds to a usable partner: the channel is freed, the record is OFFERED to
the partner alone with the requester as its transfer origin, the transfer timer runs for the escalation time,
the partner gets a CALL_OFFER and the line the tone HOLD. A requester that is handing over and transfers its last
claimed call completes its handover. It is refused as any command on a claimed call is, WRONG_STATE for a
claimed one that is neither CONNECTED nor HELD, and PARTNER_UNAVAILABLE when the partner is not usable (R98,
R105, R114, R118, R123). The order of the records that a completing link leaves, and the crosspoint's order before
the tone's, are the model's choices (assumptions 42 and 48); that the record keeps its connect tick is its
inference (assumption 29). -/
def Obligations.TransferOffersPartner : Prop :=
  ∀ (s : State) (c : Centre) (id : Byte) (r : CallRecord),
    s.admits c.link Command.transfer .calls →
    let a := s.heard c.link
    let no (code : ReplyCode) : Host.Outcome State Fault Refusal :=
      .next (a.answered c.link Command.transfer code [])
    (∀ code ∈ a.claimedRefusal c id, exec (.transfer c.link [id]) s = no code) ∧
    (id ≠ 0 → a.recordById id.toFin = some r → r.claimant = some c →
      (¬(r.state = .connected ∨ r.state = .held) → exec (.transfer c.link [id]) s = no .wrongState) ∧
      ((r.state = .connected ∨ r.state = .held) → a.usable c.partner = false →
        exec (.transfer c.link [id]) s = no .partnerUnavailable)) ∧
    (id ≠ 0 → a.recordById id.toFin = some r → r.claimant = some c → a.recordOfLine r.line = some r →
      (a.line r.line).condition = .inCall → (r.state = .connected ∨ r.state = .held) →
      a.usable c.partner = true →
      ((a.centre c).duty = .handingOver → InvIds a ∧ InvCalls a ∧ InvLines a ∧ InvDuty a) →
      (∀ ch ∈ r.channel, a.channel ch = .connected r.line c r.id) →
      let moved (q : CallRecord) : CallRecord :=
        { q with
          state := .offered, offered := CentreSet.empty.add c.partner, claimant := none, channel := none,
          origin := some c, longTimer := none, longWaits := false,
          flags := { q.flags with
            unsupervised := (a.group r.line.group).health = .silent
            doubtful := (a.group r.line.group).health = .pathFault } }
      let b := (a.told c.partner.link (.notice (.callOffer (offerOf (moved r))))).answered c.link
        Command.transfer .ok []
      let given : State :=
        { b with
          records := a.records.map fun q => if q.id = r.id then
            { moved q with
              transferTimer := some { length := a.timers.escalate * 1000,
                                      due := a.clock + a.timers.escalate * 1000 } } else q
          channels := match r.channel with
            | some ch => a.channels.set ch .free
            | none => a.channels
          lines := a.lines.set r.line { condition := .inCall, tone := .hold }
          orders := a.orders ++ (match r.channel with
            | some ch => [.breakPoint ch r.line]
            | none => []) ++ (if (a.line r.line).tone = .hold then [] else [.tone r.line .hold]) }
      exec (.transfer c.link [id]) s = .next (given.handoverChecked (some c)))

/-- RING_POST of an IDLE line reserves the lowest FREE channel for the requester, rings the line and starts the
ring timer; CANCEL_RING by the ringing link and the ring timer's expiry stop the ring, free the channel and
make the line IDLE, and the expiry alone sends RING_UNANSWERED. RING_POST is refused BAD_VALUE for no line,
LINE_NOT_FITTED, LINE_BUSY with the line's call id or 0, POWER_LIMIT in RESERVE and NO_CHANNEL; CANCEL_RING
BAD_VALUE, LINE_NOT_FITTED, WRONG_STATE for a line that does not ring and NOT_CLAIMANT when the partner rings
it (R42, R44, R45, R130). -/
def Obligations.RingsStartAndEnd : Prop :=
  ∀ (s : State) (c : Centre) (b : Byte) (n : LineId) (ch : ChannelId),
    let a := s.heard c.link
    let u := a.line n
    (s.admits c.link Command.ringPost .calls →
      let no (code : ReplyCode) (fields : List Byte) : Host.Outcome State Fault Refusal :=
        .next (a.answered c.link Command.ringPost code fields)
      (64 ≤ b.toNat → exec (.ringPost c.link [b]) s = no .badValue []) ∧
      (lineOfNat b.toNat = some n →
        (u.condition = .notFitted → exec (.ringPost c.link [b]) s = no .lineNotFitted []) ∧
        (∀ r ∈ a.recordOfLine n, u.condition = .inCall →
          exec (.ringPost c.link [b]) s = no .lineBusy [BitVec.ofFin r.id]) ∧
        (u.condition ≠ .notFitted → u.condition ≠ .idle → u.condition ≠ .inCall →
          exec (.ringPost c.link [b]) s = no .lineBusy [0#8]) ∧
        (u.condition = .idle → a.power = .reserve →
          exec (.ringPost c.link [b]) s = no .powerLimit []) ∧
        (u.condition = .idle → a.power ≠ .reserve →
          (cabinetLimit a.power ≤ a.channelsInUse ∨ a.bearer.limit c ≤ a.channelsRouted c) →
          exec (.ringPost c.link [b]) s = no .noChannel []))) ∧
    (s.admits c.link Command.cancelRing .calls →
      let no (code : ReplyCode) : Host.Outcome State Fault Refusal :=
        .next (a.answered c.link Command.cancelRing code [])
      (64 ≤ b.toNat → exec (.cancelRing c.link [b]) s = no .badValue) ∧
      (lineOfNat b.toNat = some n →
        (u.condition = .notFitted → exec (.cancelRing c.link [b]) s = no .lineNotFitted) ∧
        (u.condition ≠ .notFitted → u.condition.ring? = none →
          exec (.cancelRing c.link [b]) s = no .wrongState) ∧
        (∀ x ∈ u.condition.ring?, x.1 = c.partner →
          exec (.cancelRing c.link [b]) s = no .notClaimant))) ∧
    (s.admits c.link Command.ringPost .calls → lineOfNat b.toNat = some n →
      a.line n = { condition := .idle, tone := .none } → a.power ≠ .reserve →
      a.channelsInUse < cabinetLimit a.power → a.channelsRouted c < a.bearer.limit c →
      a.channel ch = .free → (∀ k : ChannelId, k.val < ch.val → a.channel k ≠ .free) →
      exec (.ringPost c.link [b]) s = .next
        ({ a with
            channels := a.channels.set ch (.reserved n c)
            lines := a.lines.set n
              { condition := .ringing { length := a.timers.ring * 1000,
                                        due := a.clock + a.timers.ring * 1000 } c ch
                tone := .none }
            orders := a.orders ++ [Order.ring n true] }.answered c.link Command.ringPost .ok [byte ch.val])) ∧
    (s.admits c.link Command.cancelRing .calls → lineOfNat b.toNat = some n →
      (a.line n).condition.ring? = some (c, ch) → (a.line n).tone = .none → a.channel ch = .reserved n c →
      exec (.cancelRing c.link [b]) s = .next
        ({ a with
            channels := a.channels.set ch .free
            lines := a.lines.set n { condition := .idle, tone := .none }
            orders := a.orders ++ [Order.ring n false] }.answered c.link Command.cancelRing .ok [])) ∧
    ((s.line n).condition.ring? = some (c, ch) → (s.line n).tone = .none →
      s.channel ch = .reserved n c →
      exec (.ringTimerExpiry n) s = .next
        ({ s with
            channels := s.channels.set ch .free
            lines := s.lines.set n { condition := .idle, tone := .none }
            orders := [.ring n false] }.informed c.link (.ringUnanswered n)))

/-- DISMISS removes the abandoned entry that holds the id, and OVERFLOWED with it when the list becomes empty;
an id of 0 is refused BAD_VALUE, one that a live call holds WRONG_STATE, and any other NO_SUCH_CALL (R95,
R96). -/
def Obligations.DismissRemovesEntry : Prop :=
  ∀ (s : State) (c : Centre) (id : Byte), s.admits c.link Command.dismiss .calls →
    let a := s.heard c.link
    let kept := a.abandoned.filter fun e => e.id ≠ id.toFin
    (id = 0 → exec (.dismiss c.link [id]) s = .next (a.answered c.link Command.dismiss .badValue [])) ∧
    (id ≠ 0 → kept ≠ a.abandoned →
      exec (.dismiss c.link [id]) s = .next
        ({ a with abandoned := kept, overflowed := a.overflowed && !kept.isEmpty }.answered c.link
          Command.dismiss .ok [])) ∧
    (id ≠ 0 → kept = a.abandoned → (∃ r ∈ a.records, r.id = id.toFin) →
      exec (.dismiss c.link [id]) s = .next (a.answered c.link Command.dismiss .wrongState [])) ∧
    (id ≠ 0 → kept = a.abandoned → (∀ r ∈ a.records, r.id ≠ id.toFin) →
      exec (.dismiss c.link [id]) s = .next (a.answered c.link Command.dismiss .noSuchCall []))

/-- HANDOVER_REQUEST of an ACTIVE link with a usable partner: the reply is OK, every call offered to the link is
offered to its partner instead, with CALL_WITHDRAWN HANDOVER to the link and a CALL_OFFER to a partner that
was not offered it yet, and the link is HANDING_OVER while it claims a call; with no call claimed the handover
completes at once with HANDOVER_DONE and the link STANDBY. A link that is handing over is refused
HANDOVER_ACTIVE, a STANDBY one WRONG_STATE, and one whose partner is not usable PARTNER_UNAVAILABLE (R105,
R122, R123, R161). That the reply stands before HANDOVER_DONE is the model's choice (assumption 24). -/
def Obligations.HandoverRequestMovesOffers : Prop :=
  ∀ (s : State) (c : Centre), s.admits c.link Command.handoverRequest .calls →
    let a := s.heard c.link
    let no (code : ReplyCode) : Host.Outcome State Fault Refusal :=
      .next (a.answered c.link Command.handoverRequest code [])
    let command := Instr.handoverRequest c.link []
    ((a.centre c).duty = .handingOver → exec command s = no .handoverActive) ∧
    ((a.centre c).duty = .standby → exec command s = no .wrongState) ∧
    ((a.centre c).duty = .active → a.usable c.partner = false → exec command s = no .partnerUnavailable) ∧
    ((a.centre c).duty = .active → a.usable c.partner = true →
      (InvIds a → InvCalls a → InvLines a →
        let moves := a.registerOrder.filter fun r => r.offered.has c
        let becomes (r : CallRecord) : CallRecord :=
          { r with
            offered := CentreSet.empty.add c.partner
            flags := if r.offered.has c.partner then r.flags else
              { r.flags with
                unsupervised := (a.group r.line.group).health = .silent
                doubtful := (a.group r.line.group).health = .pathFault } }
        let queue := moves.foldl
          (fun k r => k.leave r.id (some (.callWithdrawn r.id r.line .handover)) a.tick)
          ((a.answered c.link Command.handoverRequest .ok []).link c.link)
        ∃ t, exec command s = .next t ∧
          t.link c.link = (if a.claimsAny c then queue
            else (queue.enqueue (.notice .handoverDone) false).pump a.tick) ∧
          t.link c.partner.link = (a.offeredAll c.partner.link
            ((moves.filter fun r => !r.offered.has c.partner).map becomes)).link c.partner.link ∧
          t = { a with records := t.records, linkA := t.linkA, linkB := t.linkB,
                       centreA := t.centreA, centreB := t.centreB } ∧
          t.centre c.partner = a.centre c.partner ∧
          t.centre c = { a.centre c with
            duty := if a.claimsAny c then .handingOver else .standby } ∧
          t.records = a.records.map fun r => if r.offered.has c then becomes r else r) ∧
      ((∀ r ∈ a.records, r.offered.has c = false) →
        exec command s = .next
          (if a.claimsAny c then
            (a.setCentre c { a.centre c with duty := .handingOver }).answered c.link
              Command.handoverRequest .ok []
          else
            ((a.setCentre c { a.centre c with duty := .standby }).answered c.link
              Command.handoverRequest .ok []).informed c.link .handoverDone)))

/-- RESUME returns a STANDBY link to ACTIVE; a link so made usable is offered every WAITING call, and every
ORPHAN or escalated OFFERED one it was not offered, and their CALL_OFFERs enter its queue in register order.
A link that is not heard takes no offers, and with no link usable after it a STANDBY partner that is heard is called
back. An ACTIVE link is answered OK with no change, and one that is handing over HANDOVER_ACTIVE (R104 to R108,
R125). That the reply stands before the offers is the model's choice (assumption 24). -/
def Obligations.ResumeReturnsToDuty : Prop :=
  ∀ (s : State) (c : Centre), s.admits c.link Command.resume .calls →
    let a := s.heard c.link
    let b := (a.setCentre c { a.centre c with duty := .active }).answered c.link Command.resume .ok []
    ((a.centre c).duty = .handingOver →
      exec (.resume c.link []) s = .next (a.answered c.link Command.resume .handoverActive [])) ∧
    ((a.centre c).duty = .active →
      exec (.resume c.link []) s = .next (a.answered c.link Command.resume .ok [])) ∧
    ((a.centre c).duty = .standby → (a.centre c).health.heard = true →
      ((∀ r ∈ a.records, r.dueTo c = false) → exec (.resume c.link []) s = .next b) ∧
      (InvIds a → InvCalls a → InvLines a →
        exec (.resume c.link []) s = .next
          { b.offeredAll c.link ((a.registerOrder.filter (·.dueTo c)).map (a.asOffered · c)) with
            records := a.records.map fun r => if r.dueTo c then a.asOffered r c else r })) ∧
    ((a.centre c).duty = .standby → (a.centre c).health.heard = false →
      let d := c.partner
      let calls : Bool := (a.centre d).duty = .standby && (a.centre d).health.heard
      (calls = false → exec (.resume c.link []) s = .next b) ∧
      (calls = true → InvIds a → InvCalls a → InvLines a →
        exec (.resume c.link []) s = .next (b.calledBack d)))

/-! ### Maintenance and provisioning -/

/-- SET_SERVICE OUT of a line in IDLE, FAULT or PARKED makes it OUT_OF_SERVICE with no tone and its entry OUT,
and SET_SERVICE IN of a line OUT_OF_SERVICE makes it IDLE, its entry IN and its classifier as after a reset;
both queue the entry's store write and report the line's condition to the links whose watch filter passes it.
A line already there is answered OK with no change; one in use is refused LINE_BUSY, one not fitted
LINE_NOT_FITTED, and a write the store queue cannot accept STORE_BUSY. A line above 63 or a service value above 1 is
refused BAD_VALUE (R32, R47, R48, R150). That the reply stands before the notice, and the tone's order before the
store's, are the model's choices (assumptions 24 and 48). -/
def Obligations.SetServiceChangesLine : Prop :=
  ∀ (s : State) (l : Link) (b x : Byte) (n : LineId),
    s.admits l Command.setService .maintain →
    let a := s.heard l
    let u := a.line n
    let reply (code : ReplyCode) (fields : List Byte) : State := a.answered l Command.setService code fields
    let ok := reply .ok []
    let out := exec (.setServiceOut l [b, 1#8]) s
    let back := exec (.setServiceIn l [b, 0#8]) s
    ((64 ≤ b.toNat ∨ 1 < x.toNat) →
      exec (.setServiceOut l [b, x]) s = .next (reply .badValue []) ∧
      exec (.setServiceIn l [b, x]) s = .next (reply .badValue [])) ∧
    (lineOfNat b.toNat = some n →
    (u.condition = .notFitted →
      out = .next (reply .lineNotFitted []) ∧ back = .next (reply .lineNotFitted [])) ∧
    (u.condition = .outOfService → out = .next ok) ∧
    (u.condition ≠ .notFitted → u.condition ≠ .outOfService → u.condition.isTesting = false →
      back = .next ok) ∧
    (u.condition.isTesting = true →
      out = .next (reply .lineBusy [0#8]) ∧ back = .next (reply .lineBusy [0#8])) ∧
    ((u.condition = .queued ∨ u.condition.ring?.isSome = true) → out = .next (reply .lineBusy [0#8])) ∧
    (∀ r ∈ a.recordOfLine n, u.condition = .inCall →
      out = .next (reply .lineBusy [BitVec.ofFin r.id])) ∧
    ((u.condition.code = 2 ∨ u.condition.code = 6 ∨ u.condition.code = 7) →
      (a.canWrite (.line n) = false → out = .next (reply .storeBusy [])) ∧
      (a.canWrite (.line n) = true → out = .next
        (({ ok with
            lines := a.lines.set n { condition := .outOfService, tone := .none }
            entries := a.entries.set n { a.entry n with inService := false }
            orders := a.orders ++ (if u.tone = Tone.none then [] else [Order.tone n Tone.none]) }.queueWrite
              (.line n)).reported n (.lineCondition n .outOfService (a.classifier n).leaky)))) ∧
    (u.condition = .outOfService → u.tone = .none →
      (a.canWrite (.line n) = false → back = .next (reply .storeBusy [])) ∧
      (a.canWrite (.line n) = true → back = .next
        (({ ok with
            lines := a.lines.set n { condition := .idle, tone := .none }
            entries := a.entries.set n { a.entry n with inService := true }
            classifiers := a.classifiers.set n
              { confirmed := .unknown, candidate := none, count := 0,
                rTrack := (a.profile (a.entry n).profile).term, rLast := none, marginal := 0,
                leaky := false } }.queueWrite
              (.line n)).reported n (.lineCondition n .idle false)))))

/-- TEST_LINE of a line in IDLE, FAULT or OUT_OF_SERVICE, in a group with no test that is not SILENT (nor in
PATH_FAULT, for the kinds that measure), in NORMAL power: the line is TESTING, the hook sense is armed, the
test record runs with its 2000 ms limit, and its first order is placed when the port is free; an INSULATION
test first switches the test source on and dwells 500 ms. The refusals of R137 stand in their order, BAD_VALUE for
a line above 63 or no kind of test among them, and none changes anything but the requester's queue (R136 to
R141). -/
def Obligations.TestLineStartsTest : Prop :=
  ∀ (s : State) (l : Link) (b k : Byte) (n : LineId) (kind : TestKind) (p : PriorCondition),
    s.admits l Command.testLine .maintain →
    let a := s.heard l
    let g := n.group
    let reply (code : ReplyCode) (fields : List Byte) : State := a.answered l Command.testLine code fields
    let out := exec (.testLine l [b, k]) s
    ((64 ≤ b.toNat ∨ 2 < k.toNat) → out = .next (reply .badValue [])) ∧
    (lineOfNat b.toNat = some n → kindOfNat k.toNat = some kind →
    ((a.line n).condition = .notFitted → out = .next (reply .lineNotFitted [])) ∧
    ((a.line n).condition ≠ .notFitted → (a.line n).condition ≠ .inCall →
      (a.line n).condition.prior? = none → out = .next (reply .lineBusy [0#8])) ∧
    (∀ r ∈ a.recordOfLine n, (a.line n).condition = .inCall →
      out = .next (reply .lineBusy [BitVec.ofFin r.id])) ∧
    ((a.line n).condition.prior? = some p →
      ((a.group g).health = .silent → out = .next (reply .testRefused [0#8])) ∧
      ((a.group g).health = .pathFault → kind ≠ .pathCheck → out = .next (reply .testRefused [1#8])) ∧
      ((a.group g).health ≠ .silent → (a.group g).health = .scanning ∨ kind = .pathCheck →
        (a.power ≠ .normal → out = .next (reply .testRefused [2#8])) ∧
        (a.power = .normal → (a.test g).isSome = true → out = .next (reply .testBusy [])) ∧
        (a.power = .normal → a.test g = none → (a.line n).tone = .none →
          ((a.group g).port = none → (a.group g).scanWaiting = none) →
          let dwells : Bool := kind = .insulation
          let places : Bool := (a.group g).port.isNone && !dwells
          let record : TestRecord :=
            { line := n, kind := kind, requester := l
              phase := match kind with
                | .openWire => .measureBefore
                | .insulation => .sourceDwell
                | .pathCheck => .measureMain
              start := a.tick
              limit := { length := 2000, due := a.clock - a.subTick + 2000 }
              dwell := if dwells then some { length := 500, due := a.clock + 500 } else none
              order := if dwells then .none else if places then .placed else .waiting
              samples := [] }
          let order : PlacedOrder :=
            { owner := .test, settle := (a.group g).settle, fate := .live
              timer := if (a.group g).settle = .ready then
                some { length := 20, due := a.clock + 20 } else none }
          out = .next
            { (reply .ok [byte n.val, byte kind.code]) with
              lines := a.lines.set n { condition := .testing p, tone := .none }
              tests := a.tests.set g (some record)
              groups := if places then a.groups.set g { a.group g with port := some order } else a.groups
              orders := a.orders ++ [Order.hookSense n true] ++
                (if dwells then [Order.testSource n true] else []) ++
                (if places then [Order.measure g (.position n.pos) .main] else []) }))))

/-- WRITE_DIRECTORY of a line OUT_OF_SERVICE sets every field of its entry but the service state, clears
DEFAULTED and queues the store write; a change of profile resets the tracked resistance, LEAKY and the
candidate. A value out of range is refused BAD_VALUE, a line not fitted LINE_NOT_FITTED, one in another
condition LINE_IN_SERVICE, and a write the queue cannot accept STORE_BUSY (R19, R70, R71). -/
def Obligations.WriteDirectorySetsEntry : Prop :=
  ∀ (s : State) (l : Link) (body : List Byte) (k : Nat) (raw : RawEntry),
    s.admits l Command.writeDirectory .configure → readWriteDirectory body = some (k, raw) →
    let a := s.heard l
    let out := exec (.writeDirectory l body) s
    let reply (code : ReplyCode) : State := a.answered l Command.writeDirectory code []
    ((64 ≤ k ∨ 1 < raw.identPresent ∨ 2 < raw.cway ∨ 1 < raw.home ∨ 3 < raw.profile ∨ 2 < raw.naming ∨
        16 < raw.label.length ∨ ∃ ch ∈ raw.label, ch < 32 ∨ 126 < ch) → out = .next (reply .badValue)) ∧
    (∀ n ∈ lineOfNat k, ∀ e ∈ checkEntry raw,
      ((a.line n).condition = .notFitted → out = .next (reply .lineNotFitted)) ∧
      ((a.line n).condition ≠ .notFitted → (a.line n).condition ≠ .outOfService →
        out = .next (reply .lineInService)) ∧
      ((a.line n).condition = .outOfService → a.canWrite (.line n) = false →
        out = .next (reply .storeBusy)) ∧
      ((a.line n).condition = .outOfService → a.canWrite (.line n) = true →
        let old := a.entry n
        let new : Entry := { e with inService := old.inService, defaulted := false }
        e.sect.toNat = raw.sect ∧ e.marker.toNat = raw.marker ∧ e.cway.code = raw.cway ∧
        centreCode e.home = raw.home ∧ e.profile.val = raw.profile ∧ e.naming.code = raw.naming ∧
        e.label.map BitVec.toNat = raw.label ∧
        e.expected.map BitVec.toNat = (if raw.identPresent = 1 then some raw.ident else none) ∧
        out = .next (({ a with
          entries := a.entries.set n new
          classifiers := if new.profile = old.profile then a.classifiers
            else a.classifiers.set n
              { a.classifier n with
                rTrack := (a.profile new.profile).term, leaky := false, candidate := none,
                count := 0 } }.queueWrite (.line n)).answered l Command.writeDirectory .ok [])))

/-- WRITE_PROFILE of a profile that no line in service names: the profile takes the fields, which must lie in
the ranges and relations of R18, with its confirm counts held to 1 to 31, every line that names it has its tracked resistance set to the new R_term, LEAKY and
its candidate cleared, the store write is queued, and the reply carries the fields as written. The refusals
are BAD_VALUE, PROFILE_IN_USE and STORE_BUSY (R18, R19, R72). -/
def Obligations.WriteProfileSetsProfile : Prop :=
  ∀ (s : State) (l : Link) (body : List Byte) (k : Nat) (q : Profile),
    s.admits l Command.writeProfile .configure → readWriteProfile body = some (k, q) →
    let a := s.heard l
    let out := exec (.writeProfile l body) s
    let reply (code : ReplyCode) : State := a.answered l Command.writeProfile code []
    let related : Bool := 1 ≤ q.short ∧ q.short < q.offMax ∧ q.offMax < 2000 ∧ 2000 ≤ q.leak ∧
      q.leak ≤ q.term ∧ q.term ≤ q.idleHi ∧ q.idleHi ≤ 65000 ∧ q.idleHi < q.opn ∧ q.opn ≤ 65534 ∧
      q.hyst ≤ 1000
    ((4 ≤ k ∨ related = false) → out = .next (reply .badValue)) ∧
    (∀ p ∈ profileOfNat k, related = true →
      ((∃ n, (a.entry n).inService = true ∧ (a.entry n).profile = p) →
        out = .next (reply .profileInUse)) ∧
      ((∀ n, (a.entry n).profile = p → (a.entry n).inService = false) →
        (a.canWrite (.profile p) = false → out = .next (reply .storeBusy)) ∧
        (a.canWrite (.profile p) = true →
          let held (v : Nat) : Nat := max 1 (min v 31)
          let new : Profile :=
            { q with
              cOffhook := held q.cOffhook, cIdle := held q.cIdle, cShort := held q.cShort
              cOpen := held q.cOpen, cForeign := held q.cForeign }
          ∃ t, out = .next t ∧
            t = ({ a with
              profiles := a.profiles.set p new
              classifiers := t.classifiers }.queueWrite (.profile p)).answered l
                Command.writeProfile .ok (4#8 :: profileBytes p new) ∧
            (∀ n, t.classifier n = if (a.entry n).profile = p then
              { a.classifier n with
                rTrack := q.term, leaky := false, candidate := none, count := 0 }
              else a.classifier n))))

/-- SET_GROUP: the settle mode and the path-check enable take effect at once; with a lower fitted count the
lines above it, all OUT_OF_SERVICE, are NOT_FITTED, and with a higher one the lines gained are OUT_OF_SERVICE
with their entries OUT; a check position not below the count becomes 0; with a count of 0 the group makes no
passes and no probes, and from 0 it resumes from its health. The write of the group item is queued, and the
reply carries the settings. A value out of range is refused BAD_VALUE, a line in use LINE_IN_SERVICE and a
write the queue cannot accept STORE_BUSY (R2, R6, R50, R73). What becomes of the scanner's orders, waiting or
on the port, is the model's inference where the count leaves their line or is 0, and its choice where path
checking alone is turned off; that the order to measure stands before the store's is its choice (assumptions 22, 34
and 48). -/
def Obligations.SetGroupRefitsLines : Prop :=
  ∀ (s : State) (l : Link) (b0 b1 b2 b3 : Byte), s.admits l Command.setGroup .configure →
    let a := s.heard l
    let out := exec (.setGroup l [b0, b1, b2, b3]) s
    let reply (code : ReplyCode) : State := a.answered l Command.setGroup code []
    ((7 < b0.toNat ∨ 8 < b1.toNat ∨ 3 < b2.toNat ∨ 1 < b3.toNat) → out = .next (reply .badValue)) ∧
    (∀ g ∈ groupOfNat b0.toNat, ∀ mode ∈ settleOfNat b2.toNat, b1.toNat ≤ 8 → b3.toNat ≤ 1 →
      let r := a.group g
      let was := r.fitted.val
      let f := b1.toNat
      let loses (n : LineId) : Bool := n.group = g ∧ f ≤ n.pos.val ∧ n.pos.val < was
      let gains (n : LineId) : Bool := n.group = g ∧ was ≤ n.pos.val ∧ n.pos.val < f
      ((∃ n, loses n = true ∧ (a.line n).condition ≠ .outOfService) → out = .next (reply .lineInService)) ∧
      ((∀ n, loses n = true → (a.line n).condition = .outOfService) →
        (a.canWrite (.group g) = false → out = .next (reply .storeBusy)) ∧
        (a.canWrite (.group g) = true →
          let unfit (p : ScanPurpose) : Bool := match p with
            | .feed | .probe => false
            | .line q | .checkMain q | .checkSecond q _ => f ≤ q.val
          let after (o : PlacedOrder) : PlacedOrder := match o.owner with
            | .test => o
            | .scanner p =>
              if o.fate = .stale then o else if f = 0 then { o with fate := .stale }
              else if unfit p then { o with fate := .lostFit } else o
          let set : GroupRecord := { r with settle := mode, pathCheck := b3 == 1#8 }
          let refitted : GroupRecord :=
            if f = was then set
            else { set with
              fitted := Fin.ofNat 9 f, port := r.port.map after
              checkPos := if f ≤ r.checkPos.val then 0 else r.checkPos }
          let interval : Nat := match a.power with
            | .normal => 100
            | .economy => 400
            | .reserve => 1000
          let passing : GroupRecord :=
            { refitted with
              pass := .inPass, passTimer := some { length := interval, due := a.clock + interval }
              scanWaiting := some .feed, restartPass := false }
          let feed : PlacedOrder :=
            { owner := .scanner .feed, settle := mode, fate := .live
              timer := if mode = .ready then some { length := 20, due := a.clock + 20 } else none }
          ∃ t, out = .next t ∧
            (∀ n, t.line n = { a.line n with
              condition := if loses n then .notFitted else if gains n then .outOfService
                else (a.line n).condition }) ∧
            (∀ n, t.entry n = if gains n then { a.entry n with inService := false } else a.entry n) ∧
            (let done (x : GroupRecord) (placed : List Order) : State :=
              ({ a with
                groups := a.groups.set g x, lines := t.lines, entries := t.entries
                orders := a.orders ++ placed }.queueWrite (.group g)).answered l Command.setGroup .ok
                  [b1, b2, b3]
            (f = was → t = done set []) ∧
            (f ≠ was → f = 0 →
              t = done { refitted with
                pass := .stopped, passTimer := none, probeDelay := none, scanWaiting := none
                restartPass := false } []) ∧
            (f ≠ was → was = 0 → r.health = .silent →
              t = done { refitted with
                probeDelay := some { length := 100 * 2 ^ min r.probeCount 6,
                                     due := a.clock + 100 * 2 ^ min r.probeCount 6 } } []) ∧
            (f ≠ was → was = 0 → r.health ≠ .silent →
              (r.port ≠ none → t = done passing []) ∧
              (r.port = none → (∀ x ∈ a.test g, x.order ≠ .waiting) →
                t = done { passing with scanWaiting := none, port := some feed }
                  [.measure g .feed .main])) ∧
            (f ≠ was → f ≠ 0 → was ≠ 0 → (∀ p ∈ r.scanWaiting, unfit p = false) →
              t = done refitted [])) ∧
            t = ({ a with
                groups := t.groups, lines := t.lines, entries := t.entries, orders := t.orders,
                tests := t.tests, writes := t.writes }.answered l Command.setGroup .ok [b1, b2, b3]) ∧
            (∀ h, h ≠ g → t.group h = a.group h ∧ t.test h = a.test h) ∧
            (t.group g).fitted.val = f ∧ (t.group g).settle = mode ∧
            (t.group g).pathCheck = (b3 == 1#8) ∧ (t.group g).health = r.health ∧
            (t.group g).vf = r.vf ∧ (t.group g).noSampleRun = r.noSampleRun ∧
            (t.group g).discrepancyRun = r.discrepancyRun ∧
            (t.group g).agreementRun = r.agreementRun ∧ (t.group g).probeCount = r.probeCount ∧
            t.writePending (.group g) = true ∧
            (f ≠ was → ∀ p ∈ (t.group g).scanWaiting, unfit p = false) ∧
            (let held : Pos := if f ≠ was ∧ f ≤ r.checkPos.val then 0 else r.checkPos
            ((∀ p ∈ r.scanWaiting, unfit p = false) → (t.group g).checkPos = held) ∧
            ((t.group g).checkPos = held ∨
              ∃ q : Pos, q.val < f ∧ (t.group g).checkPos = positionAfter (Fin.ofNat 9 f) q ∧
                ((t.group g).scanWaiting = some (.checkMain q) ∨
                  (t.group g).placed = some (.checkMain q)))))))

/-- SET_ACCEPTANCE, SET_CALL_TIMERS and SET_BEARER set their working copies at once, the timers and limits held
to their ranges, and reply with the working copy; each write takes its place in the store write queue: at the
head it is handed to the store, behind a WAITING write of the same item it replaces that write's content, and
each of the three is refused STORE_BUSY, with no change, when a full queue holds no WAITING write of its item
(R62, R63, R69, R74, R75, R129). That the reply of SET_ACCEPTANCE carries the pattern, mask and enable of its
four entries in index order is an inference of the model (assumption 39). -/
def Obligations.SettingsQueueStoreWrites : Prop :=
  ∀ (s : State) (l : Link) (b0 b1 b2 b3 b4 b5 b6 b7 b8 b9 : Byte),
    let a := s.heard l
    let held (lo hi v : Nat) : Nat := max lo (min v hi)
    let timers : CallTimers :=
      { escalate := held 5 60 (nat2 b0 b1), overdue := held 30 300 (nat2 b2 b3)
        longCall := held 300 7200 (nat2 b4 b5), parkNotice := held 60 3600 (nat2 b6 b7)
        ring := held 10 120 (nat2 b8 b9) }
    let bearer : Bearer := { limitA := held 1 6 b0.toNat, limitB := held 1 6 b1.toNat }
    let full (i : Item) : Prop := 4 ≤ a.writes.length ∧ a.writes.any (·.waitsFor i) = false
    (s.admits l Command.setAcceptance .configure →
      (3 < b0.toNat ∨ 1 < b7.toNat →
        exec (.setAcceptance l [b0, b1, b2, b3, b4, b5, b6, b7]) s =
          .next (a.answered l Command.setAcceptance .badValue [])) ∧
      (∀ i ∈ profileOfNat b0.toNat, b7.toNat ≤ 1 → a.canWrite .acceptance = true →
        let entry : Acceptance :=
          { pattern := BitVec.ofNat 24 (nat3 b1 b2 b3), mask := BitVec.ofNat 24 (nat3 b4 b5 b6)
            enable := b7 == 1#8 }
        let table : Vector Acceptance 4 := a.acceptance.set i entry
        exec (.setAcceptance l [b0, b1, b2, b3, b4, b5, b6, b7]) s = .next
          (({ a with acceptance := table }.queueWrite .acceptance).answered l Command.setAcceptance .ok
            (table.toList.flatMap fun (x : Acceptance) =>
              bytes3 x.pattern.toNat ++ bytes3 x.mask.toNat ++ [if x.enable then 1#8 else 0#8]))) ∧
      (b0.toNat ≤ 3 → b7.toNat ≤ 1 → full .acceptance →
        exec (.setAcceptance l [b0, b1, b2, b3, b4, b5, b6, b7]) s =
          .next (a.answered l Command.setAcceptance .storeBusy []))) ∧
    (s.admits l Command.setCallTimers .configure →
      (a.canWrite .timers = true →
        exec (.setCallTimers l [b0, b1, b2, b3, b4, b5, b6, b7, b8, b9]) s = .next
          (({ a with timers := timers }.queueWrite .timers).answered l Command.setCallTimers .ok
            (bytes2 timers.escalate ++ bytes2 timers.overdue ++ bytes2 timers.longCall ++
              bytes2 timers.parkNotice ++ bytes2 timers.ring))) ∧
      (full .timers →
        exec (.setCallTimers l [b0, b1, b2, b3, b4, b5, b6, b7, b8, b9]) s =
          .next (a.answered l Command.setCallTimers .storeBusy []))) ∧
    (s.admits l Command.setBearer .configure →
      let waits : WriteEntry := { item := .bearer, content := .bearer bearer, writing := none }
      (full .bearer →
        exec (.setBearer l [b0, b1]) s = .next (a.answered l Command.setBearer .storeBusy [])) ∧
      (a.writes = [] →
        exec (.setBearer l [b0, b1]) s = .next
          ({ a with
            bearer := bearer
            writes := [{ item := .bearer, content := .bearer bearer
                         writing := some { length := 1000, due := a.clock + 1000 } }]
            orders := a.orders ++ [Order.storeWrite .bearer (.bearer bearer)] }.answered l
              Command.setBearer .ok [byte bearer.limitA, byte bearer.limitB])) ∧
      (a.writes ≠ [] → a.writes.length < 4 → a.writes.any (·.waitsFor .bearer) = false →
        exec (.setBearer l [b0, b1]) s = .next
          ({ a with
            bearer := bearer
            writes := a.writes ++ [waits] }.answered
              l Command.setBearer .ok [byte bearer.limitA, byte bearer.limitB])) ∧
      (a.writes.any (·.waitsFor .bearer) = true →
        exec (.setBearer l [b0, b1]) s = .next
          ({ a with
            bearer := bearer
            writes := a.writes.map fun (w : WriteEntry) =>
              if w.waitsFor .bearer then { w with content := .bearer bearer } else w }.answered l
                Command.setBearer .ok [byte bearer.limitA, byte bearer.limitB])))

/-! ### Restart and start-up -/

/-- RESTART opens the restart window: its reply is queued and nothing else happens yet. It is queued in a full
queue too, when that ends in a message of a lower class (R158, R165). -/
def Obligations.RestartOpensWindow : Prop :=
  ∀ (s : State) (l : Link), s.admits l Command.restart .configure →
    let a := s.heard l
    ((a.link l).queue.length < 8 ∨ ∃ x ∈ (a.link l).queue.getLast?, 0 < x.msg.cls) →
    exec (.restart l []) s = .next { (a.answered l Command.restart .ok []) with window := some l }

/-- The end of the restart window is the warm restart: RESTART's reply ends its transmission, is cut by a link
clear, is dropped by the loss of its link, or is discarded by a queue full of replies. Then every call, channel,
capture and test is gone, the queues and scores are as after a cold start with RESYNC set on every link, the
groups begin anew with their settings kept, the lines take their condition from the directory with no tone and a
reset classifier, and the ticks start again from 0. The directory, the inputs, the power state, the load report and
its marks, and the store write queue are kept. A call no centre had claimed is abandoned, in register order, and
after them every overflow entry, in its order, with a new id; a full abandoned list discards its oldest entry for
each, with OVERFLOWED set; and the abandoned entries' ticks are counted from the restart (R16, R32, R51, R54, R84, R93 to R95, R102, R135, R148, R154, R156, R158, R165,
R166, R174, R175). That a tick of its own begins at the restart, and that the id of an overflow entry is taken before
a full list discards its oldest, are the model's choices (assumptions 2 and 41); that the
loss of the link then finds no call to act on, and that a discarded reply restarts at once, is its inference
(assumption 13). -/
def Obligations.WarmRestartClearsLiveState : Prop :=
  ∀ (x s : State) (l : Link) (e : Instr) (frame bytes : List Byte),
    (s = x ∧ x.window = some l ∧ (x.link l).transmit = .sending (.reply Command.restart .ok []) frame ∧
        (e = .transmissionComplete l ∨ e = .breakEnd l ∧ (x.link l).receive = .brk false) ∨
      s = x ∧ x.window = some l ∧ (x.link l).holdsRestartReply = true ∧
        (∃ c ∈ l.centre?, (x.centre c).health ≠ .lost ∧
          (e = .silenceTimerExpiry c ∧ (x.centre c).silence.isSome = true ∨
            e = .breakLong c ∧ (x.link l).receive = .brk false ∨
            (e = .frameTimerExpiry l ∧ (x.link l).receive.inFrame = true ∨
              e = .frameBad l bytes ∧ judgeFrame bytes = .bad ∧ (x.link l).receive.inBreak = false) ∧
              256 ≤ (x.centre c).score + 8)) ∨
      s = x.heard l ∧ e = .restart l [] ∧ x.admits l Command.restart .configure ∧
        (s.link l).queue.length = 8 ∧ (∀ m ∈ (s.link l).queue, m.msg.cls = 0) ∧
        (s.link l).transmit ≠ .idle ∧ (s.link l).holdsRestartReply = false) →
    ∃ t, exec e x = .next t ∧
      t = { s with
        orders := t.orders, window := none, tick := 0, subTick := 0, records := [], overflow := []
        abandoned := t.abandoned, overflowed := t.overflowed, idCounter := 1
        channels := .replicate 6 .free, tests := .replicate 8 none, captures := .replicate 64 none
        receivers := .replicate 8 { listening := none, waiting := [] }
        groups := t.groups, lines := t.lines, classifiers := t.classifiers
        linkA := t.linkA, linkB := t.linkB, linkS := t.linkS
        centreA := t.centreA, centreB := t.centreA } ∧
      (∀ k : Link, t.link k =
        { receive := .hunt, queue := [], submissions := 0, transmit := .idle, lostOffers := [],
          resync := true, cleared := false, watch := { mode := .all, ranges := [] } }) ∧
      (∀ c : Centre, t.centre c =
        { score := 0, health := .good, recovery := 0
          silence := some { length := 5000, due := s.clock + 5000 }, duty := .active }) ∧
      (∀ n, t.line n =
        { condition := if (s.group n.group).fitted.val ≤ n.pos.val then .notFitted
            else if (s.entry n).inService then .idle else .outOfService
          tone := .none }) ∧
      (∀ n, t.classifier n =
        { confirmed := .unknown, candidate := none, count := 0
          rTrack := (s.profile (s.entry n).profile).term, rLast := none, marginal := 0
          leaky := false }) ∧
      (∀ g, let r := t.group g
        r.fitted = (s.group g).fitted ∧ r.settle = (s.group g).settle ∧
        r.pathCheck = (s.group g).pathCheck ∧ r.health = .scanning ∧ r.vf = none ∧ r.noSampleRun = 0 ∧
        r.discrepancyRun = 0 ∧ r.agreementRun = 0 ∧ r.checkPos = 0 ∧ r.probeCount = 0 ∧
        r.probeDelay = none ∧
        ((s.group g).fitted = 0 → r.pass = .stopped ∧ r.ordering = false ∧ r.restartPass = false) ∧
        ((s.group g).fitted ≠ 0 → (s.group g).port = none → r.pass = .inPass ∧ r.placed = some .feed) ∧
        ((s.group g).fitted ≠ 0 → (s.group g).port ≠ none →
          r.pass = .stopped ∧ r.ordering = false ∧ r.restartPass = true)) ∧
      (InvIds s →
        let calls := (s.registerOrder.filter (·.state.unclaimed)).map s.leftBehind
        let entered (x : List AbandonedEntry × CallId) (e : OverflowEntry) : List AbandonedEntry × CallId :=
          let id := issuedId (x.1.map (·.id)) x.2
          (abandonedWith x.1 (s.overflowLeft e id), if id = 255 then 1 else id + 1)
        t.overflowed = (s.overflowed ||
          decide (16 < s.abandoned.length + calls.length + s.overflow.length)) ∧
        t.abandoned = (s.overflow.foldl entered (calls.foldl abandonedWith s.abandoned, s.idCounter)).1.map fun e =>
          { e with arrival := e.arrival - s.tick, ended := e.ended - s.tick })

/-- COLD_START: ticks from 0, the inputs at the levels read with no debounce running and the power state they
form, STARTING with the first read handed to the store, every group and profile at its default and no pass,
every line NOT_FITTED with its entry OUT, nothing in the register, the channels FREE, the links GOOD and ACTIVE with empty queues
and RESYNC clear. The crosspoint is open, and the store keeps its copies, but for one whose write was under way
(R1, R17, R18, R68, R77, R78, R103, R126, R166, R168, R170). That the commands that wait are kept, the values of the
items before their reads, and that the crosspoint is opened by a break for each CONNECTED channel, are the
model's choices (assumptions 3, 8 and 45); what the store is known to hold is its inference (assumption 7). -/
def Obligations.ColdStartValues : Prop :=
  ∀ (s : State) (mainsOk batteryLow key : Bool),
    ∃ t, exec (.coldStart mainsOk batteryLow key) s = .next t ∧
      t.pending = s.pending ∧ t.tick = 0 ∧
      t.mainsOk = { level := mainsOk, taken := mainsOk, debounce := none } ∧
      t.batteryLow = { level := batteryLow, taken := batteryLow, debounce := none } ∧
      t.key = { level := key, taken := key, debounce := none } ∧
      t.power = (if mainsOk then .normal else if batteryLow then .reserve else .economy) ∧
      (∃ ld ∈ t.load, ld.read = 1) ∧ t.window = none ∧
      t.orders = ((List.finRange 6).filterMap fun ch => match s.channel ch with
        | .connected n _ _ => some (.breakPoint ch n)
        | _ => none) ++ [.storeRead .acceptance] ∧
      (∀ g, t.group g =
        { fitted := 8, settle := .ready, pathCheck := true, health := .scanning, vf := none,
          noSampleRun := 0, discrepancyRun := 0, agreementRun := 0, checkPos := 0, probeCount := 0,
          pass := .stopped, passTimer := none, probeDelay := none, port := none, scanWaiting := none,
          restartPass := false }) ∧
      (∀ n, t.line n = { condition := .notFitted, tone := .none } ∧ t.capture n = none ∧
        (t.entry n).inService = false ∧ (t.classifier n).confirmed = .unknown) ∧
      (∀ p, t.profile p =
        { short := 100, offMax := 1800, term := 10000, leak := 6000, idleHi := 12000, opn := 40000,
          hyst := 300, cOffhook := 3, cIdle := 5, cShort := 10, cOpen := 10, cForeign := 5 }) ∧
      t.timers = { escalate := 15, overdue := 60, longCall := 1800, parkNotice := 300, ring := 30 } ∧
      t.bearer = { limitA := 4, limitB := 4 } ∧ (∀ i : Fin 4, t.acceptance[i].enable = false) ∧
      t.records = [] ∧ t.overflow = [] ∧ t.abandoned = [] ∧ t.overflowed = false ∧ t.idCounter = 1 ∧
      (∀ ch, t.channel ch = .free) ∧ (∀ g, t.test g = none ∧ (t.receiver g).listening = none) ∧
      t.writes = [] ∧ (∀ i, (∀ w ∈ s.writes.head?, w.writing.isSome = true → w.item.index ≠ i) →
        t.stored[i] = s.stored[i]) ∧
      (∀ w ∈ s.writes.head?, w.writing.isSome = true → t.stored[w.item.index] = none) ∧
      (∀ l : Link, t.link l =
        { receive := .hunt, queue := [], submissions := 0, transmit := .idle, lostOffers := [],
          resync := false, cleared := false, watch := { mode := .all, ranges := [] } }) ∧
      (∀ c : Centre, (t.centre c).score = 0 ∧ (t.centre c).health = .good ∧
        (t.centre c).duty = .active ∧ (t.centre c).silence.isSome = true)

/-- STORE_READ_COMPLETION and STORE_READ_TIMEOUT, short of the last read: a good item becomes the working copy and
a bad one takes its default and is named in the report; the next read is handed to the store with its timer.
A line's entry on a position that is not fitted is OUT, and the line takes its condition and a reset
classifier from it, its tone as it was. With its last fitted line read the group starts its first pass: the pass timer runs and the
feed reference order is placed. A completion that comes after its read has ended is ignored (R32, R68, R78, R80,
R171 to R173). What the stored copy is known to hold is an inference of the model (assumption 7); that the order to
measure stands before the store's is its choice (assumption 48). -/
def Obligations.LoadReadSetsItem : Prop :=
  ∀ (s : State) (ld : Load) (rep : ReadReport), s.load = some ld → 1 ≤ ld.read → ld.read < 79 →
    let item := Item.ofNumber ld.read
    let good := judgeRead item rep
    let next (r : LoadReport) : Option Load :=
      some { read := ld.read + 1, timer := { length := 200, due := s.clock + 200 }, report := r }
    exec (.storeReadCompletion true rep) s = .next { s with orders := [] } ∧
    (good = none →
      exec (.storeReadCompletion false rep) s = exec .storeReadTimeout s) ∧
    (∃ t, exec (.storeReadCompletion false rep) s = .next t ∧
      t.load = next (if good.isSome then ld.report else ld.report.name item) ∧
      t.orders.getLast? = some (.storeRead (Item.ofNumber (ld.read + 1))) ∧
      ((∀ n, item ≠ .line n) → t.orders = [.storeRead (Item.ofNumber (ld.read + 1))]) ∧
      t.stored = s.stored.set item.index good ∧
      (∀ x ∈ good, (∀ n, item ≠ .line n) → t.content item = x) ∧
      (good = none → (∀ n, item ≠ .line n) → t.content item = (match item with
        | .acceptance => .acceptance (.replicate 4 { pattern := 0, mask := 0, enable := false })
        | .timers => .timers { escalate := 15, overdue := 60, longCall := 1800, parkNotice := 300,
                               ring := 30 }
        | .bearer => .bearer { limitA := 4, limitB := 4 }
        | .profile _ => .profile
            { short := 100, offMax := 1800, term := 10000, leak := 6000, idleHi := 12000, opn := 40000,
              hyst := 300, cOffhook := 3, cIdle := 5, cShort := 10, cOpen := 10, cForeign := 5 }
        | .group _ => .group 8 .ready true
        | .line _ => t.content item)) ∧
      (∀ n, item = .line n →
        s.LineRead n good t ∧
        (n.pos.val + 1 ≠ (s.group n.group).fitted.val →
          t.groups = s.groups ∧ t.orders = [.storeRead (Item.ofNumber (ld.read + 1))]) ∧
        (n.pos.val + 1 = (s.group n.group).fitted.val → (s.group n.group).port = none →
          s.test n.group = none →
          t.groups = s.groups.set n.group (s.firstPass n.group) ∧
          t.orders = [.measure n.group .feed .main, .storeRead (Item.ofNumber (ld.read + 1))]))) ∧
    (∃ t, exec .storeReadTimeout s = .next t ∧ t.load = next (ld.report.name item) ∧
      t.stored = s.stored.set item.index none)

/-- The 79th read, good, bad or timed out, ends the load: the part leaves STARTING, the load report is fixed, and
LOAD_DEFAULTED is pending for all three links exactly when the report names an item. It is the read of line 63, whose
entry, condition and classifier it sets as the read of any line does; with it a group 7 whose eight positions are
fitted starts its first pass. A completion that comes after the read has ended is ignored (R32, R68, R78, R80, R171 to
R173). What the stored copy is known to hold is an inference of the model (assumption 7). -/
def Obligations.LoadEndFormsReport : Prop :=
  ∀ (s : State) (ld : Load) (rep : ReadReport) (e : Instr) (good : Option ItemContent),
    s.load = some ld → ld.read = 79 →
    exec (.storeReadCompletion true rep) s = .next { s with orders := [] } ∧
    (e = .storeReadCompletion false rep ∧ good = judgeRead (.line 63) rep ∨
        e = .storeReadTimeout ∧ good = none →
      let report :=
        if good = none then { ld.report with lines := ld.report.lines + 1 } else ld.report
      let named : Bool := 0 < report.lines ∨ report.profiles ≠ 0 ∨ report.groups ≠ 0 ∨
        report.acceptance = true ∨ report.timers = true ∨ report.bearer = true
      ∃ t, exec e s = .next t ∧
        t = { s with
          orders := t.orders, load := none, report := some report, reportPendingA := named
          reportPendingB := named, reportPendingS := named, groups := t.groups, entries := t.entries
          lines := t.lines, classifiers := t.classifiers, stored := s.stored.set (Item.line 63).index good } ∧
        s.LineRead 63 good t ∧
        ((s.group 7).fitted.val ≠ 8 → t.groups = s.groups ∧ t.orders = []) ∧
        ((s.group 7).fitted.val = 8 → (s.group 7).port = none → s.test 7 = none →
          t.groups = s.groups.set 7 (s.firstPass 7) ∧ t.orders = [.measure 7 .feed .main]))

/-! ### Supply -/

/-- INPUT_CHANGE starts the input's debounce timer at its first departure from the taken value and stops it at
its return; an input that stays away keeps the timer running. DEBOUNCE_EXPIRY takes the input's level.
MAINS_OK and BATTERY_LOW form the power state: NORMAL with the mains, ECONOMY without, RESERVE without and with
a low battery; a changed state is told to all three links, and one that leaves NORMAL ends every running test
ABORTED_POWER, with its drives switched back, its line in its prior condition and TEST_RESULT to its requester
(R49, R143, R145, R168, R169). That POWER_STATE is sent before these and the tests end from group 0 to group 7 is
the model's choice (assumption 44); the milliseconds of the elapsed time are its inference (assumption 30). -/
def Obligations.InputsFormPowerState : Prop :=
  ∀ (s : State) (i : Input) (level : Bool),
    let k := s.input i
    let period : Nat := match i with
      | .mainsOk => 2000
      | .batteryLow => 2000
      | .key => 50
    let b := { s with orders := [] }.setInput i { k with taken := k.level, debounce := none }
    let power : PowerState := if b.mainsOk.taken then .normal
      else if b.batteryLow.taken then .reserve else .economy
    exec (.inputChange i level) s = .next ({ s with orders := [] }.setInput i
      { k with
        level := level
        debounce := if level = k.taken then none
          else if k.debounce.isSome then k.debounce
          else some { length := period, due := s.clock + period } }) ∧
    (k.debounce = none → exec (.debounceExpiry i) s = .next { s with orders := [] }) ∧
    (k.debounce.isSome = true →
      (i = .key → exec (.debounceExpiry i) s = .next b) ∧
      (i ≠ .key → power = s.power → exec (.debounceExpiry i) s = .next b) ∧
      (i ≠ .key → power ≠ s.power →
        let told := { b with power := power }.announced
          (.powerState power s.power b.mainsOk.taken b.batteryLow.taken)
        (s.power ≠ .normal → exec (.debounceExpiry i) s = .next told) ∧
        (s.power = .normal → (∀ g, s.testStands g) →
          exec (.debounceExpiry i) s = .next
            ((List.finRange 8).foldl (fun s g => s.testStopped g (.aborted .power)) told)) ∧
        (s.power = .normal → ∃ t, exec (.debounceExpiry i) s = .next t ∧ t.power = power ∧
          (∀ g, t.test g = none) ∧ t.records = s.records ∧ t.channels = s.channels)))

/-! ### Scanning -/

/-- PASS_TIMER_EXPIRY stops the timer, and starts the next pass if the last has ended: the pass timer runs for
the scan interval of the power state and the feed reference order is placed when the port is free.
PROBE_DELAY_EXPIRY has a probe of position 0 placed (R3, R7, R8, R14). -/
def Obligations.PassAndProbeOrders : Prop :=
  ∀ (s : State) (g : GroupId),
    let r := s.group g
    let free : Bool := r.port = none ∧ ∀ t ∈ s.test g, t.order ≠ .waiting
    let interval : Nat := match s.power with
      | .normal => 100
      | .economy => 400
      | .reserve => 1000
    let passing : GroupRecord :=
      { r with pass := .inPass, passTimer := some { length := interval, due := s.clock + interval }
               restartPass := false }
    (r.passTimer = none → exec (.passTimerExpiry g) s = .next { s with orders := [] }) ∧
    (r.passTimer.isSome = true → r.pass ≠ .idleWait →
      exec (.passTimerExpiry g) s =
        .next { s with orders := [], groups := s.groups.set g { r with passTimer := none } }) ∧
    (r.passTimer.isSome = true → r.pass = .idleWait → r.fitted ≠ 0 →
      (free = true → exec (.passTimerExpiry g) s = .next
        { s with
          orders := [.measure g .feed .main]
          groups := s.groups.set g
            { passing with port := some (s.newOrder g (.scanner .feed)), scanWaiting := none } }) ∧
      (r.port ≠ none → exec (.passTimerExpiry g) s = .next
        { s with orders := [], groups := s.groups.set g { passing with scanWaiting := some .feed } })) ∧
    (r.probeDelay = none → exec (.probeDelayExpiry g) s = .next { s with orders := [] }) ∧
    (r.probeDelay.isSome = true →
      (free = true → exec (.probeDelayExpiry g) s = .next
        { s with
          orders := [.measure g (.position 0) .main]
          groups := s.groups.set g
            { r with probeDelay := none, port := some (s.newOrder g (.scanner .probe))
                     scanWaiting := none } }) ∧
      (r.port ≠ none → exec (.probeDelayExpiry g) s = .next
        { s with
          orders := []
          groups := s.groups.set g { r with probeDelay := none, scanWaiting := some .probe } }))

/-- The end of a scanner order. With a sample: a feed reference sets Vf and the pass goes on to its first
line. The sample of a line enters debounce by its class: FOREIGN when it lies more than 50 codes above Vf, else
the raw class of its resistance, which is kept; an IDLE one is tracked first, with LINE_CONDITION when LEAKY
changes; of a RINGING line only OFFHOOK enters; and one of a line not fitted, out of service or under test is
discarded. The pass then goes on to its next line; after the last one it ends when path checking is off or no
line is IDLE, and the two samples of a path check, MAIN and then CHECK, otherwise end it, with a discrepancy or
an agreement counted when both orders gave one. Every sample sets the no-sample run to 0. A pass that ends with its
pass timer expired is followed by the next at once. The outcome of an order whose line has lost fit is discarded
and the pass goes on, or ends with a path check; any outcome of an order that a warm restart, a fitted count of 0 or
an ended test has left behind is discarded, and the pass that a warm restart owes starts. The freed port takes
the order of a test that waits before the scanner's (R2, R3, R7 to R11, R13, R16, R20 to R31, R143). That the orders
of a confirmed class stand before the order to measure, and that a scanner order which waits is placed even when its
line has become TESTING or OUT_OF_SERVICE, are the model's choices (assumptions 48 and 43); what becomes of the
orders of a line that has lost fit is its inference (assumption 22). -/
def Obligations.ScanSamplesMovePass : Prop :=
  ∀ (s : State) (e : Instr) (g : GroupId) (p : Pos) (x m : Code × Code),
    let r := s.group g
    let n := lineAt g p
    let k := s.classifier n
    let freed (r : GroupRecord) : State :=
      { s with orders := [], groups := s.groups.set g { r with port := none } }
    let sampled : State := freed { r with noSampleRun := 0 }
    ((s.orderEnds g e).isSome = true → ∀ o ∈ r.port,
      (o.fate = .stale →
        (r.restartPass = false → exec e s = .next ((freed r).served g)) ∧
        (r.restartPass = true → r.fitted ≠ 0 →
          exec e s = .next (State.served { freed r with groups := s.groups.set g ((freed r).passBegun g) } g))) ∧
      (o.fate = .lostFit → r.restartPass = false →
        (o.owner = .scanner (.line p) →
          ∃ t, exec e s = .next t ∧ (freed r).GoesOn g (p.val + 1) t) ∧
        (o.owner = .scanner (.checkMain p) ∨ o.owner = .scanner (.checkSecond p none) ∨
            o.owner = .scanner (.checkSecond p (some m)) →
          exec e s = .next ((freed r).passEnds g)))) ∧
    (s.orderEnds g e = some (some x) →
      (s.scannerHolds g .feed →
        ∃ t, exec e s = .next t ∧ (freed { r with noSampleRun := 0, vf := some x.1 }).GoesOn g 0 t) ∧
      (s.scannerHolds g (.line p) →
        let profile := s.profileOf n
        let ohms := resistance x.1 x.2
        let raw := rawClass profile k ohms
        let foreign : Bool := match r.vf with
          | some v => v.toNat + 50 < x.1.toNat
          | none => false
        let measured : Classifier := { k with rLast := some ohms }
        let track := tracked profile k.rTrack ohms
        let leaky : Bool := track < profile.leak
        let seen : State := sampled.setClassifier n measured
        let idle : State := sampled.setClassifier n { measured with rTrack := track, leaky := leaky }
        let after : State :=
          match (s.line n).condition with
          | .notFitted | .outOfService | .testing _ => sampled
          | .ringing _ _ _ =>
            if foreign then sampled else if raw = .offhook then seen.debounceLine n .offhook else seen
          | k0 =>
            if foreign then sampled.debounceLine n .foreign
            else if raw = .idle then
              (if leaky = k.leaky then idle
                else idle.reported n (.lineCondition n k0 leaky)).debounceLine n .idle
            else seen.debounceLine n raw
        ∃ t, exec e s = .next t ∧ after.GoesOn g (p.val + 1) t) ∧
      (s.scannerHolds g (.checkMain p) →
        exec e s = .next (sampled.scanOrdered g (.checkSecond p (some x)))) ∧
      (s.scannerHolds g (.checkSecond p none) → exec e s = .next (sampled.passEnds g)) ∧
      (s.scannerHolds g (.checkSecond p (some m)) →
        let differs (u v : Code) : Bool := 25 < (u.toNat - v.toNat) + (v.toNat - u.toNat)
        let worse : Bool := differs m.1 x.1 || differs m.2 x.2
        let disc := if worse then min (r.discrepancyRun + 1) 255 else 0
        let agree := if worse then 0 else min (r.agreementRun + 1) 255
        let counted : State :=
          freed { r with noSampleRun := 0, discrepancyRun := disc, agreementRun := agree }
        let changed (health : GroupHealth) : State :=
          freed { r with noSampleRun := 0, discrepancyRun := 0, agreementRun := 0, health := health }
        (r.health = .scanning → disc ≠ 2 → exec e s = .next (counted.passEnds g)) ∧
        (r.health = .scanning → disc = 2 →
          exec e s = .next (((changed .pathFault).announced (.pathFault g true)).passEnds g)) ∧
        (r.health = .pathFault → agree ≠ 4 → exec e s = .next (counted.passEnds g)) ∧
        (r.health = .pathFault → agree = 4 →
          exec e s = .next (((changed .scanning).announced (.pathFault g false)).passEnds g))))

/-- ORDER_READY_TIMEOUT, and a result without its valid flag: a no-sample adds to the no-sample run and the pass
goes on: from a feed reference to its first line, or to its end in a group that holds no Vf; from a line to the
next; from the first order of a path check to its second, and from the second to the end of the pass, with nothing
counted. The third in a row makes the group SILENT, with GROUP_SILENT to all three links and the first probe
delay of 100 ms, and ends a running test ABORTED_GROUP (R3 to R5, R7, R8, R10, R13, R14, R49, R143, R146). That
GROUP_SILENT is sent before the TEST_RESULT is the model's choice (assumption 49); the milliseconds of the elapsed
time are its inference (assumption 30). -/
def Obligations.NoSamplesSilenceGroup : Prop :=
  ∀ (s : State) (e : Instr) (g : GroupId) (p : Pos) (m : Code × Code),
    s.orderEnds g e = some none →
    let r := s.group g
    let counted : State :=
      { s with
        orders := []
        groups := s.groups.set g { r with noSampleRun := r.noSampleRun + 1, port := none } }
    (r.noSampleRun < 2 →
      (s.scannerHolds g (.line p) → ∃ t, exec e s = .next t ∧ counted.GoesOn g (p.val + 1) t) ∧
      (s.scannerHolds g .feed → r.vf.isSome = true → ∃ t, exec e s = .next t ∧ counted.GoesOn g 0 t) ∧
      (s.scannerHolds g .feed → r.vf = none → exec e s = .next (counted.passEnds g)) ∧
      (s.scannerHolds g (.checkMain p) →
        exec e s = .next (counted.scanOrdered g (.checkSecond p none))) ∧
      (s.scannerHolds g (.checkSecond p none) ∨ s.scannerHolds g (.checkSecond p (some m)) →
        exec e s = .next (counted.passEnds g))) ∧
    (s.scannerHolds g .feed ∨ s.scannerHolds g (.line p) ∨ s.scannerHolds g (.checkMain p) ∨
        s.scannerHolds g (.checkSecond p none) ∨ s.scannerHolds g (.checkSecond p (some m)) →
      r.noSampleRun = 2 → s.testStands g →
      exec e s = .next (({ s with
        orders := []
        groups := s.groups.set g
          { r with
            noSampleRun := 3, port := none, scanWaiting := none, pass := .stopped, passTimer := none
            discrepancyRun := 0, agreementRun := 0, probeCount := 0, health := .silent
            probeDelay := some { length := 100, due := s.clock + 100 } } }.announced
              (.groupSilent g)).testStopped g (.aborted .group)))

/-- The end of a probe: a sample recovers the group, with GROUP_RECOVERED to all three links and a new pass from
the feed reference; a no-sample counts the probe and starts the next delay, doubled up to 6400 ms (R3, R7, R14,
R15). -/
def Obligations.ProbeRecoversGroup : Prop :=
  ∀ (s : State) (e : Instr) (g : GroupId) (x : Code × Code), s.scannerHolds g .probe →
    let r := s.group g
    (s.orderEnds g e = some (some x) → r.fitted ≠ 0 →
      let a := { s with
        orders := []
        groups := s.groups.set g
          { r with health := .scanning, noSampleRun := 0, probeCount := 0, port := none } }.announced
            (.groupRecovered g)
      exec e s = .next (State.served { a with groups := a.groups.set g (a.passBegun g) } g)) ∧
    (s.orderEnds g e = some none →
      let count := min (r.probeCount + 1) 255
      exec e s = .next (State.served { s with
        orders := []
        groups := s.groups.set g
          { r with
            port := none, probeCount := count
            probeDelay := some { length := 100 * 2 ^ min count 6,
                                 due := s.clock + 100 * 2 ^ min count 6 } } } g))

/-! ### Classification -/

/-- The resistance of two codes is the nearest ohm to 1000·Vc/Ic, an exact half rounded up, held at 65535, and
65535 when no current flows. Tracking moves R_track an eighth of the way to the sample, never past it and
never away from it, holds it between 2000 and R_idlehi, and leaves it where it is while the sample differs by
less than 8 ohms (R22, R26). -/
def Obligations.ResistanceMeasuredAndTracked : Prop :=
  (∀ vc ic : Code,
    let r := resistance vc ic
    let v := vc.toNat
    let i := ic.toNat
    r ≤ 65535 ∧ (i = 0 → r = 65535) ∧
    (i ≠ 0 → r < 65535 → 2 * r * i ≤ 2000 * v + i ∧ 2000 * v + i < 2 * (r + 1) * i) ∧
    (i ≠ 0 → (r = 65535 ↔ 2 * 65535 * i ≤ 2000 * v + i)) ∧
    (i ≠ 0 → r = min ((1000 * v + i / 2) / i) 65535)) ∧
  (∀ (p : Profile) (track r : Nat), 2000 ≤ p.idleHi → 2000 ≤ track → track ≤ p.idleHi →
    let t := tracked p track r
    2000 ≤ t ∧ t ≤ p.idleHi ∧
    (track ≤ r → track ≤ t ∧ t = min (track + (r - track) / 8) p.idleHi) ∧
    (r ≤ track → t ≤ track ∧ t = max (track - (track - r) / 8) 2000) ∧
    (r < track + 8 → track < r + 8 → t = track))

/-- The off-hook limit, the idle band and the raw class of a resistance by the list of R25. Under a profile whose
fields are related, 65535 is always OPEN, no resistance is both in the off-hook band and in the idle band, and
a line confirmed IDLE or OFFHOOK keeps a resistance that its class had without the hysteresis (R18, R23 to
R25). -/
def Obligations.ThresholdsClassify : Prop :=
  ∀ (p : Profile) (k : Classifier) (r : Nat),
    let off := min p.offMax (k.rTrack / 4) + (if k.confirmed = .offhook then p.hyst else 0)
    let low := if k.confirmed = .idle then max (off + 1) (3 * k.rTrack / 4 - p.hyst)
      else max (off + 1) (3 * k.rTrack / 4)
    let high := if k.confirmed = .idle then min 65534 (p.idleHi + p.hyst) else p.idleHi
    off < low ∧
    (rawClass p k r = .short ↔ r < p.short) ∧
    (rawClass p k r = .offhook ↔ p.short ≤ r ∧ r ≤ off) ∧
    (rawClass p k r = .idle ↔ p.short ≤ r ∧ low ≤ r ∧ r ≤ high) ∧
    (rawClass p k r = .opn ↔ p.short ≤ r ∧ low ≤ r ∧ high < r ∧ p.opn < r) ∧
    (rawClass p k r = .marginal ↔ p.short ≤ r ∧ off < r ∧ (r < low ∨ high < r ∧ r ≤ p.opn)) ∧
    (profileRelated p = true → k.rTrack ≤ p.idleHi → rawClass p k 65535 = .opn) ∧
    (profileRelated p = true → rawClass p { k with confirmed := .unknown } r = .idle →
      rawClass p { k with confirmed := .idle } r = .idle) ∧
    (rawClass p { k with confirmed := .unknown } r = .offhook →
      rawClass p { k with confirmed := .offhook } r = .offhook)

/-- Debounce: MARGINAL counts only itself, up to 65535; the confirmed class clears the candidate; any other class
counts up its own candidate or starts it at 1; and a candidate that reaches its confirm count becomes the
confirmed class and is handed on as a class change (R28, R29). -/
def Obligations.DebounceConfirmsClass : Prop :=
  ∀ (s : State) (n : LineId) (raw : RawClass),
    let k := s.classifier n
    let p := s.profileOf n
    (raw = .marginal → (∀ c ∈ k.candidate, k.count < confirmCount p c) →
      s.debounceLine n raw = s.setClassifier n { k with marginal := min (k.marginal + 1) 65535 }) ∧
    (∀ c ∈ raw.class?,
      (c = k.confirmed → s.debounceLine n raw = s.setClassifier n { k with candidate := none, count := 0 }) ∧
      (c ≠ k.confirmed →
        let count := if k.candidate = some c then k.count + 1 else 1
        (count < confirmCount p c →
          s.debounceLine n raw = s.setClassifier n { k with candidate := some c, count := count }) ∧
        (confirmCount p c ≤ count →
          s.debounceLine n raw =
            (s.setClassifier n { k with confirmed := c, candidate := none, count := 0 }).classChange n c)))

/-! ### Lines and calls -/

/-- PARK_TIMER_EXPIRY sets the park notice sent flag and sends HANDSET_OFF with the time that was run. SHORT, OPEN
or FOREIGN makes an IDLE line FAULT with LINE_CONDITION, and a FAULT line FAULT of the new kind with
LINE_CONDITION; an IDLE loop makes it IDLE again with FAULT_CLEARED. The same classes end a park: the timer and
the tone go, the line is IDLE, or FAULT with LINE_CONDITION, and when its park notice was sent LINE_CONDITION
with the new condition is sent as well. Each notice goes to the links whose watch filter passes the line (R35,
R36, R39, R40, R164). That a line whose park notice was sent and that becomes FAULT sends LINE_CONDITION twice
is an inference of the model (assumption 15). -/
def Obligations.LineNoticesFollowCondition : Prop :=
  ∀ (s : State) (n : LineId) (c : LoopClass) (kind : FaultKind),
    (∀ x ∈ (s.line n).condition.park?, ∀ t ∈ x.1,
      exec (.parkTimerExpiry n) s = .next
        ({ s with
          orders := []
          lines := s.lines.set n { s.line n with condition := .parked none true x.2.2 } }.reported n
            (.handsetOff n (t.length / 1000)))) ∧
    ((s.line n).condition.park?.bind (·.1) = none →
      exec (.parkTimerExpiry n) s = .next { s with orders := [] }) ∧
    (c.fault? = some kind → (s.line n).tone = .none →
      ((s.line n).condition = .idle → s.classChange n c =
        { s with lines := s.lines.set n { condition := .fault kind, tone := .none } }.reported n
          (.lineCondition n (.fault kind) (s.classifier n).leaky)) ∧
      ((s.line n).condition = .fault kind → s.classChange n .idle =
        { s with lines := s.lines.set n { condition := .idle, tone := .none } }.reported n
          (.faultCleared n kind)) ∧
      (∀ old : FaultKind, (s.line n).condition = .fault old → s.classChange n c =
        { s with lines := s.lines.set n { condition := .fault kind, tone := .none } }.reported n
          (.lineCondition n (.fault kind) (s.classifier n).leaky))) ∧
    (∀ x ∈ (s.line n).condition.park?,
      let left (k : Condition) : State :=
        { s with
          lines := s.lines.set n { condition := k, tone := .none }
          orders := s.orders ++ if (s.line n).tone = .none then [] else [.tone n .none] }
      let told (t : State) (k : Condition) : State :=
        t.reported n (.lineCondition n k (s.classifier n).leaky)
      s.classChange n .idle = (if x.2.1 then told (left .idle) .idle else left .idle) ∧
      (c.fault? = some kind →
        let lost := told (left (.fault kind)) (.fault kind)
        s.classChange n c = if x.2.1 then told lost (.fault kind) else lost))

/-- What a confirmed class does to its line. Any class on a line not fitted, out of service or under test does
nothing, and off-hook on a FAULT line first clears the fault. Off-hook on an IDLE line starts the line's
capture; with room in the register it makes an IDENTIFYING call record with the next id from the counter
that nothing holds, as is every new id, and in a full register the line is QUEUED by arrival age and OVERFLOW is sent; the tone is set
last. On-hook on an IN_CALL line ends its call CALLER_CLEARED, and SHORT, OPEN or FOREIGN LINE_LOST: the record
and its channel go, its claimant is sent CALL_ENDED, the links it is offered to and its transfer origin
CALL_WITHDRAWN, an unclaimed call is abandoned, the capture is dropped, and the line is IDLE, or FAULT with
LINE_CONDITION. A full register then promotes its first overflow entry: first offered at once when it holds a
result, OVERDUE with CALL_OVERDUE when its overdue moment has passed. A claimant that is handing over and claims
nothing else completes its handover. The same classes on a QUEUED line abandon its overflow entry with a new id.
Off-hook on a RINGING line makes a RECALL record of the ringing link, connected on the reserved channel, with the
location of the directory entry, removes the line's abandoned entries and sends CALL_TAKEN; in a full register
it first displaces the lowest-ranked unclaimed record, or else the lowest-ranked HELD one, to the overflow list
(R35 to R38, R43, R55, R58, R65, R67, R84, R85, R87 to R95, R97, R106, R107, R110, R123, R132). The tone's order
before the receiver's, the handover's end before LINE_CONDITION, the abandoned entry's id, the order in which a
completing link leaves its records, an overdue moment met exactly, and the sequence of orders to different devices
are the model's choices (assumptions 35, 36, 41, 42, 19 and 48); that a displaced call's handover is checked after
the RECALL record is made is its inference (assumption 17). -/
def Obligations.ConfirmedClassActsOnLine : Prop :=
  ∀ (s : State) (n : LineId) (c : LoopClass),
    let u := s.line n
    let t := s.classChange n c
    let heard : State :=
      { s with
        captures := s.captures.set n (some
          { arrival := s.tick, window := { length := 3000, due := s.clock - s.subTick + 3000 } })
        receivers := s.receivers.set n.group
          (match (s.receiver n.group).listening with
            | none => { s.receiver n.group with listening := some n }
            | some _ => { s.receiver n.group with waiting := (s.receiver n.group).waiting ++ [n] }) }
    let hears : List Order :=
      match (s.receiver n.group).listening with
      | none => [.listen n.group (some n)]
      | some _ => []
    let quiet : List Order := if u.tone = .none then [] else [.tone n .none]
    let next (records : List CallRecord) : CallId :=
      issuedId (records.map (·.id) ++ s.abandoned.map (·.id)) s.idCounter
    let handing (d : Centre) : Prop :=
      (s.centre d).duty = .handingOver → InvIds s ∧ InvCalls s ∧ InvLines s ∧ InvDuty s
    ((u.condition = .notFitted ∨ u.condition = .outOfService ∨ u.condition.isTesting = true) → t = s) ∧
    (∀ kind : FaultKind, u = { condition := .fault kind, tone := .none } → c = .offhook →
      t = ((s.setLine n { condition := .idle, tone := .none }).reported n
        (.faultCleared n kind)).classChange n .offhook) ∧
    (u = { condition := .idle, tone := .none } → c = .offhook → s.records.length < 16 →
      s.recordOfLine n = none → 0 < s.timers.overdue → InvIds s →
      ∃ r ∈ t.records.getLast?,
        r = CallRecord.create r.id n s.tick
          (some { length := s.timers.overdue * 1000,
                  due := s.clock - s.subTick + s.timers.overdue * 1000 }) ∧
        r.state = .identifying ∧ r.category = .emergency ∧
        r.id ≠ 0 ∧ (∀ q ∈ s.records, q.id ≠ r.id) ∧ (∀ q ∈ s.abandoned, q.id ≠ r.id) ∧
        r.id = next s.records ∧
        t = { heard with
          records := s.records ++ [r]
          idCounter := if r.id = 255 then 1 else r.id + 1
          lines := s.lines.set n { condition := .inCall, tone := .registered }
          orders := s.orders ++ hears ++ [Order.tone n .registered] }) ∧
    (u = { condition := .idle, tone := .none } → c = .offhook → 16 ≤ s.records.length →
      let older (q : OverflowEntry) : Bool := s.tick ≠ q.arrival || q.line.val ≤ n.val
      let entry : OverflowEntry := { line := n, arrival := s.tick, result := none }
      t = { heard with
        overflow := s.overflow.takeWhile older ++ [entry] ++
          s.overflow.dropWhile older
        lines := s.lines.set n { condition := .queued, tone := .wait }
        orders := s.orders ++ hears ++ [Order.tone n .wait] }.announced
          (.overflow n (s.overflow.length + 1))) ∧
    (∀ r ∈ s.recordOfLine n, u.condition = .inCall →
      (∀ ch ∈ r.channel, ∃ d, s.channel ch = .connected n d r.id) →
      (∀ d ∈ r.claimant, handing d) →
      let idle (q : Option CallRecord) : State :=
        s.ended r .callerCleared { condition := .idle, tone := .none } q
      let lost (kind : FaultKind) (q : Option CallRecord) : State :=
        (s.ended r .lineLost { condition := .fault kind, tone := .none } q).reported n
          (.lineCondition n (.fault kind) (s.classifier n).leaky)
      ((s.records.length < 16 ∨ s.overflow = []) →
        (c = .idle → t = idle none) ∧ (∀ kind ∈ c.fault?, t = lost kind none)) ∧
      (∀ e ∈ s.overflow.head?, 16 ≤ s.records.length → InvIds s → e.line ≠ n →
        s.recordOfLine e.line = none → c = .idle ∨ c.fault?.isSome = true →
        let new := s.promotedId r
        new ≠ 0 ∧ (∀ p ∈ s.records, p.id ≠ r.id → new ≠ p.id) ∧ (∀ p ∈ t.abandoned, new ≠ p.id) ∧
          (c = .idle → t = idle (some (s.promoted e new))) ∧
          (∀ kind ∈ c.fault?, t = lost kind (some (s.promoted e new))))) ∧
    (∀ e ∈ s.overflow.find? (·.line = n), u.condition = .queued → InvIds s →
      (c = .idle ∨ c.fault?.isSome = true) →
      ∃ x ∈ t.abandoned.getLast?,
        x.id ≠ 0 ∧ (∀ q ∈ s.records, q.id ≠ x.id) ∧ (∀ q ∈ s.abandoned, q.id ≠ x.id) ∧
        x.id = next s.records ∧
        x = s.overflowLeft e x.id ∧
        let dropped (condition : Condition) : State :=
          { s with
            overflow := s.overflow.filter fun q => q.line ≠ n
            idCounter := if x.id = 255 then 1 else x.id + 1
            abandoned := abandonedWith s.abandoned x
            overflowed := s.overflowed || 16 ≤ s.abandoned.length
            lines := s.lines.set n { condition := condition, tone := .none }
            orders := s.orders ++ quiet }.uncaptured n
        (c = .idle → t = dropped .idle) ∧
        (∀ kind ∈ c.fault?, t = (dropped (.fault kind)).reported n
          (.lineCondition n (.fault kind) (s.classifier n).leaky))) ∧
    (∀ x ∈ u.condition.ring?, u.tone = .none → c = .offhook → s.recordOfLine n = none → InvIds s →
      let kept := s.abandoned.filter fun e => e.line ≠ n
      let isRecall (others : List CallRecord) (r : CallRecord) : Prop :=
        r.id ≠ 0 ∧ (∀ q ∈ others, q.id ≠ r.id) ∧ (∀ q ∈ s.abandoned, q.id ≠ r.id) ∧ r.id = next others ∧
        r = { CallRecord.create r.id n s.tick none with
          category := .recall, identity := none, post := none, check := .notReceived
          location := some
            { sect := (s.entry n).sect, marker := (s.entry n).marker, cway := some (s.entry n).cway
              source := .directory, label := (s.entry n).label, defaulted := (s.entry n).defaulted }
          state := .connected, claimant := some x.1, channel := some x.2, connect := some s.tick
          longTimer := some { length := s.timers.longCall * 1000,
                              due := s.clock - s.subTick + s.timers.longCall * 1000 }
          claimedOnce := true, capture := some .notReceived }
      (s.records.length < 16 →
        ∃ r ∈ t.records.getLast?, isRecall s.records r ∧
          t = { s with
            records := s.records ++ [r]
            idCounter := if r.id = 255 then 1 else r.id + 1
            channels := s.channels.set x.2 (.connected n x.1 r.id)
            lines := s.lines.set n { condition := .inCall, tone := .none }
            abandoned := kept
            overflowed := s.overflowed && !kept.isEmpty
            orders := s.orders ++ [Order.ring n false, .makePoint x.2 n x.1] }.informed x.1.link
              (.callTaken r.id n x.1)) ∧
      (∀ v ∈ ((s.registerOrder.filter (·.state.unclaimed)).getLast?).or
          ((s.registerOrder.filter (·.state = .held)).getLast?),
        16 ≤ s.records.length → v.line ≠ n → s.recordOfLine v.line = some v →
        (∀ d ∈ v.claimant, handing d) → (v.state = .held → v.origin = none) →
        let others := s.records.filter fun q => q.id ≠ v.id
        let gone : State :=
          if v.state = .held then
            match v.claimant with
            | some d => s.informed d.link (.callWithdrawn v.id v.line .displaced)
            | none => s
          else s.withdrawnAll v .displaced
        let entry : OverflowEntry :=
          { line := v.line, arrival := v.arrival
            result := if v.category = .recall then some .notReceived else v.capture }
        let before (q : OverflowEntry) : Bool :=
          (s.tick - v.arrival).toNat < (s.tick - q.arrival).toNat ∨
            (s.tick - v.arrival).toNat = (s.tick - q.arrival).toNat ∧ q.line.val ≤ v.line.val
        ∃ r ∈ t.records.getLast?, isRecall others r ∧
          let made : State := { ((gone.announced (.overflow v.line (s.overflow.length + 1))).informed x.1.link
              (.callTaken r.id n x.1)) with
            records := others ++ [r]
            overflow := s.overflow.takeWhile before ++ [entry] ++ s.overflow.dropWhile before
            idCounter := if r.id = 255 then 1 else r.id + 1
            channels := s.channels.set x.2 (.connected n x.1 r.id)
            lines := (s.lines.set v.line { condition := .queued, tone := .wait }).set n
              { condition := .inCall, tone := .none }
            abandoned := kept
            overflowed := s.overflowed && !kept.isEmpty
            orders := s.orders ++ [Order.ring n false] ++
              (if (s.line v.line).tone = .wait then [] else [.tone v.line .wait]) ++
              [.makePoint x.2 n x.1] }
          t = made.handoverChecked v.claimant))

/-- The end of a capture: IDENTITY_BURST, a valid burst on the line its group's receiver listens to, and
WINDOW_TIMER_EXPIRY, which hands on NOT_RECEIVED, for a line the receiver listens to and for one that still waits
for it. A burst is valid when its five bytes were heard from its start and its CRC-8 agrees; it yields its section,
marker, category code and two flags. A burst that is not valid changes nothing, and neither does one on a line that
the receiver does not listen to. The line's IDENTIFYING record takes the category, check,
identity and location of the result and is offered first to its home link, else to the partner, with the
first-offer tick and the escalation timer, else it is WAITING; the freed receiver takes the oldest line that
waits, and a line that waited leaves the wait list, the others keeping their order. A result for a QUEUED line is
kept in its overflow entry (R52, R53, R56, R57, R59, R86, R105, R107). -/
def Obligations.CaptureEndOffersCall : Prop :=
  ∀ (s : State) (n : LineId) (bytes : List Byte),
    let agrees : Prop := bytes.length = 5 ∧ crc8 (bytes.take 4) = bytes.getD 4 0
    (∀ heardStart : Bool, (heardStart = false ∨ ¬ agrees ∨ (s.receiver n.group).listening ≠ some n) →
      exec (.identityBurst n bytes heardStart) s = .next { s with orders := [] }) ∧
    (agrees → ∃ b ∈ readBurst bytes true,
      let status := (bytes.getD 3 0).toNat
      b.sect = bytes.getD 0 0 ∧ b.marker.toNat = (bytes.getD 1 0).toNat * 256 + (bytes.getD 2 0).toNat ∧
      b.code.toNat = status % 4 ∧ (b.doorOpen = true ↔ status / 4 % 2 = 1) ∧
      (b.lowBattery = true ↔ status / 8 % 2 = 1)) ∧
    (∀ (e : Instr) (res : CaptureResult),
      (e = .windowTimerExpiry n ∧ (s.capture n).isSome = true ∧ res = .notReceived ∨
        e = .identityBurst n bytes true ∧ (∃ b ∈ readBurst bytes true, res = .received b) ∧
          (s.receiver n.group).listening = some n) →
      let g := n.group
      let rcv := s.receiver g
      let freed (a : State) : State :=
        { a with
          captures := s.captures.set n none
          receivers := s.receivers.set g
            (if rcv.listening = some n then { listening := rcv.waiting.head?, waiting := rcv.waiting.tail }
            else { rcv with waiting := rcv.waiting.filter fun k => k ≠ n })
          orders := if rcv.listening = some n then [.listen g rcv.waiting.head?] else [] }
      (∀ r ∈ s.recordOfLine n, s.recordById r.id = some r → r.state = .identifying → r.offered = .empty →
        r.flags.orphan = false → r.origin = none →
        (s.line n) = { condition := .inCall, tone := .registered } →
        let home := (s.entry n).home
        let resolved := r.resolved s.acceptance (s.entry n) res
        let offeredTo (c : Centre) : CallRecord :=
          { resolved with
            state := .offered, offered := CentreSet.empty.add c, firstOffer := some s.tick
            escalation := some { length := s.timers.escalate * 1000,
                                 due := s.clock + s.timers.escalate * 1000 }
            flags := { r.flags with
              unsupervised := (s.group g).health = .silent, doubtful := (s.group g).health = .pathFault } }
        let becomes (q : CallRecord) : List CallRecord :=
          s.records.map fun p => if p.id = r.id then q else p
        (∀ p ∈ s.records, p.id = r.id → p = r) →
        (s.usable home = true → exec e s = .next (freed
          ({ s with records := becomes (offeredTo home) }.informed home.link
            (.callOffer (offerOf (offeredTo home)))))) ∧
        (s.usable home = false → s.usable home.partner = true → exec e s = .next (freed
          ({ s with records := becomes (offeredTo home.partner) }.informed home.partner.link
            (.callOffer (offerOf (offeredTo home.partner)))))) ∧
        (s.usable home = false → s.usable home.partner = false → exec e s = .next (freed
          { s with records := becomes { resolved with state := .waiting } }))) ∧
      (s.recordOfLine n = none → exec e s = .next (freed
        { s with overflow := s.overflow.map fun q =>
            if q.line = n then { q with result := some res } else q })))

/-- Resolution: a burst of category code 2 is SERVICE with the lowest entry its identity hits, else EMERGENCY and
SERVICE_REFUSED; code 1 is BREAKDOWN and any other EMERGENCY, with the identity checked against the directory;
with no burst a call is EMERGENCY at the directory's location. In REPORTED mode a checked call is placed by
the burst, with the directory's carriageway and label only on a match; in CHECKED mode a mismatch leaves the
carriageway open (R60 to R66). -/
def Obligations.ResolutionPlacesCall : Prop :=
  ∀ (r : CallRecord) (table : Vector Acceptance 4) (e : Entry) (b : Burst),
    let q := r.resolved table e (.received b)
    let lost := r.resolved table e .notReceived
    let i := b.identity
    let hits (k : Fin 4) : Bool := table[k].enable && (i &&& table[k].mask) = (table[k].pattern &&& table[k].mask)
    let own : Location :=
      { sect := e.sect, marker := e.marker, cway := some e.cway, source := .directory, label := e.label,
        defaulted := e.defaulted }
    lost = { r with category := .emergency, check := .notReceived, identity := none, post := none,
                    location := some own, capture := some .notReceived } ∧
    i.toNat = b.sect.toNat * 65536 + b.marker.toNat ∧ q.identity = some i ∧
    q.post = some { doorOpen := b.doorOpen, lowBattery := b.lowBattery } ∧
    (∀ k : Fin 4, b.code = 2#2 → hits k = true → (∀ j : Fin 4, j.val < k.val → hits j = false) →
      q.category = .service ∧ q.check = .serviceAccepted k ∧ q.location = some own) ∧
    (b.code = 2#2 → (∀ k : Fin 4, hits k = false) →
      q.category = .emergency ∧ q.check = .serviceRefused ∧ q.location = some own) ∧
    (b.code ≠ 2#2 →
      q.category = (if b.code = 1#2 then .breakdown else .emergency) ∧
      q.check = (match e.expected with
        | some x => if x = i then .matched else .mismatch
        | none => .notExpected) ∧
      (e.naming = .directory → q.location = some own) ∧
      (e.naming = .checked → q.location = some
        (if q.check = .mismatch then { own with cway := none } else own)) ∧
      (e.naming = .reported → q.location = some
        (if q.check = .matched then { own with sect := b.sect, marker := b.marker, source := .reported }
        else { sect := b.sect, marker := b.marker, cway := none, source := .reported, label := [],
               defaulted := e.defaulted })))

/-- The four timers of a call record. The escalation timer escalates an OFFERED call: the flag is set, and the
partner of the one link it is offered to is offered it when it is usable; a call offered to both is flagged alone. The overdue timer marks an unclaimed
call OVERDUE and tells all three links. The transfer timer offers the call back to its origin. The long-call
timer sets the long-call flag of a CONNECTED call and tells its claimant; on a HELD one the notice waits.
The expiry of a timer that is stopped does nothing (R106, R109, R110, R117, R119). That an expiry acts whenever its timer runs is the model's choice (assumption 4). -/
def Obligations.CallTimersAct : Prop :=
  ∀ (s : State) (c : Centre) (id : CallId) (r : CallRecord),
    s.recordById id = some r → s.recordOfLine r.line = some r →
    (s.line r.line).condition = .inCall →
    (s.line r.line).tone = toneFor .inCall (some r) →
    let set (f : CallRecord → CallRecord) : State :=
      { s with orders := [], records := s.records.map fun q => if q.id = r.id then f q else q }
    let offer (q : CallRecord) (d : Centre) : CallRecord :=
      { q with
        state := .offered, offered := q.offered.add d
        flags := { q.flags with
          unsupervised := (s.group r.line.group).health = .silent
          doubtful := (s.group r.line.group).health = .pathFault } }
    let escalated (q : CallRecord) : CallRecord :=
      { q with escalation := none, flags := { q.flags with escalated := true } }
    (r.escalation.isSome = true → r.state = .offered → r.offered = CentreSet.empty.add c →
      exec (.escalationTimerExpiry id) s = .next
        (if s.usable c.partner then
          (set fun q => offer (escalated q) c.partner).informed c.partner.link
            (.callOffer (offerOf (offer (escalated r) c.partner)))
        else set escalated)) ∧
    (r.escalation.isSome = true → r.state = .waiting → r.offered = .empty →
      exec (.escalationTimerExpiry id) s = .next (set escalated)) ∧
    (r.overdueTimer.isSome = true → r.state.unclaimed = true →
      exec (.overdueTimerExpiry id) s = .next
        ((set fun q => { q with overdueTimer := none, flags := { q.flags with overdue := true } }).announced
          (.callOverdue r.id r.line r.category ((s.tick - r.arrival).toNat / 100)))) ∧
    (r.transferTimer.isSome = true → r.state = .offered → r.origin = some c →
      exec (.transferTimerExpiry id) s = .next
        (if (s.centre c).health ≠ .lost ∧ (s.centre c).duty ≠ .standby ∧ r.offered.has c = false then
          (set fun q => offer { q with transferTimer := none } c).informed c.link
            (.callOffer (offerOf (offer { r with transferTimer := none } c)))
        else set fun q => { q with transferTimer := none })) ∧
    (r.longTimer.isSome = true → r.state = .connected → r.claimant = some c → r.longCall = false →
      exec (.longCallTimerExpiry id) s = .next
        ((set fun q => { q with longTimer := none, longCall := true, longWaits := false }).informed c.link
          (.longCall r.id r.line ((s.tick - r.connect.getD r.arrival).toNat / 100)))) ∧
    (r.longTimer.isSome = true → r.state = .held →
      exec (.longCallTimerExpiry id) s = .next
        (set fun q => { q with longTimer := none, longWaits := true })) ∧
    (r.escalation.isSome = true → r.state = .offered → r.offered.has .a = true → r.offered.has .b = true →
      exec (.escalationTimerExpiry id) s = .next (set escalated)) ∧
    (r.escalation = none → exec (.escalationTimerExpiry id) s = .next { s with orders := [] }) ∧
    (r.overdueTimer = none → exec (.overdueTimerExpiry id) s = .next { s with orders := [] }) ∧
    (r.transferTimer = none → exec (.transferTimerExpiry id) s = .next { s with orders := [] }) ∧
    (r.longTimer = none → exec (.longCallTimerExpiry id) s = .next { s with orders := [] })

/-! ### Line tests -/

/-- What ends a test or takes it on. TEST_TIME_LIMIT ends it ABORTED with NO_SAMPLE and HOOK_SENSE of its line
ABORTED with CALL: its drives are restored, the line returns to its prior condition, the record is dropped and
TEST_RESULT goes to the requester. DWELL_TIMER_EXPIRY has the next order placed when the port is free, and waiting
otherwise. The sample of a test order goes to the test: the first of an OPEN_WIRE test starts the dwell on the sink,
the last compares the two voltages at a fall of 100 codes; an INSULATION test passes at R_leak or above; a PATH_CHECK
compares both paths and counts as a path check, which may raise PATH_FAULT or clear it. A no-sample ends the test. The
freed port takes the test's own next order before the order of the scanner that waits (R3, R11, R49, R139 to R147).
The order of the count and the result, and the milliseconds of the elapsed time, are inferences of the model
(assumptions 18 and 30); that the orders to the drives stand before the order to measure, and that a scanner order
which waits is placed even when its line has become TESTING or OUT_OF_SERVICE, are its choices (assumptions 48 and
43). -/
def Obligations.TestEventsActOnTest : Prop :=
  ∀ (s : State) (e : Instr) (g : GroupId) (t : TestRecord) (x m : Code × Code),
    s.test g = some t → s.testStands g →
    let r := s.group g
    let quiet : State := { s with orders := [] }
    let holds : Bool := r.port.any fun o => o.owner = .test ∧ o.fate = .live
    (exec (.testTimeLimit g) s = .next (quiet.testStopped g (.aborted .noSample)) ∧
      exec (.hookSense t.line) s = .next (quiet.testStopped g (.aborted .call))) ∧
    (∀ n : LineId, n.group = g → n ≠ t.line → exec (.hookSense n) s = .next quiet) ∧
    (t.dwell.isSome = true →
      let waits (phase : TestPhase) : State :=
        { quiet with tests := s.tests.set g (some { t with dwell := none, phase := phase, order := .waiting }) }
      let next (phase : TestPhase) : State :=
        if r.port.isSome then waits phase else (waits phase).served g
      (t.phase = .dwell → exec (.dwellTimerExpiry g) s = .next (next .measureAfter)) ∧
      (t.phase = .sourceDwell → exec (.dwellTimerExpiry g) s = .next (next .measure))) ∧
    (t.dwell = none → exec (.dwellTimerExpiry g) s = .next quiet) ∧
    (holds = true → r.restartPass = false →
      let freed (r : GroupRecord) : State := { quiet with groups := s.groups.set g { r with port := none } }
      let ended (a : State) (o : TestOutcome) : State := (a.testStopped g o).served g
      (s.orderEnds g e = some none → exec e s = .next (ended (freed r) (.aborted .noSample))) ∧
      (s.orderEnds g e = some (some x) →
        (t.phase = .measureBefore → exec e s = .next (State.served { freed r with
          orders := [.sink t.line true]
          tests := s.tests.set g (some
            { t with
              phase := .dwell, order := .none, samples := [x]
              dwell := some { length := 500, due := s.clock + 500 } }) } g)) ∧
        (t.phase = .measureAfter → t.samples = [m] → exec e s = .next (ended (freed r)
          (if x.1.toNat + 100 ≤ m.1.toNat then .continuous m.1 x.1 else .openWire m.1 x.1))) ∧
        (t.phase = .measure → exec e s = .next (ended (freed r)
          (if isForeign x.1 r.vf then .foreign x.1 x.2 r.vf
            else if (s.profileOf t.line).leak ≤ resistance x.1 x.2 then
              .pass x.1 x.2 r.vf (resistance x.1 x.2)
            else .lowInsulation x.1 x.2 r.vf (resistance x.1 x.2)))) ∧
        (t.phase = .measureMain → exec e s = .next { freed r with
          orders := [.measure g (.position t.line.pos) .check]
          groups := s.groups.set g { r with port := some (s.newOrder g .test) }
          tests := s.tests.set g (some
            { t with phase := .measureCheck, order := .placed, samples := [x] }) }) ∧
        (t.phase = .measureCheck → t.samples = [m] →
          let dv : Int := (m.1.toNat : Int) - x.1.toNat
          let di : Int := (m.2.toNat : Int) - x.2.toNat
          let worse : Bool := 25 < dv.natAbs ∨ 25 < di.natAbs
          let outcome : TestOutcome := if worse then .disagree dv di else .agree dv di
          let disc := if worse then min (r.discrepancyRun + 1) 255 else 0
          let agree := if worse then 0 else min (r.agreementRun + 1) 255
          let counted : State := freed { r with discrepancyRun := disc, agreementRun := agree }
          let changed (health : GroupHealth) : State :=
            freed { r with discrepancyRun := 0, agreementRun := 0, health := health }
          (r.health = .scanning → disc ≠ 2 → exec e s = .next (ended counted outcome)) ∧
          (r.health = .scanning → disc = 2 →
            exec e s = .next (ended ((changed .pathFault).announced (.pathFault g true)) outcome)) ∧
          (r.health = .pathFault → agree ≠ 4 → exec e s = .next (ended counted outcome)) ∧
          (r.health = .pathFault → agree = 4 →
            exec e s = .next (ended ((changed .scanning).announced (.pathFault g false)) outcome)))))

/-! ### Store -/

/-- STORE_WRITE_COMPLETION and STORE_WRITE_TIMEOUT end the write that is under way: its entry leaves the queue and
the next one is handed to the store; the stored copy is the content written, or unknown after a failure or a
time-out, which send STORE_FAULT to all three links. A completion that comes after its write has ended is
ignored (R75, R76). -/
def Obligations.StoreWriteEndsHandOnNext : Prop :=
  ∀ (s : State) (w : WriteEntry), s.writes.head? = some w → w.writing.isSome = true →
    let stored (c : Option ItemContent) : Vector (Option ItemContent) 79 := s.stored.set w.item.index c
    let next (c : Option ItemContent) : State :=
      { s with
        stored := stored c
        writes := match s.writes.tail with
          | [] => []
          | v :: rest =>
            { v with writing := some { length := 1000, due := s.clock + 1000 } } :: rest
        orders := match s.writes.tail with
          | [] => []
          | v :: _ => [.storeWrite v.item v.content] }
    (∀ success : Bool, exec (.storeWriteCompletion true success) s = .next { s with orders := [] }) ∧
    exec (.storeWriteCompletion false true) s = .next (next (some w.content)) ∧
    exec (.storeWriteCompletion false false) s = .next ((next none).announced (.storeFault w.item)) ∧
    exec .storeWriteTimeout s = .next ((next none).announced (.storeFault w.item))

/-! ### Orders of the register and of a queue -/

/-- Register order: the call records, each once, ORPHAN first, then by category rank, then by arrival age in ticks
modulo 2^32, greater first, then by line number (R83). -/
def Obligations.RegisterOrderRanksCalls : Prop :=
  ∀ s : State, (s.records.map (·.line)).Nodup →
    s.registerOrder.Perm s.records ∧
    s.registerOrder.Pairwise fun r q =>
      let rank (c : Category) : Nat := match c with
        | .emergency => 0
        | .breakdown => 1
        | .service => 2
        | .recall => 3
      let older : Nat := (s.tick - q.arrival).toNat
      let age : Nat := (s.tick - r.arrival).toNat
      (r.flags.orphan = true ∧ q.flags.orphan = false) ∨
      (r.flags.orphan = q.flags.orphan ∧
        (rank r.category < rank q.category ∨
          (rank r.category = rank q.category ∧
            (older < age ∨ (older = age ∧ r.line.val < q.line.val)))))

/-- A message submitted to a queue of 8 entries whose last entry is of a higher class takes its place in the order
and that entry is discarded; otherwise the new message is discarded. Either way RESYNC is set, and a
discarded CALL_OFFER enters its call id in the lost-offer set. In a queue with room a message takes its place
behind every entry of its class or a lower one, and an offer takes its id out of the lost-offer set. An offer
whose id waits in the queue takes the waiting entry's place instead. A leave removes the offer that waits, or the id
in the lost-offer set, and otherwise submits its follow-up. An IDLE transmitter takes a new entry at once (R157 to
R161). That it does so within the step of the submission is an inference of the model (assumption 11). -/
def Obligations.FullQueueDiscardsLast : Prop :=
  ∀ (k : LinkController) (m : Message) (followUp : Bool) (now : Tick),
    let waits (id : CallId) : Prop := ∃ e ∈ k.queue, e.msg.offerId = some id
    let entry : QueueEntry := { msg := m, time := k.submissions, followUp := followUp }
    let lost : List CallId := match m.offerId with
      | some id => k.lostOffers.erase id
      | none => k.lostOffers
    let inOrder (q : List QueueEntry) : Prop :=
      q.Pairwise (fun e f => (e.msg.cls < f.msg.cls ∨ (e.msg.cls = f.msg.cls ∧ e.time < f.time)))
    let t := k.enqueue m followUp
    m.cls = (match m with
      | .reply _ _ _ => 0
      | .notice (.callOffer _) | .notice (.callWithdrawn _ _ _) | .notice (.callTaken _ _ _)
      | .notice (.callEnded _ _ _) | .notice (.callOverdue _ _ _ _) | .notice (.ringUnanswered _)
      | .notice (.longCall _ _ _) => 1
      | .notice .handoverDone | .notice .handoverCancelled | .notice .dutyResumed
      | .notice (.powerState _ _ _ _) | .notice (.overflow _ _) | .notice (.storeFault _)
      | .notice (.loadDefaulted _) => 2
      | .notice (.lineCondition _ _ _) | .notice (.faultCleared _ _) | .notice (.handsetOff _ _)
      | .notice (.groupSilent _) | .notice (.groupRecovered _) | .notice (.pathFault _ _)
      | .notice (.testResult _) => 3) ∧
    (k.queue.length < 8 → (∀ id ∈ m.offerId, ¬ waits id) →
      t = { k with
        queue := k.queue.takeWhile (·.msg.cls ≤ m.cls) ++ [entry] ++ k.queue.dropWhile (·.msg.cls ≤ m.cls)
        submissions := k.submissions + 1, lostOffers := lost } ∧
      (k.Ordered → inOrder t.queue) ∧
      (k.transmit = .idle → k.queue = [] → t.pump now =
        { k with
          submissions := k.submissions + 1, lostOffers := lost
          transmit := .sending m (frameOf m.type (m.body now)) }) ∧
      (k.transmit ≠ .idle → t.pump now = t)) ∧
    (∀ id ∈ m.offerId, waits id → id ∉ k.lostOffers →
      t = { k with queue := k.queue.map fun e => if e.msg.offerId = some id then { e with msg := m } else e }) ∧
    (∀ id : CallId,
      (waits id → id ∉ k.lostOffers → ∀ follow : Option Notice, k.leave id follow now =
        { k with queue := k.queue.filter fun e => e.msg.offerId ≠ some id }) ∧
      (¬ waits id → id ∈ k.lostOffers → ∀ follow : Option Notice, k.leave id follow now =
        { k with lostOffers := k.lostOffers.erase id }) ∧
      (¬ waits id → id ∉ k.lostOffers → k.leave id none now = k ∧
        ∀ n : Notice, k.leave id (some n) now = (k.enqueue (.notice n) true).pump now)) ∧
    (∀ last : QueueEntry, k.Ordered → k.queue.length = 8 → k.queue.getLast? = some last →
      (∀ id ∈ m.offerId, ¬ waits id) →
      t.resync = true ∧ t.queue.length = 8 ∧ t.transmit = k.transmit ∧ t.cleared = k.cleared ∧
      t.watch = k.watch ∧ t.receive = k.receive ∧
      (m.cls < last.msg.cls →
        (∃ e ∈ t.queue, e = entry ∧ t.queue.erase e = k.queue.dropLast) ∧
        inOrder t.queue ∧
        (∀ id ∈ last.msg.offerId, id ∈ t.lostOffers) ∧
        (last.msg.offerId = none → t.lostOffers = lost)) ∧
      (last.msg.cls ≤ m.cls →
        t.queue = k.queue ∧ (∀ id ∈ m.offerId, id ∈ t.lostOffers) ∧
        (m.offerId = none → t.lostOffers = k.lostOffers)))

/-! ### Invariants -/

/-- Right after reset the invariant of the whole part holds. The levels of the inputs at State.reset are the
model's choice (assumption 1). -/
def Obligations.ResetMeetsInvariant : Prop := Inv State.reset

/-- Every step keeps the invariant of the link controllers: the order and the bounds of the queues, the health
that the score gives, and the quiet of a LOST link (R152 to R161). -/
def Obligations.StepKeepsLinks : Prop :=
  ∀ s t : State, InvLinks s → step s = .next t → InvLinks t

/-- Every step keeps the invariants of the store and of the supply monitor (R18, R68, R74 to R76, R129, R168,
R169). -/
def Obligations.StepKeepsStoreAndSupply : Prop :=
  ∀ s t : State, InvStore s → InvSupply s → step s = .next t → InvStore t ∧ InvSupply t

/-- Every step keeps the invariants of the load, the scanner and the tests: no pass stalls, and a test runs only
on a TESTING line of its group, in NORMAL power and outside SILENT (R1 to R16, R136 to R148, R170 to
R173). -/
def Obligations.StepKeepsScanAndTests : Prop :=
  ∀ s t : State, Inv s → step s = .next t → InvLoad t ∧ InvScan t

/-- Every step keeps the invariants of the call register, the channel table and the duty states: no call id is
held twice, every claimed call is CONNECTED on a channel of its own or HELD, and no LOST link holds a call
(R81 to R95, R103, R104, R118 to R127). -/
def Obligations.StepKeepsRegister : Prop :=
  ∀ s t : State, Inv s → step s = .next t → InvIds t ∧ InvCalls t ∧ InvChannels t ∧ InvDuty t

/-- Every step keeps the invariants of the identity receivers, the lines and the classifiers: each line in capture
is heard or waits once, each line has the condition its directory entry and fitted count allow and the tone of
its condition, and R_track stays between 2000 and R_idlehi (R17, R26 to R34, R41, R54 to R59). -/
def Obligations.StepKeepsLines : Prop :=
  ∀ s t : State, Inv s → step s = .next t → InvCaptures t ∧ InvLines t ∧ InvClassifiers t
end

