-- ==== Sys2Proof/Laws/State.lean ====
section
/-! SUPPORT. What each named update of the state leaves and writes: one lemma a field and a read, so that no
proof unfolds a record update. -/

namespace Sys2Proof.Machine

variable (s : State)

/-! ### setGroup -/

@[simp] theorem State.setGroup_pending (g : GroupId) (r : GroupRecord) :
    (s.setGroup g r).pending = s.pending := rfl
@[simp] theorem State.setGroup_clock (g : GroupId) (r : GroupRecord) :
    (s.setGroup g r).clock = s.clock := rfl
@[simp] theorem State.setGroup_subTick (g : GroupId) (r : GroupRecord) :
    (s.setGroup g r).subTick = s.subTick := rfl
@[simp] theorem State.setGroup_tick (g : GroupId) (r : GroupRecord) :
    (s.setGroup g r).tick = s.tick := rfl
@[simp] theorem State.setGroup_orders (g : GroupId) (r : GroupRecord) :
    (s.setGroup g r).orders = s.orders := rfl
@[simp] theorem State.setGroup_mainsOk (g : GroupId) (r : GroupRecord) :
    (s.setGroup g r).mainsOk = s.mainsOk := rfl
@[simp] theorem State.setGroup_batteryLow (g : GroupId) (r : GroupRecord) :
    (s.setGroup g r).batteryLow = s.batteryLow := rfl
@[simp] theorem State.setGroup_key (g : GroupId) (r : GroupRecord) :
    (s.setGroup g r).key = s.key := rfl
@[simp] theorem State.setGroup_power (g : GroupId) (r : GroupRecord) :
    (s.setGroup g r).power = s.power := rfl
@[simp] theorem State.setGroup_load (g : GroupId) (r : GroupRecord) :
    (s.setGroup g r).load = s.load := rfl
@[simp] theorem State.setGroup_window (g : GroupId) (r : GroupRecord) :
    (s.setGroup g r).window = s.window := rfl
@[simp] theorem State.setGroup_classifiers (g : GroupId) (r : GroupRecord) :
    (s.setGroup g r).classifiers = s.classifiers := rfl
@[simp] theorem State.setGroup_lines (g : GroupId) (r : GroupRecord) :
    (s.setGroup g r).lines = s.lines := rfl
@[simp] theorem State.setGroup_captures (g : GroupId) (r : GroupRecord) :
    (s.setGroup g r).captures = s.captures := rfl
@[simp] theorem State.setGroup_receivers (g : GroupId) (r : GroupRecord) :
    (s.setGroup g r).receivers = s.receivers := rfl
@[simp] theorem State.setGroup_acceptance (g : GroupId) (r : GroupRecord) :
    (s.setGroup g r).acceptance = s.acceptance := rfl
@[simp] theorem State.setGroup_entries (g : GroupId) (r : GroupRecord) :
    (s.setGroup g r).entries = s.entries := rfl
@[simp] theorem State.setGroup_profiles (g : GroupId) (r : GroupRecord) :
    (s.setGroup g r).profiles = s.profiles := rfl
@[simp] theorem State.setGroup_timers (g : GroupId) (r : GroupRecord) :
    (s.setGroup g r).timers = s.timers := rfl
@[simp] theorem State.setGroup_bearer (g : GroupId) (r : GroupRecord) :
    (s.setGroup g r).bearer = s.bearer := rfl
@[simp] theorem State.setGroup_writes (g : GroupId) (r : GroupRecord) :
    (s.setGroup g r).writes = s.writes := rfl
@[simp] theorem State.setGroup_stored (g : GroupId) (r : GroupRecord) :
    (s.setGroup g r).stored = s.stored := rfl
@[simp] theorem State.setGroup_report (g : GroupId) (r : GroupRecord) :
    (s.setGroup g r).report = s.report := rfl
@[simp] theorem State.setGroup_reportPendingA (g : GroupId) (r : GroupRecord) :
    (s.setGroup g r).reportPendingA = s.reportPendingA := rfl
@[simp] theorem State.setGroup_reportPendingB (g : GroupId) (r : GroupRecord) :
    (s.setGroup g r).reportPendingB = s.reportPendingB := rfl
@[simp] theorem State.setGroup_reportPendingS (g : GroupId) (r : GroupRecord) :
    (s.setGroup g r).reportPendingS = s.reportPendingS := rfl
@[simp] theorem State.setGroup_records (g : GroupId) (r : GroupRecord) :
    (s.setGroup g r).records = s.records := rfl
@[simp] theorem State.setGroup_overflow (g : GroupId) (r : GroupRecord) :
    (s.setGroup g r).overflow = s.overflow := rfl
@[simp] theorem State.setGroup_abandoned (g : GroupId) (r : GroupRecord) :
    (s.setGroup g r).abandoned = s.abandoned := rfl
@[simp] theorem State.setGroup_overflowed (g : GroupId) (r : GroupRecord) :
    (s.setGroup g r).overflowed = s.overflowed := rfl
@[simp] theorem State.setGroup_idCounter (g : GroupId) (r : GroupRecord) :
    (s.setGroup g r).idCounter = s.idCounter := rfl
@[simp] theorem State.setGroup_channels (g : GroupId) (r : GroupRecord) :
    (s.setGroup g r).channels = s.channels := rfl
@[simp] theorem State.setGroup_tests (g : GroupId) (r : GroupRecord) :
    (s.setGroup g r).tests = s.tests := rfl
@[simp] theorem State.setGroup_linkA (g : GroupId) (r : GroupRecord) :
    (s.setGroup g r).linkA = s.linkA := rfl
@[simp] theorem State.setGroup_linkB (g : GroupId) (r : GroupRecord) :
    (s.setGroup g r).linkB = s.linkB := rfl
@[simp] theorem State.setGroup_linkS (g : GroupId) (r : GroupRecord) :
    (s.setGroup g r).linkS = s.linkS := rfl
@[simp] theorem State.setGroup_centreA (g : GroupId) (r : GroupRecord) :
    (s.setGroup g r).centreA = s.centreA := rfl
@[simp] theorem State.setGroup_centreB (g : GroupId) (r : GroupRecord) :
    (s.setGroup g r).centreB = s.centreB := rfl
@[simp] theorem State.setGroup_classifier (g : GroupId) (r : GroupRecord) (x : LineId) :
    (s.setGroup g r).classifier x = s.classifier x := rfl
@[simp] theorem State.setGroup_line (g : GroupId) (r : GroupRecord) (x : LineId) :
    (s.setGroup g r).line x = s.line x := rfl
@[simp] theorem State.setGroup_capture (g : GroupId) (r : GroupRecord) (x : LineId) :
    (s.setGroup g r).capture x = s.capture x := rfl
@[simp] theorem State.setGroup_receiver (g : GroupId) (r : GroupRecord) (x : GroupId) :
    (s.setGroup g r).receiver x = s.receiver x := rfl
@[simp] theorem State.setGroup_entry (g : GroupId) (r : GroupRecord) (x : LineId) :
    (s.setGroup g r).entry x = s.entry x := rfl
@[simp] theorem State.setGroup_profile (g : GroupId) (r : GroupRecord) (x : ProfileId) :
    (s.setGroup g r).profile x = s.profile x := rfl
@[simp] theorem State.setGroup_profileOf (g : GroupId) (r : GroupRecord) (x : LineId) :
    (s.setGroup g r).profileOf x = s.profileOf x := rfl
@[simp] theorem State.setGroup_channel (g : GroupId) (r : GroupRecord) (x : ChannelId) :
    (s.setGroup g r).channel x = s.channel x := rfl
@[simp] theorem State.setGroup_test (g : GroupId) (r : GroupRecord) (x : GroupId) :
    (s.setGroup g r).test x = s.test x := rfl
@[simp] theorem State.setGroup_link (g : GroupId) (r : GroupRecord) (x : Link) :
    (s.setGroup g r).link x = s.link x := rfl
@[simp] theorem State.setGroup_centre (g : GroupId) (r : GroupRecord) (x : Centre) :
    (s.setGroup g r).centre x = s.centre x := rfl
@[simp] theorem State.setGroup_reportPending (g : GroupId) (r : GroupRecord) (x : Link) :
    (s.setGroup g r).reportPending x = s.reportPending x := rfl
@[simp] theorem State.setGroup_input (g : GroupId) (r : GroupRecord) (x : Input) :
    (s.setGroup g r).input x = s.input x := rfl
@[simp] theorem State.setGroup_recordById (g : GroupId) (r : GroupRecord) (x : CallId) :
    (s.setGroup g r).recordById x = s.recordById x := rfl
@[simp] theorem State.setGroup_recordOfLine (g : GroupId) (r : GroupRecord) (x : LineId) :
    (s.setGroup g r).recordOfLine x = s.recordOfLine x := rfl
@[simp] theorem State.setGroup_isLost (g : GroupId) (r : GroupRecord) (x : Link) :
    (s.setGroup g r).isLost x = s.isLost x := rfl

/-! ### setClassifier -/

@[simp] theorem State.setClassifier_pending (n : LineId) (k : Classifier) :
    (s.setClassifier n k).pending = s.pending := rfl
@[simp] theorem State.setClassifier_clock (n : LineId) (k : Classifier) :
    (s.setClassifier n k).clock = s.clock := rfl
@[simp] theorem State.setClassifier_subTick (n : LineId) (k : Classifier) :
    (s.setClassifier n k).subTick = s.subTick := rfl
@[simp] theorem State.setClassifier_tick (n : LineId) (k : Classifier) :
    (s.setClassifier n k).tick = s.tick := rfl
@[simp] theorem State.setClassifier_orders (n : LineId) (k : Classifier) :
    (s.setClassifier n k).orders = s.orders := rfl
@[simp] theorem State.setClassifier_mainsOk (n : LineId) (k : Classifier) :
    (s.setClassifier n k).mainsOk = s.mainsOk := rfl
@[simp] theorem State.setClassifier_batteryLow (n : LineId) (k : Classifier) :
    (s.setClassifier n k).batteryLow = s.batteryLow := rfl
@[simp] theorem State.setClassifier_key (n : LineId) (k : Classifier) :
    (s.setClassifier n k).key = s.key := rfl
@[simp] theorem State.setClassifier_power (n : LineId) (k : Classifier) :
    (s.setClassifier n k).power = s.power := rfl
@[simp] theorem State.setClassifier_load (n : LineId) (k : Classifier) :
    (s.setClassifier n k).load = s.load := rfl
@[simp] theorem State.setClassifier_window (n : LineId) (k : Classifier) :
    (s.setClassifier n k).window = s.window := rfl
@[simp] theorem State.setClassifier_groups (n : LineId) (k : Classifier) :
    (s.setClassifier n k).groups = s.groups := rfl
@[simp] theorem State.setClassifier_lines (n : LineId) (k : Classifier) :
    (s.setClassifier n k).lines = s.lines := rfl
@[simp] theorem State.setClassifier_captures (n : LineId) (k : Classifier) :
    (s.setClassifier n k).captures = s.captures := rfl
@[simp] theorem State.setClassifier_receivers (n : LineId) (k : Classifier) :
    (s.setClassifier n k).receivers = s.receivers := rfl
@[simp] theorem State.setClassifier_acceptance (n : LineId) (k : Classifier) :
    (s.setClassifier n k).acceptance = s.acceptance := rfl
@[simp] theorem State.setClassifier_entries (n : LineId) (k : Classifier) :
    (s.setClassifier n k).entries = s.entries := rfl
@[simp] theorem State.setClassifier_profiles (n : LineId) (k : Classifier) :
    (s.setClassifier n k).profiles = s.profiles := rfl
@[simp] theorem State.setClassifier_timers (n : LineId) (k : Classifier) :
    (s.setClassifier n k).timers = s.timers := rfl
@[simp] theorem State.setClassifier_bearer (n : LineId) (k : Classifier) :
    (s.setClassifier n k).bearer = s.bearer := rfl
@[simp] theorem State.setClassifier_writes (n : LineId) (k : Classifier) :
    (s.setClassifier n k).writes = s.writes := rfl
@[simp] theorem State.setClassifier_stored (n : LineId) (k : Classifier) :
    (s.setClassifier n k).stored = s.stored := rfl
@[simp] theorem State.setClassifier_report (n : LineId) (k : Classifier) :
    (s.setClassifier n k).report = s.report := rfl
@[simp] theorem State.setClassifier_reportPendingA (n : LineId) (k : Classifier) :
    (s.setClassifier n k).reportPendingA = s.reportPendingA := rfl
@[simp] theorem State.setClassifier_reportPendingB (n : LineId) (k : Classifier) :
    (s.setClassifier n k).reportPendingB = s.reportPendingB := rfl
@[simp] theorem State.setClassifier_reportPendingS (n : LineId) (k : Classifier) :
    (s.setClassifier n k).reportPendingS = s.reportPendingS := rfl
@[simp] theorem State.setClassifier_records (n : LineId) (k : Classifier) :
    (s.setClassifier n k).records = s.records := rfl
@[simp] theorem State.setClassifier_overflow (n : LineId) (k : Classifier) :
    (s.setClassifier n k).overflow = s.overflow := rfl
@[simp] theorem State.setClassifier_abandoned (n : LineId) (k : Classifier) :
    (s.setClassifier n k).abandoned = s.abandoned := rfl
@[simp] theorem State.setClassifier_overflowed (n : LineId) (k : Classifier) :
    (s.setClassifier n k).overflowed = s.overflowed := rfl
@[simp] theorem State.setClassifier_idCounter (n : LineId) (k : Classifier) :
    (s.setClassifier n k).idCounter = s.idCounter := rfl
@[simp] theorem State.setClassifier_channels (n : LineId) (k : Classifier) :
    (s.setClassifier n k).channels = s.channels := rfl
@[simp] theorem State.setClassifier_tests (n : LineId) (k : Classifier) :
    (s.setClassifier n k).tests = s.tests := rfl
@[simp] theorem State.setClassifier_linkA (n : LineId) (k : Classifier) :
    (s.setClassifier n k).linkA = s.linkA := rfl
@[simp] theorem State.setClassifier_linkB (n : LineId) (k : Classifier) :
    (s.setClassifier n k).linkB = s.linkB := rfl
@[simp] theorem State.setClassifier_linkS (n : LineId) (k : Classifier) :
    (s.setClassifier n k).linkS = s.linkS := rfl
@[simp] theorem State.setClassifier_centreA (n : LineId) (k : Classifier) :
    (s.setClassifier n k).centreA = s.centreA := rfl
@[simp] theorem State.setClassifier_centreB (n : LineId) (k : Classifier) :
    (s.setClassifier n k).centreB = s.centreB := rfl
@[simp] theorem State.setClassifier_group (n : LineId) (k : Classifier) (x : GroupId) :
    (s.setClassifier n k).group x = s.group x := rfl
@[simp] theorem State.setClassifier_line (n : LineId) (k : Classifier) (x : LineId) :
    (s.setClassifier n k).line x = s.line x := rfl
@[simp] theorem State.setClassifier_capture (n : LineId) (k : Classifier) (x : LineId) :
    (s.setClassifier n k).capture x = s.capture x := rfl
@[simp] theorem State.setClassifier_receiver (n : LineId) (k : Classifier) (x : GroupId) :
    (s.setClassifier n k).receiver x = s.receiver x := rfl
@[simp] theorem State.setClassifier_entry (n : LineId) (k : Classifier) (x : LineId) :
    (s.setClassifier n k).entry x = s.entry x := rfl
@[simp] theorem State.setClassifier_profile (n : LineId) (k : Classifier) (x : ProfileId) :
    (s.setClassifier n k).profile x = s.profile x := rfl
@[simp] theorem State.setClassifier_profileOf (n : LineId) (k : Classifier) (x : LineId) :
    (s.setClassifier n k).profileOf x = s.profileOf x := rfl
@[simp] theorem State.setClassifier_channel (n : LineId) (k : Classifier) (x : ChannelId) :
    (s.setClassifier n k).channel x = s.channel x := rfl
@[simp] theorem State.setClassifier_test (n : LineId) (k : Classifier) (x : GroupId) :
    (s.setClassifier n k).test x = s.test x := rfl
@[simp] theorem State.setClassifier_link (n : LineId) (k : Classifier) (x : Link) :
    (s.setClassifier n k).link x = s.link x := rfl
@[simp] theorem State.setClassifier_centre (n : LineId) (k : Classifier) (x : Centre) :
    (s.setClassifier n k).centre x = s.centre x := rfl
@[simp] theorem State.setClassifier_reportPending (n : LineId) (k : Classifier) (x : Link) :
    (s.setClassifier n k).reportPending x = s.reportPending x := rfl
@[simp] theorem State.setClassifier_input (n : LineId) (k : Classifier) (x : Input) :
    (s.setClassifier n k).input x = s.input x := rfl
@[simp] theorem State.setClassifier_recordById (n : LineId) (k : Classifier) (x : CallId) :
    (s.setClassifier n k).recordById x = s.recordById x := rfl
@[simp] theorem State.setClassifier_recordOfLine (n : LineId) (k : Classifier) (x : LineId) :
    (s.setClassifier n k).recordOfLine x = s.recordOfLine x := rfl
@[simp] theorem State.setClassifier_isLost (n : LineId) (k : Classifier) (x : Link) :
    (s.setClassifier n k).isLost x = s.isLost x := rfl

/-! ### setLine -/

@[simp] theorem State.setLine_pending (n : LineId) (u : LineUnit) :
    (s.setLine n u).pending = s.pending := rfl
@[simp] theorem State.setLine_clock (n : LineId) (u : LineUnit) :
    (s.setLine n u).clock = s.clock := rfl
@[simp] theorem State.setLine_subTick (n : LineId) (u : LineUnit) :
    (s.setLine n u).subTick = s.subTick := rfl
@[simp] theorem State.setLine_tick (n : LineId) (u : LineUnit) :
    (s.setLine n u).tick = s.tick := rfl
@[simp] theorem State.setLine_orders (n : LineId) (u : LineUnit) :
    (s.setLine n u).orders = s.orders := rfl
@[simp] theorem State.setLine_mainsOk (n : LineId) (u : LineUnit) :
    (s.setLine n u).mainsOk = s.mainsOk := rfl
@[simp] theorem State.setLine_batteryLow (n : LineId) (u : LineUnit) :
    (s.setLine n u).batteryLow = s.batteryLow := rfl
@[simp] theorem State.setLine_key (n : LineId) (u : LineUnit) :
    (s.setLine n u).key = s.key := rfl
@[simp] theorem State.setLine_power (n : LineId) (u : LineUnit) :
    (s.setLine n u).power = s.power := rfl
@[simp] theorem State.setLine_load (n : LineId) (u : LineUnit) :
    (s.setLine n u).load = s.load := rfl
@[simp] theorem State.setLine_window (n : LineId) (u : LineUnit) :
    (s.setLine n u).window = s.window := rfl
@[simp] theorem State.setLine_groups (n : LineId) (u : LineUnit) :
    (s.setLine n u).groups = s.groups := rfl
@[simp] theorem State.setLine_classifiers (n : LineId) (u : LineUnit) :
    (s.setLine n u).classifiers = s.classifiers := rfl
@[simp] theorem State.setLine_captures (n : LineId) (u : LineUnit) :
    (s.setLine n u).captures = s.captures := rfl
@[simp] theorem State.setLine_receivers (n : LineId) (u : LineUnit) :
    (s.setLine n u).receivers = s.receivers := rfl
@[simp] theorem State.setLine_acceptance (n : LineId) (u : LineUnit) :
    (s.setLine n u).acceptance = s.acceptance := rfl
@[simp] theorem State.setLine_entries (n : LineId) (u : LineUnit) :
    (s.setLine n u).entries = s.entries := rfl
@[simp] theorem State.setLine_profiles (n : LineId) (u : LineUnit) :
    (s.setLine n u).profiles = s.profiles := rfl
@[simp] theorem State.setLine_timers (n : LineId) (u : LineUnit) :
    (s.setLine n u).timers = s.timers := rfl
@[simp] theorem State.setLine_bearer (n : LineId) (u : LineUnit) :
    (s.setLine n u).bearer = s.bearer := rfl
@[simp] theorem State.setLine_writes (n : LineId) (u : LineUnit) :
    (s.setLine n u).writes = s.writes := rfl
@[simp] theorem State.setLine_stored (n : LineId) (u : LineUnit) :
    (s.setLine n u).stored = s.stored := rfl
@[simp] theorem State.setLine_report (n : LineId) (u : LineUnit) :
    (s.setLine n u).report = s.report := rfl
@[simp] theorem State.setLine_reportPendingA (n : LineId) (u : LineUnit) :
    (s.setLine n u).reportPendingA = s.reportPendingA := rfl
@[simp] theorem State.setLine_reportPendingB (n : LineId) (u : LineUnit) :
    (s.setLine n u).reportPendingB = s.reportPendingB := rfl
@[simp] theorem State.setLine_reportPendingS (n : LineId) (u : LineUnit) :
    (s.setLine n u).reportPendingS = s.reportPendingS := rfl
@[simp] theorem State.setLine_records (n : LineId) (u : LineUnit) :
    (s.setLine n u).records = s.records := rfl
@[simp] theorem State.setLine_overflow (n : LineId) (u : LineUnit) :
    (s.setLine n u).overflow = s.overflow := rfl
@[simp] theorem State.setLine_abandoned (n : LineId) (u : LineUnit) :
    (s.setLine n u).abandoned = s.abandoned := rfl
@[simp] theorem State.setLine_overflowed (n : LineId) (u : LineUnit) :
    (s.setLine n u).overflowed = s.overflowed := rfl
@[simp] theorem State.setLine_idCounter (n : LineId) (u : LineUnit) :
    (s.setLine n u).idCounter = s.idCounter := rfl
@[simp] theorem State.setLine_channels (n : LineId) (u : LineUnit) :
    (s.setLine n u).channels = s.channels := rfl
@[simp] theorem State.setLine_tests (n : LineId) (u : LineUnit) :
    (s.setLine n u).tests = s.tests := rfl
@[simp] theorem State.setLine_linkA (n : LineId) (u : LineUnit) :
    (s.setLine n u).linkA = s.linkA := rfl
@[simp] theorem State.setLine_linkB (n : LineId) (u : LineUnit) :
    (s.setLine n u).linkB = s.linkB := rfl
@[simp] theorem State.setLine_linkS (n : LineId) (u : LineUnit) :
    (s.setLine n u).linkS = s.linkS := rfl
@[simp] theorem State.setLine_centreA (n : LineId) (u : LineUnit) :
    (s.setLine n u).centreA = s.centreA := rfl
@[simp] theorem State.setLine_centreB (n : LineId) (u : LineUnit) :
    (s.setLine n u).centreB = s.centreB := rfl
@[simp] theorem State.setLine_group (n : LineId) (u : LineUnit) (x : GroupId) :
    (s.setLine n u).group x = s.group x := rfl
@[simp] theorem State.setLine_classifier (n : LineId) (u : LineUnit) (x : LineId) :
    (s.setLine n u).classifier x = s.classifier x := rfl
@[simp] theorem State.setLine_capture (n : LineId) (u : LineUnit) (x : LineId) :
    (s.setLine n u).capture x = s.capture x := rfl
@[simp] theorem State.setLine_receiver (n : LineId) (u : LineUnit) (x : GroupId) :
    (s.setLine n u).receiver x = s.receiver x := rfl
@[simp] theorem State.setLine_entry (n : LineId) (u : LineUnit) (x : LineId) :
    (s.setLine n u).entry x = s.entry x := rfl
@[simp] theorem State.setLine_profile (n : LineId) (u : LineUnit) (x : ProfileId) :
    (s.setLine n u).profile x = s.profile x := rfl
@[simp] theorem State.setLine_profileOf (n : LineId) (u : LineUnit) (x : LineId) :
    (s.setLine n u).profileOf x = s.profileOf x := rfl
@[simp] theorem State.setLine_channel (n : LineId) (u : LineUnit) (x : ChannelId) :
    (s.setLine n u).channel x = s.channel x := rfl
@[simp] theorem State.setLine_test (n : LineId) (u : LineUnit) (x : GroupId) :
    (s.setLine n u).test x = s.test x := rfl
@[simp] theorem State.setLine_link (n : LineId) (u : LineUnit) (x : Link) :
    (s.setLine n u).link x = s.link x := rfl
@[simp] theorem State.setLine_centre (n : LineId) (u : LineUnit) (x : Centre) :
    (s.setLine n u).centre x = s.centre x := rfl
@[simp] theorem State.setLine_reportPending (n : LineId) (u : LineUnit) (x : Link) :
    (s.setLine n u).reportPending x = s.reportPending x := rfl
@[simp] theorem State.setLine_input (n : LineId) (u : LineUnit) (x : Input) :
    (s.setLine n u).input x = s.input x := rfl
@[simp] theorem State.setLine_recordById (n : LineId) (u : LineUnit) (x : CallId) :
    (s.setLine n u).recordById x = s.recordById x := rfl
@[simp] theorem State.setLine_recordOfLine (n : LineId) (u : LineUnit) (x : LineId) :
    (s.setLine n u).recordOfLine x = s.recordOfLine x := rfl
@[simp] theorem State.setLine_isLost (n : LineId) (u : LineUnit) (x : Link) :
    (s.setLine n u).isLost x = s.isLost x := rfl

/-! ### setCapture -/

@[simp] theorem State.setCapture_pending (n : LineId) (k : Option Capture) :
    (s.setCapture n k).pending = s.pending := rfl
@[simp] theorem State.setCapture_clock (n : LineId) (k : Option Capture) :
    (s.setCapture n k).clock = s.clock := rfl
@[simp] theorem State.setCapture_subTick (n : LineId) (k : Option Capture) :
    (s.setCapture n k).subTick = s.subTick := rfl
@[simp] theorem State.setCapture_tick (n : LineId) (k : Option Capture) :
    (s.setCapture n k).tick = s.tick := rfl
@[simp] theorem State.setCapture_orders (n : LineId) (k : Option Capture) :
    (s.setCapture n k).orders = s.orders := rfl
@[simp] theorem State.setCapture_mainsOk (n : LineId) (k : Option Capture) :
    (s.setCapture n k).mainsOk = s.mainsOk := rfl
@[simp] theorem State.setCapture_batteryLow (n : LineId) (k : Option Capture) :
    (s.setCapture n k).batteryLow = s.batteryLow := rfl
@[simp] theorem State.setCapture_key (n : LineId) (k : Option Capture) :
    (s.setCapture n k).key = s.key := rfl
@[simp] theorem State.setCapture_power (n : LineId) (k : Option Capture) :
    (s.setCapture n k).power = s.power := rfl
@[simp] theorem State.setCapture_load (n : LineId) (k : Option Capture) :
    (s.setCapture n k).load = s.load := rfl
@[simp] theorem State.setCapture_window (n : LineId) (k : Option Capture) :
    (s.setCapture n k).window = s.window := rfl
@[simp] theorem State.setCapture_groups (n : LineId) (k : Option Capture) :
    (s.setCapture n k).groups = s.groups := rfl
@[simp] theorem State.setCapture_classifiers (n : LineId) (k : Option Capture) :
    (s.setCapture n k).classifiers = s.classifiers := rfl
@[simp] theorem State.setCapture_lines (n : LineId) (k : Option Capture) :
    (s.setCapture n k).lines = s.lines := rfl
@[simp] theorem State.setCapture_receivers (n : LineId) (k : Option Capture) :
    (s.setCapture n k).receivers = s.receivers := rfl
@[simp] theorem State.setCapture_acceptance (n : LineId) (k : Option Capture) :
    (s.setCapture n k).acceptance = s.acceptance := rfl
@[simp] theorem State.setCapture_entries (n : LineId) (k : Option Capture) :
    (s.setCapture n k).entries = s.entries := rfl
@[simp] theorem State.setCapture_profiles (n : LineId) (k : Option Capture) :
    (s.setCapture n k).profiles = s.profiles := rfl
@[simp] theorem State.setCapture_timers (n : LineId) (k : Option Capture) :
    (s.setCapture n k).timers = s.timers := rfl
@[simp] theorem State.setCapture_bearer (n : LineId) (k : Option Capture) :
    (s.setCapture n k).bearer = s.bearer := rfl
@[simp] theorem State.setCapture_writes (n : LineId) (k : Option Capture) :
    (s.setCapture n k).writes = s.writes := rfl
@[simp] theorem State.setCapture_stored (n : LineId) (k : Option Capture) :
    (s.setCapture n k).stored = s.stored := rfl
@[simp] theorem State.setCapture_report (n : LineId) (k : Option Capture) :
    (s.setCapture n k).report = s.report := rfl
@[simp] theorem State.setCapture_reportPendingA (n : LineId) (k : Option Capture) :
    (s.setCapture n k).reportPendingA = s.reportPendingA := rfl
@[simp] theorem State.setCapture_reportPendingB (n : LineId) (k : Option Capture) :
    (s.setCapture n k).reportPendingB = s.reportPendingB := rfl
@[simp] theorem State.setCapture_reportPendingS (n : LineId) (k : Option Capture) :
    (s.setCapture n k).reportPendingS = s.reportPendingS := rfl
@[simp] theorem State.setCapture_records (n : LineId) (k : Option Capture) :
    (s.setCapture n k).records = s.records := rfl
@[simp] theorem State.setCapture_overflow (n : LineId) (k : Option Capture) :
    (s.setCapture n k).overflow = s.overflow := rfl
@[simp] theorem State.setCapture_abandoned (n : LineId) (k : Option Capture) :
    (s.setCapture n k).abandoned = s.abandoned := rfl
@[simp] theorem State.setCapture_overflowed (n : LineId) (k : Option Capture) :
    (s.setCapture n k).overflowed = s.overflowed := rfl
@[simp] theorem State.setCapture_idCounter (n : LineId) (k : Option Capture) :
    (s.setCapture n k).idCounter = s.idCounter := rfl
@[simp] theorem State.setCapture_channels (n : LineId) (k : Option Capture) :
    (s.setCapture n k).channels = s.channels := rfl
@[simp] theorem State.setCapture_tests (n : LineId) (k : Option Capture) :
    (s.setCapture n k).tests = s.tests := rfl
@[simp] theorem State.setCapture_linkA (n : LineId) (k : Option Capture) :
    (s.setCapture n k).linkA = s.linkA := rfl
@[simp] theorem State.setCapture_linkB (n : LineId) (k : Option Capture) :
    (s.setCapture n k).linkB = s.linkB := rfl
@[simp] theorem State.setCapture_linkS (n : LineId) (k : Option Capture) :
    (s.setCapture n k).linkS = s.linkS := rfl
@[simp] theorem State.setCapture_centreA (n : LineId) (k : Option Capture) :
    (s.setCapture n k).centreA = s.centreA := rfl
@[simp] theorem State.setCapture_centreB (n : LineId) (k : Option Capture) :
    (s.setCapture n k).centreB = s.centreB := rfl
@[simp] theorem State.setCapture_group (n : LineId) (k : Option Capture) (x : GroupId) :
    (s.setCapture n k).group x = s.group x := rfl
@[simp] theorem State.setCapture_classifier (n : LineId) (k : Option Capture) (x : LineId) :
    (s.setCapture n k).classifier x = s.classifier x := rfl
@[simp] theorem State.setCapture_line (n : LineId) (k : Option Capture) (x : LineId) :
    (s.setCapture n k).line x = s.line x := rfl
@[simp] theorem State.setCapture_receiver (n : LineId) (k : Option Capture) (x : GroupId) :
    (s.setCapture n k).receiver x = s.receiver x := rfl
@[simp] theorem State.setCapture_entry (n : LineId) (k : Option Capture) (x : LineId) :
    (s.setCapture n k).entry x = s.entry x := rfl
@[simp] theorem State.setCapture_profile (n : LineId) (k : Option Capture) (x : ProfileId) :
    (s.setCapture n k).profile x = s.profile x := rfl
@[simp] theorem State.setCapture_profileOf (n : LineId) (k : Option Capture) (x : LineId) :
    (s.setCapture n k).profileOf x = s.profileOf x := rfl
@[simp] theorem State.setCapture_channel (n : LineId) (k : Option Capture) (x : ChannelId) :
    (s.setCapture n k).channel x = s.channel x := rfl
@[simp] theorem State.setCapture_test (n : LineId) (k : Option Capture) (x : GroupId) :
    (s.setCapture n k).test x = s.test x := rfl
@[simp] theorem State.setCapture_link (n : LineId) (k : Option Capture) (x : Link) :
    (s.setCapture n k).link x = s.link x := rfl
@[simp] theorem State.setCapture_centre (n : LineId) (k : Option Capture) (x : Centre) :
    (s.setCapture n k).centre x = s.centre x := rfl
@[simp] theorem State.setCapture_reportPending (n : LineId) (k : Option Capture) (x : Link) :
    (s.setCapture n k).reportPending x = s.reportPending x := rfl
@[simp] theorem State.setCapture_input (n : LineId) (k : Option Capture) (x : Input) :
    (s.setCapture n k).input x = s.input x := rfl
@[simp] theorem State.setCapture_recordById (n : LineId) (k : Option Capture) (x : CallId) :
    (s.setCapture n k).recordById x = s.recordById x := rfl
@[simp] theorem State.setCapture_recordOfLine (n : LineId) (k : Option Capture) (x : LineId) :
    (s.setCapture n k).recordOfLine x = s.recordOfLine x := rfl
@[simp] theorem State.setCapture_isLost (n : LineId) (k : Option Capture) (x : Link) :
    (s.setCapture n k).isLost x = s.isLost x := rfl

/-! ### setReceiver -/

@[simp] theorem State.setReceiver_pending (g : GroupId) (r : Receiver) :
    (s.setReceiver g r).pending = s.pending := rfl
@[simp] theorem State.setReceiver_clock (g : GroupId) (r : Receiver) :
    (s.setReceiver g r).clock = s.clock := rfl
@[simp] theorem State.setReceiver_subTick (g : GroupId) (r : Receiver) :
    (s.setReceiver g r).subTick = s.subTick := rfl
@[simp] theorem State.setReceiver_tick (g : GroupId) (r : Receiver) :
    (s.setReceiver g r).tick = s.tick := rfl
@[simp] theorem State.setReceiver_orders (g : GroupId) (r : Receiver) :
    (s.setReceiver g r).orders = s.orders := rfl
@[simp] theorem State.setReceiver_mainsOk (g : GroupId) (r : Receiver) :
    (s.setReceiver g r).mainsOk = s.mainsOk := rfl
@[simp] theorem State.setReceiver_batteryLow (g : GroupId) (r : Receiver) :
    (s.setReceiver g r).batteryLow = s.batteryLow := rfl
@[simp] theorem State.setReceiver_key (g : GroupId) (r : Receiver) :
    (s.setReceiver g r).key = s.key := rfl
@[simp] theorem State.setReceiver_power (g : GroupId) (r : Receiver) :
    (s.setReceiver g r).power = s.power := rfl
@[simp] theorem State.setReceiver_load (g : GroupId) (r : Receiver) :
    (s.setReceiver g r).load = s.load := rfl
@[simp] theorem State.setReceiver_window (g : GroupId) (r : Receiver) :
    (s.setReceiver g r).window = s.window := rfl
@[simp] theorem State.setReceiver_groups (g : GroupId) (r : Receiver) :
    (s.setReceiver g r).groups = s.groups := rfl
@[simp] theorem State.setReceiver_classifiers (g : GroupId) (r : Receiver) :
    (s.setReceiver g r).classifiers = s.classifiers := rfl
@[simp] theorem State.setReceiver_lines (g : GroupId) (r : Receiver) :
    (s.setReceiver g r).lines = s.lines := rfl
@[simp] theorem State.setReceiver_captures (g : GroupId) (r : Receiver) :
    (s.setReceiver g r).captures = s.captures := rfl
@[simp] theorem State.setReceiver_acceptance (g : GroupId) (r : Receiver) :
    (s.setReceiver g r).acceptance = s.acceptance := rfl
@[simp] theorem State.setReceiver_entries (g : GroupId) (r : Receiver) :
    (s.setReceiver g r).entries = s.entries := rfl
@[simp] theorem State.setReceiver_profiles (g : GroupId) (r : Receiver) :
    (s.setReceiver g r).profiles = s.profiles := rfl
@[simp] theorem State.setReceiver_timers (g : GroupId) (r : Receiver) :
    (s.setReceiver g r).timers = s.timers := rfl
@[simp] theorem State.setReceiver_bearer (g : GroupId) (r : Receiver) :
    (s.setReceiver g r).bearer = s.bearer := rfl
@[simp] theorem State.setReceiver_writes (g : GroupId) (r : Receiver) :
    (s.setReceiver g r).writes = s.writes := rfl
@[simp] theorem State.setReceiver_stored (g : GroupId) (r : Receiver) :
    (s.setReceiver g r).stored = s.stored := rfl
@[simp] theorem State.setReceiver_report (g : GroupId) (r : Receiver) :
    (s.setReceiver g r).report = s.report := rfl
@[simp] theorem State.setReceiver_reportPendingA (g : GroupId) (r : Receiver) :
    (s.setReceiver g r).reportPendingA = s.reportPendingA := rfl
@[simp] theorem State.setReceiver_reportPendingB (g : GroupId) (r : Receiver) :
    (s.setReceiver g r).reportPendingB = s.reportPendingB := rfl
@[simp] theorem State.setReceiver_reportPendingS (g : GroupId) (r : Receiver) :
    (s.setReceiver g r).reportPendingS = s.reportPendingS := rfl
@[simp] theorem State.setReceiver_records (g : GroupId) (r : Receiver) :
    (s.setReceiver g r).records = s.records := rfl
@[simp] theorem State.setReceiver_overflow (g : GroupId) (r : Receiver) :
    (s.setReceiver g r).overflow = s.overflow := rfl
@[simp] theorem State.setReceiver_abandoned (g : GroupId) (r : Receiver) :
    (s.setReceiver g r).abandoned = s.abandoned := rfl
@[simp] theorem State.setReceiver_overflowed (g : GroupId) (r : Receiver) :
    (s.setReceiver g r).overflowed = s.overflowed := rfl
@[simp] theorem State.setReceiver_idCounter (g : GroupId) (r : Receiver) :
    (s.setReceiver g r).idCounter = s.idCounter := rfl
@[simp] theorem State.setReceiver_channels (g : GroupId) (r : Receiver) :
    (s.setReceiver g r).channels = s.channels := rfl
@[simp] theorem State.setReceiver_tests (g : GroupId) (r : Receiver) :
    (s.setReceiver g r).tests = s.tests := rfl
@[simp] theorem State.setReceiver_linkA (g : GroupId) (r : Receiver) :
    (s.setReceiver g r).linkA = s.linkA := rfl
@[simp] theorem State.setReceiver_linkB (g : GroupId) (r : Receiver) :
    (s.setReceiver g r).linkB = s.linkB := rfl
@[simp] theorem State.setReceiver_linkS (g : GroupId) (r : Receiver) :
    (s.setReceiver g r).linkS = s.linkS := rfl
@[simp] theorem State.setReceiver_centreA (g : GroupId) (r : Receiver) :
    (s.setReceiver g r).centreA = s.centreA := rfl
@[simp] theorem State.setReceiver_centreB (g : GroupId) (r : Receiver) :
    (s.setReceiver g r).centreB = s.centreB := rfl
@[simp] theorem State.setReceiver_group (g : GroupId) (r : Receiver) (x : GroupId) :
    (s.setReceiver g r).group x = s.group x := rfl
@[simp] theorem State.setReceiver_classifier (g : GroupId) (r : Receiver) (x : LineId) :
    (s.setReceiver g r).classifier x = s.classifier x := rfl
@[simp] theorem State.setReceiver_line (g : GroupId) (r : Receiver) (x : LineId) :
    (s.setReceiver g r).line x = s.line x := rfl
@[simp] theorem State.setReceiver_capture (g : GroupId) (r : Receiver) (x : LineId) :
    (s.setReceiver g r).capture x = s.capture x := rfl
@[simp] theorem State.setReceiver_entry (g : GroupId) (r : Receiver) (x : LineId) :
    (s.setReceiver g r).entry x = s.entry x := rfl
@[simp] theorem State.setReceiver_profile (g : GroupId) (r : Receiver) (x : ProfileId) :
    (s.setReceiver g r).profile x = s.profile x := rfl
@[simp] theorem State.setReceiver_profileOf (g : GroupId) (r : Receiver) (x : LineId) :
    (s.setReceiver g r).profileOf x = s.profileOf x := rfl
@[simp] theorem State.setReceiver_channel (g : GroupId) (r : Receiver) (x : ChannelId) :
    (s.setReceiver g r).channel x = s.channel x := rfl
@[simp] theorem State.setReceiver_test (g : GroupId) (r : Receiver) (x : GroupId) :
    (s.setReceiver g r).test x = s.test x := rfl
@[simp] theorem State.setReceiver_link (g : GroupId) (r : Receiver) (x : Link) :
    (s.setReceiver g r).link x = s.link x := rfl
@[simp] theorem State.setReceiver_centre (g : GroupId) (r : Receiver) (x : Centre) :
    (s.setReceiver g r).centre x = s.centre x := rfl
@[simp] theorem State.setReceiver_reportPending (g : GroupId) (r : Receiver) (x : Link) :
    (s.setReceiver g r).reportPending x = s.reportPending x := rfl
@[simp] theorem State.setReceiver_input (g : GroupId) (r : Receiver) (x : Input) :
    (s.setReceiver g r).input x = s.input x := rfl
@[simp] theorem State.setReceiver_recordById (g : GroupId) (r : Receiver) (x : CallId) :
    (s.setReceiver g r).recordById x = s.recordById x := rfl
@[simp] theorem State.setReceiver_recordOfLine (g : GroupId) (r : Receiver) (x : LineId) :
    (s.setReceiver g r).recordOfLine x = s.recordOfLine x := rfl
@[simp] theorem State.setReceiver_isLost (g : GroupId) (r : Receiver) (x : Link) :
    (s.setReceiver g r).isLost x = s.isLost x := rfl

/-! ### setEntry -/

@[simp] theorem State.setEntry_pending (n : LineId) (e : Entry) :
    (s.setEntry n e).pending = s.pending := rfl
@[simp] theorem State.setEntry_clock (n : LineId) (e : Entry) :
    (s.setEntry n e).clock = s.clock := rfl
@[simp] theorem State.setEntry_subTick (n : LineId) (e : Entry) :
    (s.setEntry n e).subTick = s.subTick := rfl
@[simp] theorem State.setEntry_tick (n : LineId) (e : Entry) :
    (s.setEntry n e).tick = s.tick := rfl
@[simp] theorem State.setEntry_orders (n : LineId) (e : Entry) :
    (s.setEntry n e).orders = s.orders := rfl
@[simp] theorem State.setEntry_mainsOk (n : LineId) (e : Entry) :
    (s.setEntry n e).mainsOk = s.mainsOk := rfl
@[simp] theorem State.setEntry_batteryLow (n : LineId) (e : Entry) :
    (s.setEntry n e).batteryLow = s.batteryLow := rfl
@[simp] theorem State.setEntry_key (n : LineId) (e : Entry) :
    (s.setEntry n e).key = s.key := rfl
@[simp] theorem State.setEntry_power (n : LineId) (e : Entry) :
    (s.setEntry n e).power = s.power := rfl
@[simp] theorem State.setEntry_load (n : LineId) (e : Entry) :
    (s.setEntry n e).load = s.load := rfl
@[simp] theorem State.setEntry_window (n : LineId) (e : Entry) :
    (s.setEntry n e).window = s.window := rfl
@[simp] theorem State.setEntry_groups (n : LineId) (e : Entry) :
    (s.setEntry n e).groups = s.groups := rfl
@[simp] theorem State.setEntry_classifiers (n : LineId) (e : Entry) :
    (s.setEntry n e).classifiers = s.classifiers := rfl
@[simp] theorem State.setEntry_lines (n : LineId) (e : Entry) :
    (s.setEntry n e).lines = s.lines := rfl
@[simp] theorem State.setEntry_captures (n : LineId) (e : Entry) :
    (s.setEntry n e).captures = s.captures := rfl
@[simp] theorem State.setEntry_receivers (n : LineId) (e : Entry) :
    (s.setEntry n e).receivers = s.receivers := rfl
@[simp] theorem State.setEntry_acceptance (n : LineId) (e : Entry) :
    (s.setEntry n e).acceptance = s.acceptance := rfl
@[simp] theorem State.setEntry_profiles (n : LineId) (e : Entry) :
    (s.setEntry n e).profiles = s.profiles := rfl
@[simp] theorem State.setEntry_timers (n : LineId) (e : Entry) :
    (s.setEntry n e).timers = s.timers := rfl
@[simp] theorem State.setEntry_bearer (n : LineId) (e : Entry) :
    (s.setEntry n e).bearer = s.bearer := rfl
@[simp] theorem State.setEntry_writes (n : LineId) (e : Entry) :
    (s.setEntry n e).writes = s.writes := rfl
@[simp] theorem State.setEntry_stored (n : LineId) (e : Entry) :
    (s.setEntry n e).stored = s.stored := rfl
@[simp] theorem State.setEntry_report (n : LineId) (e : Entry) :
    (s.setEntry n e).report = s.report := rfl
@[simp] theorem State.setEntry_reportPendingA (n : LineId) (e : Entry) :
    (s.setEntry n e).reportPendingA = s.reportPendingA := rfl
@[simp] theorem State.setEntry_reportPendingB (n : LineId) (e : Entry) :
    (s.setEntry n e).reportPendingB = s.reportPendingB := rfl
@[simp] theorem State.setEntry_reportPendingS (n : LineId) (e : Entry) :
    (s.setEntry n e).reportPendingS = s.reportPendingS := rfl
@[simp] theorem State.setEntry_records (n : LineId) (e : Entry) :
    (s.setEntry n e).records = s.records := rfl
@[simp] theorem State.setEntry_overflow (n : LineId) (e : Entry) :
    (s.setEntry n e).overflow = s.overflow := rfl
@[simp] theorem State.setEntry_abandoned (n : LineId) (e : Entry) :
    (s.setEntry n e).abandoned = s.abandoned := rfl
@[simp] theorem State.setEntry_overflowed (n : LineId) (e : Entry) :
    (s.setEntry n e).overflowed = s.overflowed := rfl
@[simp] theorem State.setEntry_idCounter (n : LineId) (e : Entry) :
    (s.setEntry n e).idCounter = s.idCounter := rfl
@[simp] theorem State.setEntry_channels (n : LineId) (e : Entry) :
    (s.setEntry n e).channels = s.channels := rfl
@[simp] theorem State.setEntry_tests (n : LineId) (e : Entry) :
    (s.setEntry n e).tests = s.tests := rfl
@[simp] theorem State.setEntry_linkA (n : LineId) (e : Entry) :
    (s.setEntry n e).linkA = s.linkA := rfl
@[simp] theorem State.setEntry_linkB (n : LineId) (e : Entry) :
    (s.setEntry n e).linkB = s.linkB := rfl
@[simp] theorem State.setEntry_linkS (n : LineId) (e : Entry) :
    (s.setEntry n e).linkS = s.linkS := rfl
@[simp] theorem State.setEntry_centreA (n : LineId) (e : Entry) :
    (s.setEntry n e).centreA = s.centreA := rfl
@[simp] theorem State.setEntry_centreB (n : LineId) (e : Entry) :
    (s.setEntry n e).centreB = s.centreB := rfl
@[simp] theorem State.setEntry_group (n : LineId) (e : Entry) (x : GroupId) :
    (s.setEntry n e).group x = s.group x := rfl
@[simp] theorem State.setEntry_classifier (n : LineId) (e : Entry) (x : LineId) :
    (s.setEntry n e).classifier x = s.classifier x := rfl
@[simp] theorem State.setEntry_line (n : LineId) (e : Entry) (x : LineId) :
    (s.setEntry n e).line x = s.line x := rfl
@[simp] theorem State.setEntry_capture (n : LineId) (e : Entry) (x : LineId) :
    (s.setEntry n e).capture x = s.capture x := rfl
@[simp] theorem State.setEntry_receiver (n : LineId) (e : Entry) (x : GroupId) :
    (s.setEntry n e).receiver x = s.receiver x := rfl
@[simp] theorem State.setEntry_profile (n : LineId) (e : Entry) (x : ProfileId) :
    (s.setEntry n e).profile x = s.profile x := rfl
@[simp] theorem State.setEntry_channel (n : LineId) (e : Entry) (x : ChannelId) :
    (s.setEntry n e).channel x = s.channel x := rfl
@[simp] theorem State.setEntry_test (n : LineId) (e : Entry) (x : GroupId) :
    (s.setEntry n e).test x = s.test x := rfl
@[simp] theorem State.setEntry_link (n : LineId) (e : Entry) (x : Link) :
    (s.setEntry n e).link x = s.link x := rfl
@[simp] theorem State.setEntry_centre (n : LineId) (e : Entry) (x : Centre) :
    (s.setEntry n e).centre x = s.centre x := rfl
@[simp] theorem State.setEntry_reportPending (n : LineId) (e : Entry) (x : Link) :
    (s.setEntry n e).reportPending x = s.reportPending x := rfl
@[simp] theorem State.setEntry_input (n : LineId) (e : Entry) (x : Input) :
    (s.setEntry n e).input x = s.input x := rfl
@[simp] theorem State.setEntry_recordById (n : LineId) (e : Entry) (x : CallId) :
    (s.setEntry n e).recordById x = s.recordById x := rfl
@[simp] theorem State.setEntry_recordOfLine (n : LineId) (e : Entry) (x : LineId) :
    (s.setEntry n e).recordOfLine x = s.recordOfLine x := rfl
@[simp] theorem State.setEntry_isLost (n : LineId) (e : Entry) (x : Link) :
    (s.setEntry n e).isLost x = s.isLost x := rfl

/-! ### setProfile -/

@[simp] theorem State.setProfile_pending (p : ProfileId) (q : Profile) :
    (s.setProfile p q).pending = s.pending := rfl
@[simp] theorem State.setProfile_clock (p : ProfileId) (q : Profile) :
    (s.setProfile p q).clock = s.clock := rfl
@[simp] theorem State.setProfile_subTick (p : ProfileId) (q : Profile) :
    (s.setProfile p q).subTick = s.subTick := rfl
@[simp] theorem State.setProfile_tick (p : ProfileId) (q : Profile) :
    (s.setProfile p q).tick = s.tick := rfl
@[simp] theorem State.setProfile_orders (p : ProfileId) (q : Profile) :
    (s.setProfile p q).orders = s.orders := rfl
@[simp] theorem State.setProfile_mainsOk (p : ProfileId) (q : Profile) :
    (s.setProfile p q).mainsOk = s.mainsOk := rfl
@[simp] theorem State.setProfile_batteryLow (p : ProfileId) (q : Profile) :
    (s.setProfile p q).batteryLow = s.batteryLow := rfl
@[simp] theorem State.setProfile_key (p : ProfileId) (q : Profile) :
    (s.setProfile p q).key = s.key := rfl
@[simp] theorem State.setProfile_power (p : ProfileId) (q : Profile) :
    (s.setProfile p q).power = s.power := rfl
@[simp] theorem State.setProfile_load (p : ProfileId) (q : Profile) :
    (s.setProfile p q).load = s.load := rfl
@[simp] theorem State.setProfile_window (p : ProfileId) (q : Profile) :
    (s.setProfile p q).window = s.window := rfl
@[simp] theorem State.setProfile_groups (p : ProfileId) (q : Profile) :
    (s.setProfile p q).groups = s.groups := rfl
@[simp] theorem State.setProfile_classifiers (p : ProfileId) (q : Profile) :
    (s.setProfile p q).classifiers = s.classifiers := rfl
@[simp] theorem State.setProfile_lines (p : ProfileId) (q : Profile) :
    (s.setProfile p q).lines = s.lines := rfl
@[simp] theorem State.setProfile_captures (p : ProfileId) (q : Profile) :
    (s.setProfile p q).captures = s.captures := rfl
@[simp] theorem State.setProfile_receivers (p : ProfileId) (q : Profile) :
    (s.setProfile p q).receivers = s.receivers := rfl
@[simp] theorem State.setProfile_acceptance (p : ProfileId) (q : Profile) :
    (s.setProfile p q).acceptance = s.acceptance := rfl
@[simp] theorem State.setProfile_entries (p : ProfileId) (q : Profile) :
    (s.setProfile p q).entries = s.entries := rfl
@[simp] theorem State.setProfile_timers (p : ProfileId) (q : Profile) :
    (s.setProfile p q).timers = s.timers := rfl
@[simp] theorem State.setProfile_bearer (p : ProfileId) (q : Profile) :
    (s.setProfile p q).bearer = s.bearer := rfl
@[simp] theorem State.setProfile_writes (p : ProfileId) (q : Profile) :
    (s.setProfile p q).writes = s.writes := rfl
@[simp] theorem State.setProfile_stored (p : ProfileId) (q : Profile) :
    (s.setProfile p q).stored = s.stored := rfl
@[simp] theorem State.setProfile_report (p : ProfileId) (q : Profile) :
    (s.setProfile p q).report = s.report := rfl
@[simp] theorem State.setProfile_reportPendingA (p : ProfileId) (q : Profile) :
    (s.setProfile p q).reportPendingA = s.reportPendingA := rfl
@[simp] theorem State.setProfile_reportPendingB (p : ProfileId) (q : Profile) :
    (s.setProfile p q).reportPendingB = s.reportPendingB := rfl
@[simp] theorem State.setProfile_reportPendingS (p : ProfileId) (q : Profile) :
    (s.setProfile p q).reportPendingS = s.reportPendingS := rfl
@[simp] theorem State.setProfile_records (p : ProfileId) (q : Profile) :
    (s.setProfile p q).records = s.records := rfl
@[simp] theorem State.setProfile_overflow (p : ProfileId) (q : Profile) :
    (s.setProfile p q).overflow = s.overflow := rfl
@[simp] theorem State.setProfile_abandoned (p : ProfileId) (q : Profile) :
    (s.setProfile p q).abandoned = s.abandoned := rfl
@[simp] theorem State.setProfile_overflowed (p : ProfileId) (q : Profile) :
    (s.setProfile p q).overflowed = s.overflowed := rfl
@[simp] theorem State.setProfile_idCounter (p : ProfileId) (q : Profile) :
    (s.setProfile p q).idCounter = s.idCounter := rfl
@[simp] theorem State.setProfile_channels (p : ProfileId) (q : Profile) :
    (s.setProfile p q).channels = s.channels := rfl
@[simp] theorem State.setProfile_tests (p : ProfileId) (q : Profile) :
    (s.setProfile p q).tests = s.tests := rfl
@[simp] theorem State.setProfile_linkA (p : ProfileId) (q : Profile) :
    (s.setProfile p q).linkA = s.linkA := rfl
@[simp] theorem State.setProfile_linkB (p : ProfileId) (q : Profile) :
    (s.setProfile p q).linkB = s.linkB := rfl
@[simp] theorem State.setProfile_linkS (p : ProfileId) (q : Profile) :
    (s.setProfile p q).linkS = s.linkS := rfl
@[simp] theorem State.setProfile_centreA (p : ProfileId) (q : Profile) :
    (s.setProfile p q).centreA = s.centreA := rfl
@[simp] theorem State.setProfile_centreB (p : ProfileId) (q : Profile) :
    (s.setProfile p q).centreB = s.centreB := rfl
@[simp] theorem State.setProfile_group (p : ProfileId) (q : Profile) (x : GroupId) :
    (s.setProfile p q).group x = s.group x := rfl
@[simp] theorem State.setProfile_classifier (p : ProfileId) (q : Profile) (x : LineId) :
    (s.setProfile p q).classifier x = s.classifier x := rfl
@[simp] theorem State.setProfile_line (p : ProfileId) (q : Profile) (x : LineId) :
    (s.setProfile p q).line x = s.line x := rfl
@[simp] theorem State.setProfile_capture (p : ProfileId) (q : Profile) (x : LineId) :
    (s.setProfile p q).capture x = s.capture x := rfl
@[simp] theorem State.setProfile_receiver (p : ProfileId) (q : Profile) (x : GroupId) :
    (s.setProfile p q).receiver x = s.receiver x := rfl
@[simp] theorem State.setProfile_entry (p : ProfileId) (q : Profile) (x : LineId) :
    (s.setProfile p q).entry x = s.entry x := rfl
@[simp] theorem State.setProfile_channel (p : ProfileId) (q : Profile) (x : ChannelId) :
    (s.setProfile p q).channel x = s.channel x := rfl
@[simp] theorem State.setProfile_test (p : ProfileId) (q : Profile) (x : GroupId) :
    (s.setProfile p q).test x = s.test x := rfl
@[simp] theorem State.setProfile_link (p : ProfileId) (q : Profile) (x : Link) :
    (s.setProfile p q).link x = s.link x := rfl
@[simp] theorem State.setProfile_centre (p : ProfileId) (q : Profile) (x : Centre) :
    (s.setProfile p q).centre x = s.centre x := rfl
@[simp] theorem State.setProfile_reportPending (p : ProfileId) (q : Profile) (x : Link) :
    (s.setProfile p q).reportPending x = s.reportPending x := rfl
@[simp] theorem State.setProfile_input (p : ProfileId) (q : Profile) (x : Input) :
    (s.setProfile p q).input x = s.input x := rfl
@[simp] theorem State.setProfile_recordById (p : ProfileId) (q : Profile) (x : CallId) :
    (s.setProfile p q).recordById x = s.recordById x := rfl
@[simp] theorem State.setProfile_recordOfLine (p : ProfileId) (q : Profile) (x : LineId) :
    (s.setProfile p q).recordOfLine x = s.recordOfLine x := rfl
@[simp] theorem State.setProfile_isLost (p : ProfileId) (q : Profile) (x : Link) :
    (s.setProfile p q).isLost x = s.isLost x := rfl

/-! ### setChannel -/

@[simp] theorem State.setChannel_pending (ch : ChannelId) (k : Channel) :
    (s.setChannel ch k).pending = s.pending := rfl
@[simp] theorem State.setChannel_clock (ch : ChannelId) (k : Channel) :
    (s.setChannel ch k).clock = s.clock := rfl
@[simp] theorem State.setChannel_subTick (ch : ChannelId) (k : Channel) :
    (s.setChannel ch k).subTick = s.subTick := rfl
@[simp] theorem State.setChannel_tick (ch : ChannelId) (k : Channel) :
    (s.setChannel ch k).tick = s.tick := rfl
@[simp] theorem State.setChannel_orders (ch : ChannelId) (k : Channel) :
    (s.setChannel ch k).orders = s.orders := rfl
@[simp] theorem State.setChannel_mainsOk (ch : ChannelId) (k : Channel) :
    (s.setChannel ch k).mainsOk = s.mainsOk := rfl
@[simp] theorem State.setChannel_batteryLow (ch : ChannelId) (k : Channel) :
    (s.setChannel ch k).batteryLow = s.batteryLow := rfl
@[simp] theorem State.setChannel_key (ch : ChannelId) (k : Channel) :
    (s.setChannel ch k).key = s.key := rfl
@[simp] theorem State.setChannel_power (ch : ChannelId) (k : Channel) :
    (s.setChannel ch k).power = s.power := rfl
@[simp] theorem State.setChannel_load (ch : ChannelId) (k : Channel) :
    (s.setChannel ch k).load = s.load := rfl
@[simp] theorem State.setChannel_window (ch : ChannelId) (k : Channel) :
    (s.setChannel ch k).window = s.window := rfl
@[simp] theorem State.setChannel_groups (ch : ChannelId) (k : Channel) :
    (s.setChannel ch k).groups = s.groups := rfl
@[simp] theorem State.setChannel_classifiers (ch : ChannelId) (k : Channel) :
    (s.setChannel ch k).classifiers = s.classifiers := rfl
@[simp] theorem State.setChannel_lines (ch : ChannelId) (k : Channel) :
    (s.setChannel ch k).lines = s.lines := rfl
@[simp] theorem State.setChannel_captures (ch : ChannelId) (k : Channel) :
    (s.setChannel ch k).captures = s.captures := rfl
@[simp] theorem State.setChannel_receivers (ch : ChannelId) (k : Channel) :
    (s.setChannel ch k).receivers = s.receivers := rfl
@[simp] theorem State.setChannel_acceptance (ch : ChannelId) (k : Channel) :
    (s.setChannel ch k).acceptance = s.acceptance := rfl
@[simp] theorem State.setChannel_entries (ch : ChannelId) (k : Channel) :
    (s.setChannel ch k).entries = s.entries := rfl
@[simp] theorem State.setChannel_profiles (ch : ChannelId) (k : Channel) :
    (s.setChannel ch k).profiles = s.profiles := rfl
@[simp] theorem State.setChannel_timers (ch : ChannelId) (k : Channel) :
    (s.setChannel ch k).timers = s.timers := rfl
@[simp] theorem State.setChannel_bearer (ch : ChannelId) (k : Channel) :
    (s.setChannel ch k).bearer = s.bearer := rfl
@[simp] theorem State.setChannel_writes (ch : ChannelId) (k : Channel) :
    (s.setChannel ch k).writes = s.writes := rfl
@[simp] theorem State.setChannel_stored (ch : ChannelId) (k : Channel) :
    (s.setChannel ch k).stored = s.stored := rfl
@[simp] theorem State.setChannel_report (ch : ChannelId) (k : Channel) :
    (s.setChannel ch k).report = s.report := rfl
@[simp] theorem State.setChannel_reportPendingA (ch : ChannelId) (k : Channel) :
    (s.setChannel ch k).reportPendingA = s.reportPendingA := rfl
@[simp] theorem State.setChannel_reportPendingB (ch : ChannelId) (k : Channel) :
    (s.setChannel ch k).reportPendingB = s.reportPendingB := rfl
@[simp] theorem State.setChannel_reportPendingS (ch : ChannelId) (k : Channel) :
    (s.setChannel ch k).reportPendingS = s.reportPendingS := rfl
@[simp] theorem State.setChannel_records (ch : ChannelId) (k : Channel) :
    (s.setChannel ch k).records = s.records := rfl
@[simp] theorem State.setChannel_overflow (ch : ChannelId) (k : Channel) :
    (s.setChannel ch k).overflow = s.overflow := rfl
@[simp] theorem State.setChannel_abandoned (ch : ChannelId) (k : Channel) :
    (s.setChannel ch k).abandoned = s.abandoned := rfl
@[simp] theorem State.setChannel_overflowed (ch : ChannelId) (k : Channel) :
    (s.setChannel ch k).overflowed = s.overflowed := rfl
@[simp] theorem State.setChannel_idCounter (ch : ChannelId) (k : Channel) :
    (s.setChannel ch k).idCounter = s.idCounter := rfl
@[simp] theorem State.setChannel_tests (ch : ChannelId) (k : Channel) :
    (s.setChannel ch k).tests = s.tests := rfl
@[simp] theorem State.setChannel_linkA (ch : ChannelId) (k : Channel) :
    (s.setChannel ch k).linkA = s.linkA := rfl
@[simp] theorem State.setChannel_linkB (ch : ChannelId) (k : Channel) :
    (s.setChannel ch k).linkB = s.linkB := rfl
@[simp] theorem State.setChannel_linkS (ch : ChannelId) (k : Channel) :
    (s.setChannel ch k).linkS = s.linkS := rfl
@[simp] theorem State.setChannel_centreA (ch : ChannelId) (k : Channel) :
    (s.setChannel ch k).centreA = s.centreA := rfl
@[simp] theorem State.setChannel_centreB (ch : ChannelId) (k : Channel) :
    (s.setChannel ch k).centreB = s.centreB := rfl
@[simp] theorem State.setChannel_group (ch : ChannelId) (k : Channel) (x : GroupId) :
    (s.setChannel ch k).group x = s.group x := rfl
@[simp] theorem State.setChannel_classifier (ch : ChannelId) (k : Channel) (x : LineId) :
    (s.setChannel ch k).classifier x = s.classifier x := rfl
@[simp] theorem State.setChannel_line (ch : ChannelId) (k : Channel) (x : LineId) :
    (s.setChannel ch k).line x = s.line x := rfl
@[simp] theorem State.setChannel_capture (ch : ChannelId) (k : Channel) (x : LineId) :
    (s.setChannel ch k).capture x = s.capture x := rfl
@[simp] theorem State.setChannel_receiver (ch : ChannelId) (k : Channel) (x : GroupId) :
    (s.setChannel ch k).receiver x = s.receiver x := rfl
@[simp] theorem State.setChannel_entry (ch : ChannelId) (k : Channel) (x : LineId) :
    (s.setChannel ch k).entry x = s.entry x := rfl
@[simp] theorem State.setChannel_profile (ch : ChannelId) (k : Channel) (x : ProfileId) :
    (s.setChannel ch k).profile x = s.profile x := rfl
@[simp] theorem State.setChannel_profileOf (ch : ChannelId) (k : Channel) (x : LineId) :
    (s.setChannel ch k).profileOf x = s.profileOf x := rfl
@[simp] theorem State.setChannel_test (ch : ChannelId) (k : Channel) (x : GroupId) :
    (s.setChannel ch k).test x = s.test x := rfl
@[simp] theorem State.setChannel_link (ch : ChannelId) (k : Channel) (x : Link) :
    (s.setChannel ch k).link x = s.link x := rfl
@[simp] theorem State.setChannel_centre (ch : ChannelId) (k : Channel) (x : Centre) :
    (s.setChannel ch k).centre x = s.centre x := rfl
@[simp] theorem State.setChannel_reportPending (ch : ChannelId) (k : Channel) (x : Link) :
    (s.setChannel ch k).reportPending x = s.reportPending x := rfl
@[simp] theorem State.setChannel_input (ch : ChannelId) (k : Channel) (x : Input) :
    (s.setChannel ch k).input x = s.input x := rfl
@[simp] theorem State.setChannel_recordById (ch : ChannelId) (k : Channel) (x : CallId) :
    (s.setChannel ch k).recordById x = s.recordById x := rfl
@[simp] theorem State.setChannel_recordOfLine (ch : ChannelId) (k : Channel) (x : LineId) :
    (s.setChannel ch k).recordOfLine x = s.recordOfLine x := rfl
@[simp] theorem State.setChannel_isLost (ch : ChannelId) (k : Channel) (x : Link) :
    (s.setChannel ch k).isLost x = s.isLost x := rfl

/-! ### setTest -/

@[simp] theorem State.setTest_pending (g : GroupId) (t : Option TestRecord) :
    (s.setTest g t).pending = s.pending := rfl
@[simp] theorem State.setTest_clock (g : GroupId) (t : Option TestRecord) :
    (s.setTest g t).clock = s.clock := rfl
@[simp] theorem State.setTest_subTick (g : GroupId) (t : Option TestRecord) :
    (s.setTest g t).subTick = s.subTick := rfl
@[simp] theorem State.setTest_tick (g : GroupId) (t : Option TestRecord) :
    (s.setTest g t).tick = s.tick := rfl
@[simp] theorem State.setTest_orders (g : GroupId) (t : Option TestRecord) :
    (s.setTest g t).orders = s.orders := rfl
@[simp] theorem State.setTest_mainsOk (g : GroupId) (t : Option TestRecord) :
    (s.setTest g t).mainsOk = s.mainsOk := rfl
@[simp] theorem State.setTest_batteryLow (g : GroupId) (t : Option TestRecord) :
    (s.setTest g t).batteryLow = s.batteryLow := rfl
@[simp] theorem State.setTest_key (g : GroupId) (t : Option TestRecord) :
    (s.setTest g t).key = s.key := rfl
@[simp] theorem State.setTest_power (g : GroupId) (t : Option TestRecord) :
    (s.setTest g t).power = s.power := rfl
@[simp] theorem State.setTest_load (g : GroupId) (t : Option TestRecord) :
    (s.setTest g t).load = s.load := rfl
@[simp] theorem State.setTest_window (g : GroupId) (t : Option TestRecord) :
    (s.setTest g t).window = s.window := rfl
@[simp] theorem State.setTest_groups (g : GroupId) (t : Option TestRecord) :
    (s.setTest g t).groups = s.groups := rfl
@[simp] theorem State.setTest_classifiers (g : GroupId) (t : Option TestRecord) :
    (s.setTest g t).classifiers = s.classifiers := rfl
@[simp] theorem State.setTest_lines (g : GroupId) (t : Option TestRecord) :
    (s.setTest g t).lines = s.lines := rfl
@[simp] theorem State.setTest_captures (g : GroupId) (t : Option TestRecord) :
    (s.setTest g t).captures = s.captures := rfl
@[simp] theorem State.setTest_receivers (g : GroupId) (t : Option TestRecord) :
    (s.setTest g t).receivers = s.receivers := rfl
@[simp] theorem State.setTest_acceptance (g : GroupId) (t : Option TestRecord) :
    (s.setTest g t).acceptance = s.acceptance := rfl
@[simp] theorem State.setTest_entries (g : GroupId) (t : Option TestRecord) :
    (s.setTest g t).entries = s.entries := rfl
@[simp] theorem State.setTest_profiles (g : GroupId) (t : Option TestRecord) :
    (s.setTest g t).profiles = s.profiles := rfl
@[simp] theorem State.setTest_timers (g : GroupId) (t : Option TestRecord) :
    (s.setTest g t).timers = s.timers := rfl
@[simp] theorem State.setTest_bearer (g : GroupId) (t : Option TestRecord) :
    (s.setTest g t).bearer = s.bearer := rfl
@[simp] theorem State.setTest_writes (g : GroupId) (t : Option TestRecord) :
    (s.setTest g t).writes = s.writes := rfl
@[simp] theorem State.setTest_stored (g : GroupId) (t : Option TestRecord) :
    (s.setTest g t).stored = s.stored := rfl
@[simp] theorem State.setTest_report (g : GroupId) (t : Option TestRecord) :
    (s.setTest g t).report = s.report := rfl
@[simp] theorem State.setTest_reportPendingA (g : GroupId) (t : Option TestRecord) :
    (s.setTest g t).reportPendingA = s.reportPendingA := rfl
@[simp] theorem State.setTest_reportPendingB (g : GroupId) (t : Option TestRecord) :
    (s.setTest g t).reportPendingB = s.reportPendingB := rfl
@[simp] theorem State.setTest_reportPendingS (g : GroupId) (t : Option TestRecord) :
    (s.setTest g t).reportPendingS = s.reportPendingS := rfl
@[simp] theorem State.setTest_records (g : GroupId) (t : Option TestRecord) :
    (s.setTest g t).records = s.records := rfl
@[simp] theorem State.setTest_overflow (g : GroupId) (t : Option TestRecord) :
    (s.setTest g t).overflow = s.overflow := rfl
@[simp] theorem State.setTest_abandoned (g : GroupId) (t : Option TestRecord) :
    (s.setTest g t).abandoned = s.abandoned := rfl
@[simp] theorem State.setTest_overflowed (g : GroupId) (t : Option TestRecord) :
    (s.setTest g t).overflowed = s.overflowed := rfl
@[simp] theorem State.setTest_idCounter (g : GroupId) (t : Option TestRecord) :
    (s.setTest g t).idCounter = s.idCounter := rfl
@[simp] theorem State.setTest_channels (g : GroupId) (t : Option TestRecord) :
    (s.setTest g t).channels = s.channels := rfl
@[simp] theorem State.setTest_linkA (g : GroupId) (t : Option TestRecord) :
    (s.setTest g t).linkA = s.linkA := rfl
@[simp] theorem State.setTest_linkB (g : GroupId) (t : Option TestRecord) :
    (s.setTest g t).linkB = s.linkB := rfl
@[simp] theorem State.setTest_linkS (g : GroupId) (t : Option TestRecord) :
    (s.setTest g t).linkS = s.linkS := rfl
@[simp] theorem State.setTest_centreA (g : GroupId) (t : Option TestRecord) :
    (s.setTest g t).centreA = s.centreA := rfl
@[simp] theorem State.setTest_centreB (g : GroupId) (t : Option TestRecord) :
    (s.setTest g t).centreB = s.centreB := rfl
@[simp] theorem State.setTest_group (g : GroupId) (t : Option TestRecord) (x : GroupId) :
    (s.setTest g t).group x = s.group x := rfl
@[simp] theorem State.setTest_classifier (g : GroupId) (t : Option TestRecord) (x : LineId) :
    (s.setTest g t).classifier x = s.classifier x := rfl
@[simp] theorem State.setTest_line (g : GroupId) (t : Option TestRecord) (x : LineId) :
    (s.setTest g t).line x = s.line x := rfl
@[simp] theorem State.setTest_capture (g : GroupId) (t : Option TestRecord) (x : LineId) :
    (s.setTest g t).capture x = s.capture x := rfl
@[simp] theorem State.setTest_receiver (g : GroupId) (t : Option TestRecord) (x : GroupId) :
    (s.setTest g t).receiver x = s.receiver x := rfl
@[simp] theorem State.setTest_entry (g : GroupId) (t : Option TestRecord) (x : LineId) :
    (s.setTest g t).entry x = s.entry x := rfl
@[simp] theorem State.setTest_profile (g : GroupId) (t : Option TestRecord) (x : ProfileId) :
    (s.setTest g t).profile x = s.profile x := rfl
@[simp] theorem State.setTest_profileOf (g : GroupId) (t : Option TestRecord) (x : LineId) :
    (s.setTest g t).profileOf x = s.profileOf x := rfl
@[simp] theorem State.setTest_channel (g : GroupId) (t : Option TestRecord) (x : ChannelId) :
    (s.setTest g t).channel x = s.channel x := rfl
@[simp] theorem State.setTest_link (g : GroupId) (t : Option TestRecord) (x : Link) :
    (s.setTest g t).link x = s.link x := rfl
@[simp] theorem State.setTest_centre (g : GroupId) (t : Option TestRecord) (x : Centre) :
    (s.setTest g t).centre x = s.centre x := rfl
@[simp] theorem State.setTest_reportPending (g : GroupId) (t : Option TestRecord) (x : Link) :
    (s.setTest g t).reportPending x = s.reportPending x := rfl
@[simp] theorem State.setTest_input (g : GroupId) (t : Option TestRecord) (x : Input) :
    (s.setTest g t).input x = s.input x := rfl
@[simp] theorem State.setTest_recordById (g : GroupId) (t : Option TestRecord) (x : CallId) :
    (s.setTest g t).recordById x = s.recordById x := rfl
@[simp] theorem State.setTest_recordOfLine (g : GroupId) (t : Option TestRecord) (x : LineId) :
    (s.setTest g t).recordOfLine x = s.recordOfLine x := rfl
@[simp] theorem State.setTest_isLost (g : GroupId) (t : Option TestRecord) (x : Link) :
    (s.setTest g t).isLost x = s.isLost x := rfl

/-! ### setCondition -/

@[simp] theorem State.setCondition_pending (n : LineId) (k : Condition) :
    (s.setCondition n k).pending = s.pending := rfl
@[simp] theorem State.setCondition_clock (n : LineId) (k : Condition) :
    (s.setCondition n k).clock = s.clock := rfl
@[simp] theorem State.setCondition_subTick (n : LineId) (k : Condition) :
    (s.setCondition n k).subTick = s.subTick := rfl
@[simp] theorem State.setCondition_tick (n : LineId) (k : Condition) :
    (s.setCondition n k).tick = s.tick := rfl
@[simp] theorem State.setCondition_orders (n : LineId) (k : Condition) :
    (s.setCondition n k).orders = s.orders := rfl
@[simp] theorem State.setCondition_mainsOk (n : LineId) (k : Condition) :
    (s.setCondition n k).mainsOk = s.mainsOk := rfl
@[simp] theorem State.setCondition_batteryLow (n : LineId) (k : Condition) :
    (s.setCondition n k).batteryLow = s.batteryLow := rfl
@[simp] theorem State.setCondition_key (n : LineId) (k : Condition) :
    (s.setCondition n k).key = s.key := rfl
@[simp] theorem State.setCondition_power (n : LineId) (k : Condition) :
    (s.setCondition n k).power = s.power := rfl
@[simp] theorem State.setCondition_load (n : LineId) (k : Condition) :
    (s.setCondition n k).load = s.load := rfl
@[simp] theorem State.setCondition_window (n : LineId) (k : Condition) :
    (s.setCondition n k).window = s.window := rfl
@[simp] theorem State.setCondition_groups (n : LineId) (k : Condition) :
    (s.setCondition n k).groups = s.groups := rfl
@[simp] theorem State.setCondition_classifiers (n : LineId) (k : Condition) :
    (s.setCondition n k).classifiers = s.classifiers := rfl
@[simp] theorem State.setCondition_captures (n : LineId) (k : Condition) :
    (s.setCondition n k).captures = s.captures := rfl
@[simp] theorem State.setCondition_receivers (n : LineId) (k : Condition) :
    (s.setCondition n k).receivers = s.receivers := rfl
@[simp] theorem State.setCondition_acceptance (n : LineId) (k : Condition) :
    (s.setCondition n k).acceptance = s.acceptance := rfl
@[simp] theorem State.setCondition_entries (n : LineId) (k : Condition) :
    (s.setCondition n k).entries = s.entries := rfl
@[simp] theorem State.setCondition_profiles (n : LineId) (k : Condition) :
    (s.setCondition n k).profiles = s.profiles := rfl
@[simp] theorem State.setCondition_timers (n : LineId) (k : Condition) :
    (s.setCondition n k).timers = s.timers := rfl
@[simp] theorem State.setCondition_bearer (n : LineId) (k : Condition) :
    (s.setCondition n k).bearer = s.bearer := rfl
@[simp] theorem State.setCondition_writes (n : LineId) (k : Condition) :
    (s.setCondition n k).writes = s.writes := rfl
@[simp] theorem State.setCondition_stored (n : LineId) (k : Condition) :
    (s.setCondition n k).stored = s.stored := rfl
@[simp] theorem State.setCondition_report (n : LineId) (k : Condition) :
    (s.setCondition n k).report = s.report := rfl
@[simp] theorem State.setCondition_reportPendingA (n : LineId) (k : Condition) :
    (s.setCondition n k).reportPendingA = s.reportPendingA := rfl
@[simp] theorem State.setCondition_reportPendingB (n : LineId) (k : Condition) :
    (s.setCondition n k).reportPendingB = s.reportPendingB := rfl
@[simp] theorem State.setCondition_reportPendingS (n : LineId) (k : Condition) :
    (s.setCondition n k).reportPendingS = s.reportPendingS := rfl
@[simp] theorem State.setCondition_records (n : LineId) (k : Condition) :
    (s.setCondition n k).records = s.records := rfl
@[simp] theorem State.setCondition_overflow (n : LineId) (k : Condition) :
    (s.setCondition n k).overflow = s.overflow := rfl
@[simp] theorem State.setCondition_abandoned (n : LineId) (k : Condition) :
    (s.setCondition n k).abandoned = s.abandoned := rfl
@[simp] theorem State.setCondition_overflowed (n : LineId) (k : Condition) :
    (s.setCondition n k).overflowed = s.overflowed := rfl
@[simp] theorem State.setCondition_idCounter (n : LineId) (k : Condition) :
    (s.setCondition n k).idCounter = s.idCounter := rfl
@[simp] theorem State.setCondition_channels (n : LineId) (k : Condition) :
    (s.setCondition n k).channels = s.channels := rfl
@[simp] theorem State.setCondition_tests (n : LineId) (k : Condition) :
    (s.setCondition n k).tests = s.tests := rfl
@[simp] theorem State.setCondition_linkA (n : LineId) (k : Condition) :
    (s.setCondition n k).linkA = s.linkA := rfl
@[simp] theorem State.setCondition_linkB (n : LineId) (k : Condition) :
    (s.setCondition n k).linkB = s.linkB := rfl
@[simp] theorem State.setCondition_linkS (n : LineId) (k : Condition) :
    (s.setCondition n k).linkS = s.linkS := rfl
@[simp] theorem State.setCondition_centreA (n : LineId) (k : Condition) :
    (s.setCondition n k).centreA = s.centreA := rfl
@[simp] theorem State.setCondition_centreB (n : LineId) (k : Condition) :
    (s.setCondition n k).centreB = s.centreB := rfl
@[simp] theorem State.setCondition_group (n : LineId) (k : Condition) (x : GroupId) :
    (s.setCondition n k).group x = s.group x := rfl
@[simp] theorem State.setCondition_classifier (n : LineId) (k : Condition) (x : LineId) :
    (s.setCondition n k).classifier x = s.classifier x := rfl
@[simp] theorem State.setCondition_capture (n : LineId) (k : Condition) (x : LineId) :
    (s.setCondition n k).capture x = s.capture x := rfl
@[simp] theorem State.setCondition_receiver (n : LineId) (k : Condition) (x : GroupId) :
    (s.setCondition n k).receiver x = s.receiver x := rfl
@[simp] theorem State.setCondition_entry (n : LineId) (k : Condition) (x : LineId) :
    (s.setCondition n k).entry x = s.entry x := rfl
@[simp] theorem State.setCondition_profile (n : LineId) (k : Condition) (x : ProfileId) :
    (s.setCondition n k).profile x = s.profile x := rfl
@[simp] theorem State.setCondition_profileOf (n : LineId) (k : Condition) (x : LineId) :
    (s.setCondition n k).profileOf x = s.profileOf x := rfl
@[simp] theorem State.setCondition_channel (n : LineId) (k : Condition) (x : ChannelId) :
    (s.setCondition n k).channel x = s.channel x := rfl
@[simp] theorem State.setCondition_test (n : LineId) (k : Condition) (x : GroupId) :
    (s.setCondition n k).test x = s.test x := rfl
@[simp] theorem State.setCondition_link (n : LineId) (k : Condition) (x : Link) :
    (s.setCondition n k).link x = s.link x := rfl
@[simp] theorem State.setCondition_centre (n : LineId) (k : Condition) (x : Centre) :
    (s.setCondition n k).centre x = s.centre x := rfl
@[simp] theorem State.setCondition_reportPending (n : LineId) (k : Condition) (x : Link) :
    (s.setCondition n k).reportPending x = s.reportPending x := rfl
@[simp] theorem State.setCondition_input (n : LineId) (k : Condition) (x : Input) :
    (s.setCondition n k).input x = s.input x := rfl
@[simp] theorem State.setCondition_recordById (n : LineId) (k : Condition) (x : CallId) :
    (s.setCondition n k).recordById x = s.recordById x := rfl
@[simp] theorem State.setCondition_recordOfLine (n : LineId) (k : Condition) (x : LineId) :
    (s.setCondition n k).recordOfLine x = s.recordOfLine x := rfl
@[simp] theorem State.setCondition_isLost (n : LineId) (k : Condition) (x : Link) :
    (s.setCondition n k).isLost x = s.isLost x := rfl

/-! ### updRecord -/

@[simp] theorem State.updRecord_pending (id : CallId) (f : CallRecord → CallRecord) :
    (s.updRecord id f).pending = s.pending := rfl
@[simp] theorem State.updRecord_clock (id : CallId) (f : CallRecord → CallRecord) :
    (s.updRecord id f).clock = s.clock := rfl
@[simp] theorem State.updRecord_subTick (id : CallId) (f : CallRecord → CallRecord) :
    (s.updRecord id f).subTick = s.subTick := rfl
@[simp] theorem State.updRecord_tick (id : CallId) (f : CallRecord → CallRecord) :
    (s.updRecord id f).tick = s.tick := rfl
@[simp] theorem State.updRecord_orders (id : CallId) (f : CallRecord → CallRecord) :
    (s.updRecord id f).orders = s.orders := rfl
@[simp] theorem State.updRecord_mainsOk (id : CallId) (f : CallRecord → CallRecord) :
    (s.updRecord id f).mainsOk = s.mainsOk := rfl
@[simp] theorem State.updRecord_batteryLow (id : CallId) (f : CallRecord → CallRecord) :
    (s.updRecord id f).batteryLow = s.batteryLow := rfl
@[simp] theorem State.updRecord_key (id : CallId) (f : CallRecord → CallRecord) :
    (s.updRecord id f).key = s.key := rfl
@[simp] theorem State.updRecord_power (id : CallId) (f : CallRecord → CallRecord) :
    (s.updRecord id f).power = s.power := rfl
@[simp] theorem State.updRecord_load (id : CallId) (f : CallRecord → CallRecord) :
    (s.updRecord id f).load = s.load := rfl
@[simp] theorem State.updRecord_window (id : CallId) (f : CallRecord → CallRecord) :
    (s.updRecord id f).window = s.window := rfl
@[simp] theorem State.updRecord_groups (id : CallId) (f : CallRecord → CallRecord) :
    (s.updRecord id f).groups = s.groups := rfl
@[simp] theorem State.updRecord_classifiers (id : CallId) (f : CallRecord → CallRecord) :
    (s.updRecord id f).classifiers = s.classifiers := rfl
@[simp] theorem State.updRecord_lines (id : CallId) (f : CallRecord → CallRecord) :
    (s.updRecord id f).lines = s.lines := rfl
@[simp] theorem State.updRecord_captures (id : CallId) (f : CallRecord → CallRecord) :
    (s.updRecord id f).captures = s.captures := rfl
@[simp] theorem State.updRecord_receivers (id : CallId) (f : CallRecord → CallRecord) :
    (s.updRecord id f).receivers = s.receivers := rfl
@[simp] theorem State.updRecord_acceptance (id : CallId) (f : CallRecord → CallRecord) :
    (s.updRecord id f).acceptance = s.acceptance := rfl
@[simp] theorem State.updRecord_entries (id : CallId) (f : CallRecord → CallRecord) :
    (s.updRecord id f).entries = s.entries := rfl
@[simp] theorem State.updRecord_profiles (id : CallId) (f : CallRecord → CallRecord) :
    (s.updRecord id f).profiles = s.profiles := rfl
@[simp] theorem State.updRecord_timers (id : CallId) (f : CallRecord → CallRecord) :
    (s.updRecord id f).timers = s.timers := rfl
@[simp] theorem State.updRecord_bearer (id : CallId) (f : CallRecord → CallRecord) :
    (s.updRecord id f).bearer = s.bearer := rfl
@[simp] theorem State.updRecord_writes (id : CallId) (f : CallRecord → CallRecord) :
    (s.updRecord id f).writes = s.writes := rfl
@[simp] theorem State.updRecord_stored (id : CallId) (f : CallRecord → CallRecord) :
    (s.updRecord id f).stored = s.stored := rfl
@[simp] theorem State.updRecord_report (id : CallId) (f : CallRecord → CallRecord) :
    (s.updRecord id f).report = s.report := rfl
@[simp] theorem State.updRecord_reportPendingA (id : CallId) (f : CallRecord → CallRecord) :
    (s.updRecord id f).reportPendingA = s.reportPendingA := rfl
@[simp] theorem State.updRecord_reportPendingB (id : CallId) (f : CallRecord → CallRecord) :
    (s.updRecord id f).reportPendingB = s.reportPendingB := rfl
@[simp] theorem State.updRecord_reportPendingS (id : CallId) (f : CallRecord → CallRecord) :
    (s.updRecord id f).reportPendingS = s.reportPendingS := rfl
@[simp] theorem State.updRecord_overflow (id : CallId) (f : CallRecord → CallRecord) :
    (s.updRecord id f).overflow = s.overflow := rfl
@[simp] theorem State.updRecord_abandoned (id : CallId) (f : CallRecord → CallRecord) :
    (s.updRecord id f).abandoned = s.abandoned := rfl
@[simp] theorem State.updRecord_overflowed (id : CallId) (f : CallRecord → CallRecord) :
    (s.updRecord id f).overflowed = s.overflowed := rfl
@[simp] theorem State.updRecord_idCounter (id : CallId) (f : CallRecord → CallRecord) :
    (s.updRecord id f).idCounter = s.idCounter := rfl
@[simp] theorem State.updRecord_channels (id : CallId) (f : CallRecord → CallRecord) :
    (s.updRecord id f).channels = s.channels := rfl
@[simp] theorem State.updRecord_tests (id : CallId) (f : CallRecord → CallRecord) :
    (s.updRecord id f).tests = s.tests := rfl
@[simp] theorem State.updRecord_linkA (id : CallId) (f : CallRecord → CallRecord) :
    (s.updRecord id f).linkA = s.linkA := rfl
@[simp] theorem State.updRecord_linkB (id : CallId) (f : CallRecord → CallRecord) :
    (s.updRecord id f).linkB = s.linkB := rfl
@[simp] theorem State.updRecord_linkS (id : CallId) (f : CallRecord → CallRecord) :
    (s.updRecord id f).linkS = s.linkS := rfl
@[simp] theorem State.updRecord_centreA (id : CallId) (f : CallRecord → CallRecord) :
    (s.updRecord id f).centreA = s.centreA := rfl
@[simp] theorem State.updRecord_centreB (id : CallId) (f : CallRecord → CallRecord) :
    (s.updRecord id f).centreB = s.centreB := rfl
@[simp] theorem State.updRecord_group (id : CallId) (f : CallRecord → CallRecord) (x : GroupId) :
    (s.updRecord id f).group x = s.group x := rfl
@[simp] theorem State.updRecord_classifier (id : CallId) (f : CallRecord → CallRecord) (x : LineId) :
    (s.updRecord id f).classifier x = s.classifier x := rfl
@[simp] theorem State.updRecord_line (id : CallId) (f : CallRecord → CallRecord) (x : LineId) :
    (s.updRecord id f).line x = s.line x := rfl
@[simp] theorem State.updRecord_capture (id : CallId) (f : CallRecord → CallRecord) (x : LineId) :
    (s.updRecord id f).capture x = s.capture x := rfl
@[simp] theorem State.updRecord_receiver (id : CallId) (f : CallRecord → CallRecord) (x : GroupId) :
    (s.updRecord id f).receiver x = s.receiver x := rfl
@[simp] theorem State.updRecord_entry (id : CallId) (f : CallRecord → CallRecord) (x : LineId) :
    (s.updRecord id f).entry x = s.entry x := rfl
@[simp] theorem State.updRecord_profile (id : CallId) (f : CallRecord → CallRecord) (x : ProfileId) :
    (s.updRecord id f).profile x = s.profile x := rfl
@[simp] theorem State.updRecord_profileOf (id : CallId) (f : CallRecord → CallRecord) (x : LineId) :
    (s.updRecord id f).profileOf x = s.profileOf x := rfl
@[simp] theorem State.updRecord_channel (id : CallId) (f : CallRecord → CallRecord) (x : ChannelId) :
    (s.updRecord id f).channel x = s.channel x := rfl
@[simp] theorem State.updRecord_test (id : CallId) (f : CallRecord → CallRecord) (x : GroupId) :
    (s.updRecord id f).test x = s.test x := rfl
@[simp] theorem State.updRecord_link (id : CallId) (f : CallRecord → CallRecord) (x : Link) :
    (s.updRecord id f).link x = s.link x := rfl
@[simp] theorem State.updRecord_centre (id : CallId) (f : CallRecord → CallRecord) (x : Centre) :
    (s.updRecord id f).centre x = s.centre x := rfl
@[simp] theorem State.updRecord_reportPending (id : CallId) (f : CallRecord → CallRecord) (x : Link) :
    (s.updRecord id f).reportPending x = s.reportPending x := rfl
@[simp] theorem State.updRecord_input (id : CallId) (f : CallRecord → CallRecord) (x : Input) :
    (s.updRecord id f).input x = s.input x := rfl
@[simp] theorem State.updRecord_isLost (id : CallId) (f : CallRecord → CallRecord) (x : Link) :
    (s.updRecord id f).isLost x = s.isLost x := rfl

/-! ### removeRecord -/

@[simp] theorem State.removeRecord_pending (id : CallId) :
    (s.removeRecord id).pending = s.pending := rfl
@[simp] theorem State.removeRecord_clock (id : CallId) :
    (s.removeRecord id).clock = s.clock := rfl
@[simp] theorem State.removeRecord_subTick (id : CallId) :
    (s.removeRecord id).subTick = s.subTick := rfl
@[simp] theorem State.removeRecord_tick (id : CallId) :
    (s.removeRecord id).tick = s.tick := rfl
@[simp] theorem State.removeRecord_orders (id : CallId) :
    (s.removeRecord id).orders = s.orders := rfl
@[simp] theorem State.removeRecord_mainsOk (id : CallId) :
    (s.removeRecord id).mainsOk = s.mainsOk := rfl
@[simp] theorem State.removeRecord_batteryLow (id : CallId) :
    (s.removeRecord id).batteryLow = s.batteryLow := rfl
@[simp] theorem State.removeRecord_key (id : CallId) :
    (s.removeRecord id).key = s.key := rfl
@[simp] theorem State.removeRecord_power (id : CallId) :
    (s.removeRecord id).power = s.power := rfl
@[simp] theorem State.removeRecord_load (id : CallId) :
    (s.removeRecord id).load = s.load := rfl
@[simp] theorem State.removeRecord_window (id : CallId) :
    (s.removeRecord id).window = s.window := rfl
@[simp] theorem State.removeRecord_groups (id : CallId) :
    (s.removeRecord id).groups = s.groups := rfl
@[simp] theorem State.removeRecord_classifiers (id : CallId) :
    (s.removeRecord id).classifiers = s.classifiers := rfl
@[simp] theorem State.removeRecord_lines (id : CallId) :
    (s.removeRecord id).lines = s.lines := rfl
@[simp] theorem State.removeRecord_captures (id : CallId) :
    (s.removeRecord id).captures = s.captures := rfl
@[simp] theorem State.removeRecord_receivers (id : CallId) :
    (s.removeRecord id).receivers = s.receivers := rfl
@[simp] theorem State.removeRecord_acceptance (id : CallId) :
    (s.removeRecord id).acceptance = s.acceptance := rfl
@[simp] theorem State.removeRecord_entries (id : CallId) :
    (s.removeRecord id).entries = s.entries := rfl
@[simp] theorem State.removeRecord_profiles (id : CallId) :
    (s.removeRecord id).profiles = s.profiles := rfl
@[simp] theorem State.removeRecord_timers (id : CallId) :
    (s.removeRecord id).timers = s.timers := rfl
@[simp] theorem State.removeRecord_bearer (id : CallId) :
    (s.removeRecord id).bearer = s.bearer := rfl
@[simp] theorem State.removeRecord_writes (id : CallId) :
    (s.removeRecord id).writes = s.writes := rfl
@[simp] theorem State.removeRecord_stored (id : CallId) :
    (s.removeRecord id).stored = s.stored := rfl
@[simp] theorem State.removeRecord_report (id : CallId) :
    (s.removeRecord id).report = s.report := rfl
@[simp] theorem State.removeRecord_reportPendingA (id : CallId) :
    (s.removeRecord id).reportPendingA = s.reportPendingA := rfl
@[simp] theorem State.removeRecord_reportPendingB (id : CallId) :
    (s.removeRecord id).reportPendingB = s.reportPendingB := rfl
@[simp] theorem State.removeRecord_reportPendingS (id : CallId) :
    (s.removeRecord id).reportPendingS = s.reportPendingS := rfl
@[simp] theorem State.removeRecord_overflow (id : CallId) :
    (s.removeRecord id).overflow = s.overflow := rfl
@[simp] theorem State.removeRecord_abandoned (id : CallId) :
    (s.removeRecord id).abandoned = s.abandoned := rfl
@[simp] theorem State.removeRecord_overflowed (id : CallId) :
    (s.removeRecord id).overflowed = s.overflowed := rfl
@[simp] theorem State.removeRecord_idCounter (id : CallId) :
    (s.removeRecord id).idCounter = s.idCounter := rfl
@[simp] theorem State.removeRecord_channels (id : CallId) :
    (s.removeRecord id).channels = s.channels := rfl
@[simp] theorem State.removeRecord_tests (id : CallId) :
    (s.removeRecord id).tests = s.tests := rfl
@[simp] theorem State.removeRecord_linkA (id : CallId) :
    (s.removeRecord id).linkA = s.linkA := rfl
@[simp] theorem State.removeRecord_linkB (id : CallId) :
    (s.removeRecord id).linkB = s.linkB := rfl
@[simp] theorem State.removeRecord_linkS (id : CallId) :
    (s.removeRecord id).linkS = s.linkS := rfl
@[simp] theorem State.removeRecord_centreA (id : CallId) :
    (s.removeRecord id).centreA = s.centreA := rfl
@[simp] theorem State.removeRecord_centreB (id : CallId) :
    (s.removeRecord id).centreB = s.centreB := rfl
@[simp] theorem State.removeRecord_group (id : CallId) (x : GroupId) :
    (s.removeRecord id).group x = s.group x := rfl
@[simp] theorem State.removeRecord_classifier (id : CallId) (x : LineId) :
    (s.removeRecord id).classifier x = s.classifier x := rfl
@[simp] theorem State.removeRecord_line (id : CallId) (x : LineId) :
    (s.removeRecord id).line x = s.line x := rfl
@[simp] theorem State.removeRecord_capture (id : CallId) (x : LineId) :
    (s.removeRecord id).capture x = s.capture x := rfl
@[simp] theorem State.removeRecord_receiver (id : CallId) (x : GroupId) :
    (s.removeRecord id).receiver x = s.receiver x := rfl
@[simp] theorem State.removeRecord_entry (id : CallId) (x : LineId) :
    (s.removeRecord id).entry x = s.entry x := rfl
@[simp] theorem State.removeRecord_profile (id : CallId) (x : ProfileId) :
    (s.removeRecord id).profile x = s.profile x := rfl
@[simp] theorem State.removeRecord_profileOf (id : CallId) (x : LineId) :
    (s.removeRecord id).profileOf x = s.profileOf x := rfl
@[simp] theorem State.removeRecord_channel (id : CallId) (x : ChannelId) :
    (s.removeRecord id).channel x = s.channel x := rfl
@[simp] theorem State.removeRecord_test (id : CallId) (x : GroupId) :
    (s.removeRecord id).test x = s.test x := rfl
@[simp] theorem State.removeRecord_link (id : CallId) (x : Link) :
    (s.removeRecord id).link x = s.link x := rfl
@[simp] theorem State.removeRecord_centre (id : CallId) (x : Centre) :
    (s.removeRecord id).centre x = s.centre x := rfl
@[simp] theorem State.removeRecord_reportPending (id : CallId) (x : Link) :
    (s.removeRecord id).reportPending x = s.reportPending x := rfl
@[simp] theorem State.removeRecord_input (id : CallId) (x : Input) :
    (s.removeRecord id).input x = s.input x := rfl
@[simp] theorem State.removeRecord_isLost (id : CallId) (x : Link) :
    (s.removeRecord id).isLost x = s.isLost x := rfl

/-! ### give -/

@[simp] theorem State.give_pending (o : Order) :
    (s.give o).pending = s.pending := rfl
@[simp] theorem State.give_clock (o : Order) :
    (s.give o).clock = s.clock := rfl
@[simp] theorem State.give_subTick (o : Order) :
    (s.give o).subTick = s.subTick := rfl
@[simp] theorem State.give_tick (o : Order) :
    (s.give o).tick = s.tick := rfl
@[simp] theorem State.give_mainsOk (o : Order) :
    (s.give o).mainsOk = s.mainsOk := rfl
@[simp] theorem State.give_batteryLow (o : Order) :
    (s.give o).batteryLow = s.batteryLow := rfl
@[simp] theorem State.give_key (o : Order) :
    (s.give o).key = s.key := rfl
@[simp] theorem State.give_power (o : Order) :
    (s.give o).power = s.power := rfl
@[simp] theorem State.give_load (o : Order) :
    (s.give o).load = s.load := rfl
@[simp] theorem State.give_window (o : Order) :
    (s.give o).window = s.window := rfl
@[simp] theorem State.give_groups (o : Order) :
    (s.give o).groups = s.groups := rfl
@[simp] theorem State.give_classifiers (o : Order) :
    (s.give o).classifiers = s.classifiers := rfl
@[simp] theorem State.give_lines (o : Order) :
    (s.give o).lines = s.lines := rfl
@[simp] theorem State.give_captures (o : Order) :
    (s.give o).captures = s.captures := rfl
@[simp] theorem State.give_receivers (o : Order) :
    (s.give o).receivers = s.receivers := rfl
@[simp] theorem State.give_acceptance (o : Order) :
    (s.give o).acceptance = s.acceptance := rfl
@[simp] theorem State.give_entries (o : Order) :
    (s.give o).entries = s.entries := rfl
@[simp] theorem State.give_profiles (o : Order) :
    (s.give o).profiles = s.profiles := rfl
@[simp] theorem State.give_timers (o : Order) :
    (s.give o).timers = s.timers := rfl
@[simp] theorem State.give_bearer (o : Order) :
    (s.give o).bearer = s.bearer := rfl
@[simp] theorem State.give_writes (o : Order) :
    (s.give o).writes = s.writes := rfl
@[simp] theorem State.give_stored (o : Order) :
    (s.give o).stored = s.stored := rfl
@[simp] theorem State.give_report (o : Order) :
    (s.give o).report = s.report := rfl
@[simp] theorem State.give_reportPendingA (o : Order) :
    (s.give o).reportPendingA = s.reportPendingA := rfl
@[simp] theorem State.give_reportPendingB (o : Order) :
    (s.give o).reportPendingB = s.reportPendingB := rfl
@[simp] theorem State.give_reportPendingS (o : Order) :
    (s.give o).reportPendingS = s.reportPendingS := rfl
@[simp] theorem State.give_records (o : Order) :
    (s.give o).records = s.records := rfl
@[simp] theorem State.give_overflow (o : Order) :
    (s.give o).overflow = s.overflow := rfl
@[simp] theorem State.give_abandoned (o : Order) :
    (s.give o).abandoned = s.abandoned := rfl
@[simp] theorem State.give_overflowed (o : Order) :
    (s.give o).overflowed = s.overflowed := rfl
@[simp] theorem State.give_idCounter (o : Order) :
    (s.give o).idCounter = s.idCounter := rfl
@[simp] theorem State.give_channels (o : Order) :
    (s.give o).channels = s.channels := rfl
@[simp] theorem State.give_tests (o : Order) :
    (s.give o).tests = s.tests := rfl
@[simp] theorem State.give_linkA (o : Order) :
    (s.give o).linkA = s.linkA := rfl
@[simp] theorem State.give_linkB (o : Order) :
    (s.give o).linkB = s.linkB := rfl
@[simp] theorem State.give_linkS (o : Order) :
    (s.give o).linkS = s.linkS := rfl
@[simp] theorem State.give_centreA (o : Order) :
    (s.give o).centreA = s.centreA := rfl
@[simp] theorem State.give_centreB (o : Order) :
    (s.give o).centreB = s.centreB := rfl
@[simp] theorem State.give_group (o : Order) (x : GroupId) :
    (s.give o).group x = s.group x := rfl
@[simp] theorem State.give_classifier (o : Order) (x : LineId) :
    (s.give o).classifier x = s.classifier x := rfl
@[simp] theorem State.give_line (o : Order) (x : LineId) :
    (s.give o).line x = s.line x := rfl
@[simp] theorem State.give_capture (o : Order) (x : LineId) :
    (s.give o).capture x = s.capture x := rfl
@[simp] theorem State.give_receiver (o : Order) (x : GroupId) :
    (s.give o).receiver x = s.receiver x := rfl
@[simp] theorem State.give_entry (o : Order) (x : LineId) :
    (s.give o).entry x = s.entry x := rfl
@[simp] theorem State.give_profile (o : Order) (x : ProfileId) :
    (s.give o).profile x = s.profile x := rfl
@[simp] theorem State.give_profileOf (o : Order) (x : LineId) :
    (s.give o).profileOf x = s.profileOf x := rfl
@[simp] theorem State.give_channel (o : Order) (x : ChannelId) :
    (s.give o).channel x = s.channel x := rfl
@[simp] theorem State.give_test (o : Order) (x : GroupId) :
    (s.give o).test x = s.test x := rfl
@[simp] theorem State.give_link (o : Order) (x : Link) :
    (s.give o).link x = s.link x := rfl
@[simp] theorem State.give_centre (o : Order) (x : Centre) :
    (s.give o).centre x = s.centre x := rfl
@[simp] theorem State.give_reportPending (o : Order) (x : Link) :
    (s.give o).reportPending x = s.reportPending x := rfl
@[simp] theorem State.give_input (o : Order) (x : Input) :
    (s.give o).input x = s.input x := rfl
@[simp] theorem State.give_recordById (o : Order) (x : CallId) :
    (s.give o).recordById x = s.recordById x := rfl
@[simp] theorem State.give_recordOfLine (o : Order) (x : LineId) :
    (s.give o).recordOfLine x = s.recordOfLine x := rfl
@[simp] theorem State.give_isLost (o : Order) (x : Link) :
    (s.give o).isLost x = s.isLost x := rfl

/-! ### setLink -/

@[simp] theorem State.setLink_pending (l : Link) (k : LinkController) :
    (s.setLink l k).pending = s.pending := by cases l <;> rfl
@[simp] theorem State.setLink_clock (l : Link) (k : LinkController) :
    (s.setLink l k).clock = s.clock := by cases l <;> rfl
@[simp] theorem State.setLink_subTick (l : Link) (k : LinkController) :
    (s.setLink l k).subTick = s.subTick := by cases l <;> rfl
@[simp] theorem State.setLink_tick (l : Link) (k : LinkController) :
    (s.setLink l k).tick = s.tick := by cases l <;> rfl
@[simp] theorem State.setLink_orders (l : Link) (k : LinkController) :
    (s.setLink l k).orders = s.orders := by cases l <;> rfl
@[simp] theorem State.setLink_mainsOk (l : Link) (k : LinkController) :
    (s.setLink l k).mainsOk = s.mainsOk := by cases l <;> rfl
@[simp] theorem State.setLink_batteryLow (l : Link) (k : LinkController) :
    (s.setLink l k).batteryLow = s.batteryLow := by cases l <;> rfl
@[simp] theorem State.setLink_key (l : Link) (k : LinkController) :
    (s.setLink l k).key = s.key := by cases l <;> rfl
@[simp] theorem State.setLink_power (l : Link) (k : LinkController) :
    (s.setLink l k).power = s.power := by cases l <;> rfl
@[simp] theorem State.setLink_load (l : Link) (k : LinkController) :
    (s.setLink l k).load = s.load := by cases l <;> rfl
@[simp] theorem State.setLink_window (l : Link) (k : LinkController) :
    (s.setLink l k).window = s.window := by cases l <;> rfl
@[simp] theorem State.setLink_groups (l : Link) (k : LinkController) :
    (s.setLink l k).groups = s.groups := by cases l <;> rfl
@[simp] theorem State.setLink_classifiers (l : Link) (k : LinkController) :
    (s.setLink l k).classifiers = s.classifiers := by cases l <;> rfl
@[simp] theorem State.setLink_lines (l : Link) (k : LinkController) :
    (s.setLink l k).lines = s.lines := by cases l <;> rfl
@[simp] theorem State.setLink_captures (l : Link) (k : LinkController) :
    (s.setLink l k).captures = s.captures := by cases l <;> rfl
@[simp] theorem State.setLink_receivers (l : Link) (k : LinkController) :
    (s.setLink l k).receivers = s.receivers := by cases l <;> rfl
@[simp] theorem State.setLink_acceptance (l : Link) (k : LinkController) :
    (s.setLink l k).acceptance = s.acceptance := by cases l <;> rfl
@[simp] theorem State.setLink_entries (l : Link) (k : LinkController) :
    (s.setLink l k).entries = s.entries := by cases l <;> rfl
@[simp] theorem State.setLink_profiles (l : Link) (k : LinkController) :
    (s.setLink l k).profiles = s.profiles := by cases l <;> rfl
@[simp] theorem State.setLink_timers (l : Link) (k : LinkController) :
    (s.setLink l k).timers = s.timers := by cases l <;> rfl
@[simp] theorem State.setLink_bearer (l : Link) (k : LinkController) :
    (s.setLink l k).bearer = s.bearer := by cases l <;> rfl
@[simp] theorem State.setLink_writes (l : Link) (k : LinkController) :
    (s.setLink l k).writes = s.writes := by cases l <;> rfl
@[simp] theorem State.setLink_stored (l : Link) (k : LinkController) :
    (s.setLink l k).stored = s.stored := by cases l <;> rfl
@[simp] theorem State.setLink_report (l : Link) (k : LinkController) :
    (s.setLink l k).report = s.report := by cases l <;> rfl
@[simp] theorem State.setLink_reportPendingA (l : Link) (k : LinkController) :
    (s.setLink l k).reportPendingA = s.reportPendingA := by cases l <;> rfl
@[simp] theorem State.setLink_reportPendingB (l : Link) (k : LinkController) :
    (s.setLink l k).reportPendingB = s.reportPendingB := by cases l <;> rfl
@[simp] theorem State.setLink_reportPendingS (l : Link) (k : LinkController) :
    (s.setLink l k).reportPendingS = s.reportPendingS := by cases l <;> rfl
@[simp] theorem State.setLink_records (l : Link) (k : LinkController) :
    (s.setLink l k).records = s.records := by cases l <;> rfl
@[simp] theorem State.setLink_overflow (l : Link) (k : LinkController) :
    (s.setLink l k).overflow = s.overflow := by cases l <;> rfl
@[simp] theorem State.setLink_abandoned (l : Link) (k : LinkController) :
    (s.setLink l k).abandoned = s.abandoned := by cases l <;> rfl
@[simp] theorem State.setLink_overflowed (l : Link) (k : LinkController) :
    (s.setLink l k).overflowed = s.overflowed := by cases l <;> rfl
@[simp] theorem State.setLink_idCounter (l : Link) (k : LinkController) :
    (s.setLink l k).idCounter = s.idCounter := by cases l <;> rfl
@[simp] theorem State.setLink_channels (l : Link) (k : LinkController) :
    (s.setLink l k).channels = s.channels := by cases l <;> rfl
@[simp] theorem State.setLink_tests (l : Link) (k : LinkController) :
    (s.setLink l k).tests = s.tests := by cases l <;> rfl
@[simp] theorem State.setLink_centreA (l : Link) (k : LinkController) :
    (s.setLink l k).centreA = s.centreA := by cases l <;> rfl
@[simp] theorem State.setLink_centreB (l : Link) (k : LinkController) :
    (s.setLink l k).centreB = s.centreB := by cases l <;> rfl
@[simp] theorem State.setLink_group (l : Link) (k : LinkController) (x : GroupId) :
    (s.setLink l k).group x = s.group x := by cases l <;> rfl
@[simp] theorem State.setLink_classifier (l : Link) (k : LinkController) (x : LineId) :
    (s.setLink l k).classifier x = s.classifier x := by cases l <;> rfl
@[simp] theorem State.setLink_line (l : Link) (k : LinkController) (x : LineId) :
    (s.setLink l k).line x = s.line x := by cases l <;> rfl
@[simp] theorem State.setLink_capture (l : Link) (k : LinkController) (x : LineId) :
    (s.setLink l k).capture x = s.capture x := by cases l <;> rfl
@[simp] theorem State.setLink_receiver (l : Link) (k : LinkController) (x : GroupId) :
    (s.setLink l k).receiver x = s.receiver x := by cases l <;> rfl
@[simp] theorem State.setLink_entry (l : Link) (k : LinkController) (x : LineId) :
    (s.setLink l k).entry x = s.entry x := by cases l <;> rfl
@[simp] theorem State.setLink_profile (l : Link) (k : LinkController) (x : ProfileId) :
    (s.setLink l k).profile x = s.profile x := by cases l <;> rfl
@[simp] theorem State.setLink_profileOf (l : Link) (k : LinkController) (x : LineId) :
    (s.setLink l k).profileOf x = s.profileOf x := by cases l <;> rfl
@[simp] theorem State.setLink_channel (l : Link) (k : LinkController) (x : ChannelId) :
    (s.setLink l k).channel x = s.channel x := by cases l <;> rfl
@[simp] theorem State.setLink_test (l : Link) (k : LinkController) (x : GroupId) :
    (s.setLink l k).test x = s.test x := by cases l <;> rfl
@[simp] theorem State.setLink_centre (l : Link) (k : LinkController) (x : Centre) :
    (s.setLink l k).centre x = s.centre x := by cases l <;> rfl
@[simp] theorem State.setLink_reportPending (l : Link) (k : LinkController) (x : Link) :
    (s.setLink l k).reportPending x = s.reportPending x := by cases l <;> rfl
@[simp] theorem State.setLink_input (l : Link) (k : LinkController) (x : Input) :
    (s.setLink l k).input x = s.input x := by cases l <;> rfl
@[simp] theorem State.setLink_recordById (l : Link) (k : LinkController) (x : CallId) :
    (s.setLink l k).recordById x = s.recordById x := by cases l <;> rfl
@[simp] theorem State.setLink_recordOfLine (l : Link) (k : LinkController) (x : LineId) :
    (s.setLink l k).recordOfLine x = s.recordOfLine x := by cases l <;> rfl
@[simp] theorem State.setLink_isLost (l : Link) (k : LinkController) (x : Link) :
    (s.setLink l k).isLost x = s.isLost x := by cases l <;> rfl

/-! ### setCentre -/

@[simp] theorem State.setCentre_pending (c : Centre) (k : CentreControl) :
    (s.setCentre c k).pending = s.pending := by cases c <;> rfl
@[simp] theorem State.setCentre_clock (c : Centre) (k : CentreControl) :
    (s.setCentre c k).clock = s.clock := by cases c <;> rfl
@[simp] theorem State.setCentre_subTick (c : Centre) (k : CentreControl) :
    (s.setCentre c k).subTick = s.subTick := by cases c <;> rfl
@[simp] theorem State.setCentre_tick (c : Centre) (k : CentreControl) :
    (s.setCentre c k).tick = s.tick := by cases c <;> rfl
@[simp] theorem State.setCentre_orders (c : Centre) (k : CentreControl) :
    (s.setCentre c k).orders = s.orders := by cases c <;> rfl
@[simp] theorem State.setCentre_mainsOk (c : Centre) (k : CentreControl) :
    (s.setCentre c k).mainsOk = s.mainsOk := by cases c <;> rfl
@[simp] theorem State.setCentre_batteryLow (c : Centre) (k : CentreControl) :
    (s.setCentre c k).batteryLow = s.batteryLow := by cases c <;> rfl
@[simp] theorem State.setCentre_key (c : Centre) (k : CentreControl) :
    (s.setCentre c k).key = s.key := by cases c <;> rfl
@[simp] theorem State.setCentre_power (c : Centre) (k : CentreControl) :
    (s.setCentre c k).power = s.power := by cases c <;> rfl
@[simp] theorem State.setCentre_load (c : Centre) (k : CentreControl) :
    (s.setCentre c k).load = s.load := by cases c <;> rfl
@[simp] theorem State.setCentre_window (c : Centre) (k : CentreControl) :
    (s.setCentre c k).window = s.window := by cases c <;> rfl
@[simp] theorem State.setCentre_groups (c : Centre) (k : CentreControl) :
    (s.setCentre c k).groups = s.groups := by cases c <;> rfl
@[simp] theorem State.setCentre_classifiers (c : Centre) (k : CentreControl) :
    (s.setCentre c k).classifiers = s.classifiers := by cases c <;> rfl
@[simp] theorem State.setCentre_lines (c : Centre) (k : CentreControl) :
    (s.setCentre c k).lines = s.lines := by cases c <;> rfl
@[simp] theorem State.setCentre_captures (c : Centre) (k : CentreControl) :
    (s.setCentre c k).captures = s.captures := by cases c <;> rfl
@[simp] theorem State.setCentre_receivers (c : Centre) (k : CentreControl) :
    (s.setCentre c k).receivers = s.receivers := by cases c <;> rfl
@[simp] theorem State.setCentre_acceptance (c : Centre) (k : CentreControl) :
    (s.setCentre c k).acceptance = s.acceptance := by cases c <;> rfl
@[simp] theorem State.setCentre_entries (c : Centre) (k : CentreControl) :
    (s.setCentre c k).entries = s.entries := by cases c <;> rfl
@[simp] theorem State.setCentre_profiles (c : Centre) (k : CentreControl) :
    (s.setCentre c k).profiles = s.profiles := by cases c <;> rfl
@[simp] theorem State.setCentre_timers (c : Centre) (k : CentreControl) :
    (s.setCentre c k).timers = s.timers := by cases c <;> rfl
@[simp] theorem State.setCentre_bearer (c : Centre) (k : CentreControl) :
    (s.setCentre c k).bearer = s.bearer := by cases c <;> rfl
@[simp] theorem State.setCentre_writes (c : Centre) (k : CentreControl) :
    (s.setCentre c k).writes = s.writes := by cases c <;> rfl
@[simp] theorem State.setCentre_stored (c : Centre) (k : CentreControl) :
    (s.setCentre c k).stored = s.stored := by cases c <;> rfl
@[simp] theorem State.setCentre_report (c : Centre) (k : CentreControl) :
    (s.setCentre c k).report = s.report := by cases c <;> rfl
@[simp] theorem State.setCentre_reportPendingA (c : Centre) (k : CentreControl) :
    (s.setCentre c k).reportPendingA = s.reportPendingA := by cases c <;> rfl
@[simp] theorem State.setCentre_reportPendingB (c : Centre) (k : CentreControl) :
    (s.setCentre c k).reportPendingB = s.reportPendingB := by cases c <;> rfl
@[simp] theorem State.setCentre_reportPendingS (c : Centre) (k : CentreControl) :
    (s.setCentre c k).reportPendingS = s.reportPendingS := by cases c <;> rfl
@[simp] theorem State.setCentre_records (c : Centre) (k : CentreControl) :
    (s.setCentre c k).records = s.records := by cases c <;> rfl
@[simp] theorem State.setCentre_overflow (c : Centre) (k : CentreControl) :
    (s.setCentre c k).overflow = s.overflow := by cases c <;> rfl
@[simp] theorem State.setCentre_abandoned (c : Centre) (k : CentreControl) :
    (s.setCentre c k).abandoned = s.abandoned := by cases c <;> rfl
@[simp] theorem State.setCentre_overflowed (c : Centre) (k : CentreControl) :
    (s.setCentre c k).overflowed = s.overflowed := by cases c <;> rfl
@[simp] theorem State.setCentre_idCounter (c : Centre) (k : CentreControl) :
    (s.setCentre c k).idCounter = s.idCounter := by cases c <;> rfl
@[simp] theorem State.setCentre_channels (c : Centre) (k : CentreControl) :
    (s.setCentre c k).channels = s.channels := by cases c <;> rfl
@[simp] theorem State.setCentre_tests (c : Centre) (k : CentreControl) :
    (s.setCentre c k).tests = s.tests := by cases c <;> rfl
@[simp] theorem State.setCentre_linkA (c : Centre) (k : CentreControl) :
    (s.setCentre c k).linkA = s.linkA := by cases c <;> rfl
@[simp] theorem State.setCentre_linkB (c : Centre) (k : CentreControl) :
    (s.setCentre c k).linkB = s.linkB := by cases c <;> rfl
@[simp] theorem State.setCentre_linkS (c : Centre) (k : CentreControl) :
    (s.setCentre c k).linkS = s.linkS := by cases c <;> rfl
@[simp] theorem State.setCentre_group (c : Centre) (k : CentreControl) (x : GroupId) :
    (s.setCentre c k).group x = s.group x := by cases c <;> rfl
@[simp] theorem State.setCentre_classifier (c : Centre) (k : CentreControl) (x : LineId) :
    (s.setCentre c k).classifier x = s.classifier x := by cases c <;> rfl
@[simp] theorem State.setCentre_line (c : Centre) (k : CentreControl) (x : LineId) :
    (s.setCentre c k).line x = s.line x := by cases c <;> rfl
@[simp] theorem State.setCentre_capture (c : Centre) (k : CentreControl) (x : LineId) :
    (s.setCentre c k).capture x = s.capture x := by cases c <;> rfl
@[simp] theorem State.setCentre_receiver (c : Centre) (k : CentreControl) (x : GroupId) :
    (s.setCentre c k).receiver x = s.receiver x := by cases c <;> rfl
@[simp] theorem State.setCentre_entry (c : Centre) (k : CentreControl) (x : LineId) :
    (s.setCentre c k).entry x = s.entry x := by cases c <;> rfl
@[simp] theorem State.setCentre_profile (c : Centre) (k : CentreControl) (x : ProfileId) :
    (s.setCentre c k).profile x = s.profile x := by cases c <;> rfl
@[simp] theorem State.setCentre_profileOf (c : Centre) (k : CentreControl) (x : LineId) :
    (s.setCentre c k).profileOf x = s.profileOf x := by cases c <;> rfl
@[simp] theorem State.setCentre_channel (c : Centre) (k : CentreControl) (x : ChannelId) :
    (s.setCentre c k).channel x = s.channel x := by cases c <;> rfl
@[simp] theorem State.setCentre_test (c : Centre) (k : CentreControl) (x : GroupId) :
    (s.setCentre c k).test x = s.test x := by cases c <;> rfl
@[simp] theorem State.setCentre_link (c : Centre) (k : CentreControl) (x : Link) :
    (s.setCentre c k).link x = s.link x := by cases c <;> rfl
@[simp] theorem State.setCentre_reportPending (c : Centre) (k : CentreControl) (x : Link) :
    (s.setCentre c k).reportPending x = s.reportPending x := by cases c <;> rfl
@[simp] theorem State.setCentre_input (c : Centre) (k : CentreControl) (x : Input) :
    (s.setCentre c k).input x = s.input x := by cases c <;> rfl
@[simp] theorem State.setCentre_recordById (c : Centre) (k : CentreControl) (x : CallId) :
    (s.setCentre c k).recordById x = s.recordById x := by cases c <;> rfl
@[simp] theorem State.setCentre_recordOfLine (c : Centre) (k : CentreControl) (x : LineId) :
    (s.setCentre c k).recordOfLine x = s.recordOfLine x := by cases c <;> rfl

/-! ### setReportPending -/

@[simp] theorem State.setReportPending_pending (l : Link) (p : Bool) :
    (s.setReportPending l p).pending = s.pending := by cases l <;> rfl
@[simp] theorem State.setReportPending_clock (l : Link) (p : Bool) :
    (s.setReportPending l p).clock = s.clock := by cases l <;> rfl
@[simp] theorem State.setReportPending_subTick (l : Link) (p : Bool) :
    (s.setReportPending l p).subTick = s.subTick := by cases l <;> rfl
@[simp] theorem State.setReportPending_tick (l : Link) (p : Bool) :
    (s.setReportPending l p).tick = s.tick := by cases l <;> rfl
@[simp] theorem State.setReportPending_orders (l : Link) (p : Bool) :
    (s.setReportPending l p).orders = s.orders := by cases l <;> rfl
@[simp] theorem State.setReportPending_mainsOk (l : Link) (p : Bool) :
    (s.setReportPending l p).mainsOk = s.mainsOk := by cases l <;> rfl
@[simp] theorem State.setReportPending_batteryLow (l : Link) (p : Bool) :
    (s.setReportPending l p).batteryLow = s.batteryLow := by cases l <;> rfl
@[simp] theorem State.setReportPending_key (l : Link) (p : Bool) :
    (s.setReportPending l p).key = s.key := by cases l <;> rfl
@[simp] theorem State.setReportPending_power (l : Link) (p : Bool) :
    (s.setReportPending l p).power = s.power := by cases l <;> rfl
@[simp] theorem State.setReportPending_load (l : Link) (p : Bool) :
    (s.setReportPending l p).load = s.load := by cases l <;> rfl
@[simp] theorem State.setReportPending_window (l : Link) (p : Bool) :
    (s.setReportPending l p).window = s.window := by cases l <;> rfl
@[simp] theorem State.setReportPending_groups (l : Link) (p : Bool) :
    (s.setReportPending l p).groups = s.groups := by cases l <;> rfl
@[simp] theorem State.setReportPending_classifiers (l : Link) (p : Bool) :
    (s.setReportPending l p).classifiers = s.classifiers := by cases l <;> rfl
@[simp] theorem State.setReportPending_lines (l : Link) (p : Bool) :
    (s.setReportPending l p).lines = s.lines := by cases l <;> rfl
@[simp] theorem State.setReportPending_captures (l : Link) (p : Bool) :
    (s.setReportPending l p).captures = s.captures := by cases l <;> rfl
@[simp] theorem State.setReportPending_receivers (l : Link) (p : Bool) :
    (s.setReportPending l p).receivers = s.receivers := by cases l <;> rfl
@[simp] theorem State.setReportPending_acceptance (l : Link) (p : Bool) :
    (s.setReportPending l p).acceptance = s.acceptance := by cases l <;> rfl
@[simp] theorem State.setReportPending_entries (l : Link) (p : Bool) :
    (s.setReportPending l p).entries = s.entries := by cases l <;> rfl
@[simp] theorem State.setReportPending_profiles (l : Link) (p : Bool) :
    (s.setReportPending l p).profiles = s.profiles := by cases l <;> rfl
@[simp] theorem State.setReportPending_timers (l : Link) (p : Bool) :
    (s.setReportPending l p).timers = s.timers := by cases l <;> rfl
@[simp] theorem State.setReportPending_bearer (l : Link) (p : Bool) :
    (s.setReportPending l p).bearer = s.bearer := by cases l <;> rfl
@[simp] theorem State.setReportPending_writes (l : Link) (p : Bool) :
    (s.setReportPending l p).writes = s.writes := by cases l <;> rfl
@[simp] theorem State.setReportPending_stored (l : Link) (p : Bool) :
    (s.setReportPending l p).stored = s.stored := by cases l <;> rfl
@[simp] theorem State.setReportPending_report (l : Link) (p : Bool) :
    (s.setReportPending l p).report = s.report := by cases l <;> rfl
@[simp] theorem State.setReportPending_records (l : Link) (p : Bool) :
    (s.setReportPending l p).records = s.records := by cases l <;> rfl
@[simp] theorem State.setReportPending_overflow (l : Link) (p : Bool) :
    (s.setReportPending l p).overflow = s.overflow := by cases l <;> rfl
@[simp] theorem State.setReportPending_abandoned (l : Link) (p : Bool) :
    (s.setReportPending l p).abandoned = s.abandoned := by cases l <;> rfl
@[simp] theorem State.setReportPending_overflowed (l : Link) (p : Bool) :
    (s.setReportPending l p).overflowed = s.overflowed := by cases l <;> rfl
@[simp] theorem State.setReportPending_idCounter (l : Link) (p : Bool) :
    (s.setReportPending l p).idCounter = s.idCounter := by cases l <;> rfl
@[simp] theorem State.setReportPending_channels (l : Link) (p : Bool) :
    (s.setReportPending l p).channels = s.channels := by cases l <;> rfl
@[simp] theorem State.setReportPending_tests (l : Link) (p : Bool) :
    (s.setReportPending l p).tests = s.tests := by cases l <;> rfl
@[simp] theorem State.setReportPending_linkA (l : Link) (p : Bool) :
    (s.setReportPending l p).linkA = s.linkA := by cases l <;> rfl
@[simp] theorem State.setReportPending_linkB (l : Link) (p : Bool) :
    (s.setReportPending l p).linkB = s.linkB := by cases l <;> rfl
@[simp] theorem State.setReportPending_linkS (l : Link) (p : Bool) :
    (s.setReportPending l p).linkS = s.linkS := by cases l <;> rfl
@[simp] theorem State.setReportPending_centreA (l : Link) (p : Bool) :
    (s.setReportPending l p).centreA = s.centreA := by cases l <;> rfl
@[simp] theorem State.setReportPending_centreB (l : Link) (p : Bool) :
    (s.setReportPending l p).centreB = s.centreB := by cases l <;> rfl
@[simp] theorem State.setReportPending_group (l : Link) (p : Bool) (x : GroupId) :
    (s.setReportPending l p).group x = s.group x := by cases l <;> rfl
@[simp] theorem State.setReportPending_classifier (l : Link) (p : Bool) (x : LineId) :
    (s.setReportPending l p).classifier x = s.classifier x := by cases l <;> rfl
@[simp] theorem State.setReportPending_line (l : Link) (p : Bool) (x : LineId) :
    (s.setReportPending l p).line x = s.line x := by cases l <;> rfl
@[simp] theorem State.setReportPending_capture (l : Link) (p : Bool) (x : LineId) :
    (s.setReportPending l p).capture x = s.capture x := by cases l <;> rfl
@[simp] theorem State.setReportPending_receiver (l : Link) (p : Bool) (x : GroupId) :
    (s.setReportPending l p).receiver x = s.receiver x := by cases l <;> rfl
@[simp] theorem State.setReportPending_entry (l : Link) (p : Bool) (x : LineId) :
    (s.setReportPending l p).entry x = s.entry x := by cases l <;> rfl
@[simp] theorem State.setReportPending_profile (l : Link) (p : Bool) (x : ProfileId) :
    (s.setReportPending l p).profile x = s.profile x := by cases l <;> rfl
@[simp] theorem State.setReportPending_profileOf (l : Link) (p : Bool) (x : LineId) :
    (s.setReportPending l p).profileOf x = s.profileOf x := by cases l <;> rfl
@[simp] theorem State.setReportPending_channel (l : Link) (p : Bool) (x : ChannelId) :
    (s.setReportPending l p).channel x = s.channel x := by cases l <;> rfl
@[simp] theorem State.setReportPending_test (l : Link) (p : Bool) (x : GroupId) :
    (s.setReportPending l p).test x = s.test x := by cases l <;> rfl
@[simp] theorem State.setReportPending_link (l : Link) (p : Bool) (x : Link) :
    (s.setReportPending l p).link x = s.link x := by cases l <;> rfl
@[simp] theorem State.setReportPending_centre (l : Link) (p : Bool) (x : Centre) :
    (s.setReportPending l p).centre x = s.centre x := by cases l <;> rfl
@[simp] theorem State.setReportPending_input (l : Link) (p : Bool) (x : Input) :
    (s.setReportPending l p).input x = s.input x := by cases l <;> rfl
@[simp] theorem State.setReportPending_recordById (l : Link) (p : Bool) (x : CallId) :
    (s.setReportPending l p).recordById x = s.recordById x := by cases l <;> rfl
@[simp] theorem State.setReportPending_recordOfLine (l : Link) (p : Bool) (x : LineId) :
    (s.setReportPending l p).recordOfLine x = s.recordOfLine x := by cases l <;> rfl
@[simp] theorem State.setReportPending_isLost (l : Link) (p : Bool) (x : Link) :
    (s.setReportPending l p).isLost x = s.isLost x := by cases l <;> rfl

/-! ### setInput -/

@[simp] theorem State.setInput_pending (i : Input) (k : InputState) :
    (s.setInput i k).pending = s.pending := by cases i <;> rfl
@[simp] theorem State.setInput_clock (i : Input) (k : InputState) :
    (s.setInput i k).clock = s.clock := by cases i <;> rfl
@[simp] theorem State.setInput_subTick (i : Input) (k : InputState) :
    (s.setInput i k).subTick = s.subTick := by cases i <;> rfl
@[simp] theorem State.setInput_tick (i : Input) (k : InputState) :
    (s.setInput i k).tick = s.tick := by cases i <;> rfl
@[simp] theorem State.setInput_orders (i : Input) (k : InputState) :
    (s.setInput i k).orders = s.orders := by cases i <;> rfl
@[simp] theorem State.setInput_power (i : Input) (k : InputState) :
    (s.setInput i k).power = s.power := by cases i <;> rfl
@[simp] theorem State.setInput_load (i : Input) (k : InputState) :
    (s.setInput i k).load = s.load := by cases i <;> rfl
@[simp] theorem State.setInput_window (i : Input) (k : InputState) :
    (s.setInput i k).window = s.window := by cases i <;> rfl
@[simp] theorem State.setInput_groups (i : Input) (k : InputState) :
    (s.setInput i k).groups = s.groups := by cases i <;> rfl
@[simp] theorem State.setInput_classifiers (i : Input) (k : InputState) :
    (s.setInput i k).classifiers = s.classifiers := by cases i <;> rfl
@[simp] theorem State.setInput_lines (i : Input) (k : InputState) :
    (s.setInput i k).lines = s.lines := by cases i <;> rfl
@[simp] theorem State.setInput_captures (i : Input) (k : InputState) :
    (s.setInput i k).captures = s.captures := by cases i <;> rfl
@[simp] theorem State.setInput_receivers (i : Input) (k : InputState) :
    (s.setInput i k).receivers = s.receivers := by cases i <;> rfl
@[simp] theorem State.setInput_acceptance (i : Input) (k : InputState) :
    (s.setInput i k).acceptance = s.acceptance := by cases i <;> rfl
@[simp] theorem State.setInput_entries (i : Input) (k : InputState) :
    (s.setInput i k).entries = s.entries := by cases i <;> rfl
@[simp] theorem State.setInput_profiles (i : Input) (k : InputState) :
    (s.setInput i k).profiles = s.profiles := by cases i <;> rfl
@[simp] theorem State.setInput_timers (i : Input) (k : InputState) :
    (s.setInput i k).timers = s.timers := by cases i <;> rfl
@[simp] theorem State.setInput_bearer (i : Input) (k : InputState) :
    (s.setInput i k).bearer = s.bearer := by cases i <;> rfl
@[simp] theorem State.setInput_writes (i : Input) (k : InputState) :
    (s.setInput i k).writes = s.writes := by cases i <;> rfl
@[simp] theorem State.setInput_stored (i : Input) (k : InputState) :
    (s.setInput i k).stored = s.stored := by cases i <;> rfl
@[simp] theorem State.setInput_report (i : Input) (k : InputState) :
    (s.setInput i k).report = s.report := by cases i <;> rfl
@[simp] theorem State.setInput_reportPendingA (i : Input) (k : InputState) :
    (s.setInput i k).reportPendingA = s.reportPendingA := by cases i <;> rfl
@[simp] theorem State.setInput_reportPendingB (i : Input) (k : InputState) :
    (s.setInput i k).reportPendingB = s.reportPendingB := by cases i <;> rfl
@[simp] theorem State.setInput_reportPendingS (i : Input) (k : InputState) :
    (s.setInput i k).reportPendingS = s.reportPendingS := by cases i <;> rfl
@[simp] theorem State.setInput_records (i : Input) (k : InputState) :
    (s.setInput i k).records = s.records := by cases i <;> rfl
@[simp] theorem State.setInput_overflow (i : Input) (k : InputState) :
    (s.setInput i k).overflow = s.overflow := by cases i <;> rfl
@[simp] theorem State.setInput_abandoned (i : Input) (k : InputState) :
    (s.setInput i k).abandoned = s.abandoned := by cases i <;> rfl
@[simp] theorem State.setInput_overflowed (i : Input) (k : InputState) :
    (s.setInput i k).overflowed = s.overflowed := by cases i <;> rfl
@[simp] theorem State.setInput_idCounter (i : Input) (k : InputState) :
    (s.setInput i k).idCounter = s.idCounter := by cases i <;> rfl
@[simp] theorem State.setInput_channels (i : Input) (k : InputState) :
    (s.setInput i k).channels = s.channels := by cases i <;> rfl
@[simp] theorem State.setInput_tests (i : Input) (k : InputState) :
    (s.setInput i k).tests = s.tests := by cases i <;> rfl
@[simp] theorem State.setInput_linkA (i : Input) (k : InputState) :
    (s.setInput i k).linkA = s.linkA := by cases i <;> rfl
@[simp] theorem State.setInput_linkB (i : Input) (k : InputState) :
    (s.setInput i k).linkB = s.linkB := by cases i <;> rfl
@[simp] theorem State.setInput_linkS (i : Input) (k : InputState) :
    (s.setInput i k).linkS = s.linkS := by cases i <;> rfl
@[simp] theorem State.setInput_centreA (i : Input) (k : InputState) :
    (s.setInput i k).centreA = s.centreA := by cases i <;> rfl
@[simp] theorem State.setInput_centreB (i : Input) (k : InputState) :
    (s.setInput i k).centreB = s.centreB := by cases i <;> rfl
@[simp] theorem State.setInput_group (i : Input) (k : InputState) (x : GroupId) :
    (s.setInput i k).group x = s.group x := by cases i <;> rfl
@[simp] theorem State.setInput_classifier (i : Input) (k : InputState) (x : LineId) :
    (s.setInput i k).classifier x = s.classifier x := by cases i <;> rfl
@[simp] theorem State.setInput_line (i : Input) (k : InputState) (x : LineId) :
    (s.setInput i k).line x = s.line x := by cases i <;> rfl
@[simp] theorem State.setInput_capture (i : Input) (k : InputState) (x : LineId) :
    (s.setInput i k).capture x = s.capture x := by cases i <;> rfl
@[simp] theorem State.setInput_receiver (i : Input) (k : InputState) (x : GroupId) :
    (s.setInput i k).receiver x = s.receiver x := by cases i <;> rfl
@[simp] theorem State.setInput_entry (i : Input) (k : InputState) (x : LineId) :
    (s.setInput i k).entry x = s.entry x := by cases i <;> rfl
@[simp] theorem State.setInput_profile (i : Input) (k : InputState) (x : ProfileId) :
    (s.setInput i k).profile x = s.profile x := by cases i <;> rfl
@[simp] theorem State.setInput_profileOf (i : Input) (k : InputState) (x : LineId) :
    (s.setInput i k).profileOf x = s.profileOf x := by cases i <;> rfl
@[simp] theorem State.setInput_channel (i : Input) (k : InputState) (x : ChannelId) :
    (s.setInput i k).channel x = s.channel x := by cases i <;> rfl
@[simp] theorem State.setInput_test (i : Input) (k : InputState) (x : GroupId) :
    (s.setInput i k).test x = s.test x := by cases i <;> rfl
@[simp] theorem State.setInput_link (i : Input) (k : InputState) (x : Link) :
    (s.setInput i k).link x = s.link x := by cases i <;> rfl
@[simp] theorem State.setInput_centre (i : Input) (k : InputState) (x : Centre) :
    (s.setInput i k).centre x = s.centre x := by cases i <;> rfl
@[simp] theorem State.setInput_reportPending (i : Input) (k : InputState) (x : Link) :
    (s.setInput i k).reportPending x = s.reportPending x := by cases i <;> rfl
@[simp] theorem State.setInput_recordById (i : Input) (k : InputState) (x : CallId) :
    (s.setInput i k).recordById x = s.recordById x := by cases i <;> rfl
@[simp] theorem State.setInput_recordOfLine (i : Input) (k : InputState) (x : LineId) :
    (s.setInput i k).recordOfLine x = s.recordOfLine x := by cases i <;> rfl
@[simp] theorem State.setInput_isLost (i : Input) (k : InputState) (x : Link) :
    (s.setInput i k).isLost x = s.isLost x := by cases i <;> rfl

/-! ### What an update writes -/

@[simp] theorem State.setGroup_groups (g : GroupId) (r : GroupRecord) :
    (s.setGroup g r).groups = s.groups.set g r := rfl
@[simp] theorem State.setClassifier_classifiers (n : LineId) (k : Classifier) :
    (s.setClassifier n k).classifiers = s.classifiers.set n k := rfl
@[simp] theorem State.setLine_lines (n : LineId) (u : LineUnit) :
    (s.setLine n u).lines = s.lines.set n u := rfl
@[simp] theorem State.setCapture_captures (n : LineId) (k : Option Capture) :
    (s.setCapture n k).captures = s.captures.set n k := rfl
@[simp] theorem State.setReceiver_receivers (g : GroupId) (r : Receiver) :
    (s.setReceiver g r).receivers = s.receivers.set g r := rfl
@[simp] theorem State.setEntry_entries (n : LineId) (e : Entry) :
    (s.setEntry n e).entries = s.entries.set n e := rfl
@[simp] theorem State.setProfile_profiles (p : ProfileId) (q : Profile) :
    (s.setProfile p q).profiles = s.profiles.set p q := rfl
@[simp] theorem State.setChannel_channels (ch : ChannelId) (k : Channel) :
    (s.setChannel ch k).channels = s.channels.set ch k := rfl
@[simp] theorem State.setTest_tests (g : GroupId) (t : Option TestRecord) :
    (s.setTest g t).tests = s.tests.set g t := rfl
@[simp] theorem State.setCondition_lines (n : LineId) (k : Condition) :
    (s.setCondition n k).lines = s.lines.set n { s.line n with condition := k } := rfl
@[simp] theorem State.removeRecord_records (id : CallId) :
    (s.removeRecord id).records = s.records.filter fun r => r.id ≠ id := rfl
@[simp] theorem State.updRecord_records (id : CallId) (f : CallRecord → CallRecord) :
    (s.updRecord id f).records = s.records.map fun r => if r.id = id then f r else r := rfl
@[simp] theorem State.give_orders (o : Order) : (s.give o).orders = s.orders ++ [o] := rfl
@[simp] theorem State.setLink_link (l m : Link) (k : LinkController) :
    (s.setLink l k).link m = if m = l then k else s.link m := by
  cases l <;> cases m <;> rfl
@[simp] theorem State.setCentre_centre (c d : Centre) (k : CentreControl) :
    (s.setCentre c k).centre d = if d = c then k else s.centre d := by
  cases c <;> cases d <;> rfl
@[simp] theorem State.setReportPending_reportPending (l m : Link) (p : Bool) :
    (s.setReportPending l p).reportPending m = if m = l then p else s.reportPending m := by
  cases l <;> cases m <;> rfl
@[simp] theorem State.setInput_input (i j : Input) (k : InputState) :
    (s.setInput i k).input j = if j = i then k else s.input j := by
  cases i <;> cases j <;> rfl

@[simp] theorem State.setGroup_group (g x : GroupId) (r : GroupRecord) :
    (s.setGroup g r).group x = if x = g then r else s.group x := by
  simp only [State.setGroup, State.group, Fin.getElem_fin, Vector.getElem_set, Fin.ext_iff, eq_comm]

@[simp] theorem State.setClassifier_classifier (n x : LineId) (k : Classifier) :
    (s.setClassifier n k).classifier x = if x = n then k else s.classifier x := by
  simp only [State.setClassifier, State.classifier, Fin.getElem_fin, Vector.getElem_set, Fin.ext_iff, eq_comm]

@[simp] theorem State.setLine_line (n x : LineId) (u : LineUnit) :
    (s.setLine n u).line x = if x = n then u else s.line x := by
  simp only [State.setLine, State.line, Fin.getElem_fin, Vector.getElem_set, Fin.ext_iff, eq_comm]

@[simp] theorem State.setCapture_capture (n x : LineId) (k : Option Capture) :
    (s.setCapture n k).capture x = if x = n then k else s.capture x := by
  simp only [State.setCapture, State.capture, Fin.getElem_fin, Vector.getElem_set, Fin.ext_iff, eq_comm]

@[simp] theorem State.setReceiver_receiver (g x : GroupId) (r : Receiver) :
    (s.setReceiver g r).receiver x = if x = g then r else s.receiver x := by
  simp only [State.setReceiver, State.receiver, Fin.getElem_fin, Vector.getElem_set, Fin.ext_iff, eq_comm]

@[simp] theorem State.setEntry_entry (n x : LineId) (e : Entry) :
    (s.setEntry n e).entry x = if x = n then e else s.entry x := by
  simp only [State.setEntry, State.entry, Fin.getElem_fin, Vector.getElem_set, Fin.ext_iff, eq_comm]

@[simp] theorem State.setProfile_profile (p x : ProfileId) (q : Profile) :
    (s.setProfile p q).profile x = if x = p then q else s.profile x := by
  simp only [State.setProfile, State.profile, Fin.getElem_fin, Vector.getElem_set, Fin.ext_iff, eq_comm]

@[simp] theorem State.setChannel_channel (ch x : ChannelId) (k : Channel) :
    (s.setChannel ch k).channel x = if x = ch then k else s.channel x := by
  simp only [State.setChannel, State.channel, Fin.getElem_fin, Vector.getElem_set, Fin.ext_iff, eq_comm]

@[simp] theorem State.setTest_test (g x : GroupId) (t : Option TestRecord) :
    (s.setTest g t).test x = if x = g then t else s.test x := by
  simp only [State.setTest, State.test, Fin.getElem_fin, Vector.getElem_set, Fin.ext_iff, eq_comm]

@[simp] theorem State.setCondition_line (n x : LineId) (k : Condition) :
    (s.setCondition n k).line x = if x = n then { s.line n with condition := k } else s.line x := by
  simp [State.setCondition]

/-! ### Writes that change nothing or follow one another -/

@[simp] theorem State.setLink_self (l : Link) : s.setLink l (s.link l) = s := by cases l <;> rfl
@[simp] theorem State.setCentre_self (c : Centre) : s.setCentre c (s.centre c) = s := by cases c <;> rfl
@[simp] theorem State.setLink_setLink (l : Link) (k j : LinkController) :
    (s.setLink l k).setLink l j = s.setLink l j := by cases l <;> rfl
@[simp] theorem State.setCentre_setCentre (c : Centre) (k j : CentreControl) :
    (s.setCentre c k).setCentre c j = s.setCentre c j := by cases c <;> rfl

end Sys2Proof.Machine
end

