-- ==== Sys2Proof/Laws/Outbound.lean ====
section
/-! SUPPORT. What the operations of an outbound queue and the submissions to a link can do (R157 to R161). -/

namespace Sys2Proof.Machine

/-! ### One queue -/

theorem insertEntry_perm (e : QueueEntry) (q : List QueueEntry) : (insertEntry e q).Perm (e :: q) := by
  induction q with
  | nil => exact List.Perm.refl _
  | cons x rest ih =>
    unfold insertEntry
    split
    · exact (ih.cons x).trans (List.Perm.swap e x rest)
    · exact List.Perm.refl _

@[simp] theorem insertEntry_length (e : QueueEntry) (q : List QueueEntry) :
    (insertEntry e q).length = q.length + 1 := (insertEntry_perm e q).length_eq

theorem mem_insertEntry (e x : QueueEntry) (q : List QueueEntry) :
    x ∈ insertEntry e q ↔ x = e ∨ x ∈ q := by
  rw [(insertEntry_perm e q).mem_iff, List.mem_cons]

/-- Where an entry takes its place: behind every entry of its class or a lower one that stands before a higher one
(R157). -/
theorem insertEntry_eq (e : QueueEntry) (q : List QueueEntry) :
    insertEntry e q =
      q.takeWhile (·.msg.cls ≤ e.msg.cls) ++ [e] ++ q.dropWhile (·.msg.cls ≤ e.msg.cls) := by
  induction q with
  | nil => rfl
  | cons x rest ih =>
    unfold insertEntry
    by_cases h : x.msg.cls ≤ e.msg.cls <;> simp [h, ih]

/-- A CALL_OFFER waits exactly when an entry of the queue carries its id (R160, R161). -/
theorem offerWaits_iff (q : List QueueEntry) (id : CallId) :
    offerWaits q id = true ↔ ∃ e ∈ q, e.msg.offerId = some id := by
  simp [offerWaits, Message.offers]

/-- The order of R157 between two entries of a queue. -/
abbrev QueueEntry.Before (e f : QueueEntry) : Prop :=
  e.msg.cls < f.msg.cls ∨ (e.msg.cls = f.msg.cls ∧ e.time < f.time)

/-- A newer entry inserted into an ordered queue keeps it ordered (R157). -/
theorem insertEntry_ordered (e : QueueEntry) (q : List QueueEntry)
    (hq : q.Pairwise QueueEntry.Before) (hn : ∀ x ∈ q, x.time < e.time) :
    (insertEntry e q).Pairwise QueueEntry.Before := by
  induction q with
  | nil => simp [insertEntry]
  | cons x rest ih =>
    obtain ⟨hx, hrest⟩ := List.pairwise_cons.1 hq
    unfold insertEntry
    split
    · next hle =>
      refine List.pairwise_cons.2 ⟨fun y hy => ?_, ih hrest fun y hy => hn y (List.mem_cons_of_mem _ hy)⟩
      rcases (mem_insertEntry e y rest).1 hy with rfl | hy
      · have := hn x (by simp)
        unfold QueueEntry.Before
        omega
      · exact hx y hy
    · next hlt =>
      refine List.pairwise_cons.2 ⟨fun y hy => ?_, hq⟩
      rcases List.mem_cons.1 hy with rfl | hy
      · exact .inl (by omega)
      · have := hx y hy
        unfold QueueEntry.Before at *
        omega

@[simp] theorem noteDiscard_queue (k : LinkController) (m : Message) :
    (k.noteDiscard m).queue = k.queue := by
  unfold LinkController.noteDiscard
  split <;> [split <;> rfl; rfl]

@[simp] theorem noteDiscard_transmit (k : LinkController) (m : Message) :
    (k.noteDiscard m).transmit = k.transmit := by
  unfold LinkController.noteDiscard
  split <;> [split <;> rfl; rfl]

@[simp] theorem noteDiscard_resync (k : LinkController) (m : Message) :
    (k.noteDiscard m).resync = k.resync := by
  unfold LinkController.noteDiscard
  split <;> [split <;> rfl; rfl]

/-- A new entry never takes a queue past 8 entries (R157, R158). -/
theorem place_length (k : LinkController) (m : Message) (f : Bool)
    (h : k.queue.length ≤ Config.queueCapacity) :
    (k.place m f).queue.length ≤ Config.queueCapacity := by
  unfold LinkController.place
  simp only
  split
  · next hl =>
    simp only [insertEntry_length]
    exact hl
  · next hl =>
    split
    · next last hlast =>
      split
      · simp only [noteDiscard_queue, insertEntry_length, List.length_dropLast]
        have := List.getLast?_isSome.1 (by rw [hlast]; rfl)
        have := List.length_pos_of_ne_nil this
        omega
      · simpa using h
    · next hnone =>
      exact absurd (by simp [List.getLast?_eq_none_iff.1 hnone, Config.queueCapacity]) hl

/-- A submission never takes a queue past 8 entries (R158, R160). -/
theorem enqueue_length (k : LinkController) (m : Message) (f : Bool)
    (h : k.queue.length ≤ Config.queueCapacity) :
    (k.enqueue m f).queue.length ≤ Config.queueCapacity := by
  unfold LinkController.enqueue
  split
  · dsimp only
    split
    · simpa [mergeOffer] using h
    · exact place_length _ m f h
  · exact place_length k m f h

/-- Everything the transmitter can do with a queue: nothing, or take its first entry (R159). -/
theorem pump_cases (k : LinkController) (now : Tick) :
    (k.pump now = k ∧ (k.transmit ≠ .idle ∨ k.queue = [])) ∨
    ∃ e rest, k.transmit = .idle ∧ k.queue = e :: rest ∧
      k.pump now =
        { k with queue := rest, transmit := .sending e.msg (frameOf e.msg.type (e.msg.body now)) } := by
  unfold LinkController.pump
  split
  · next e rest ht hq => exact .inr ⟨e, rest, ht, hq, rfl⟩
  · next h =>
    refine .inl ⟨rfl, ?_⟩
    cases ht : k.transmit with
    | sending m f => exact .inl (by simp)
    | idle =>
      cases hq : k.queue with
      | nil => exact .inr rfl
      | cons e rest => exact (h e rest ht hq).elim

/-! ### Submissions to a link -/

/-- A reply is never discarded for a LOST link (R157). -/
theorem State.reply_eq (s : State) (l : Link) (type : Byte) (code : ReplyCode) (fields : List Byte) :
    s.reply l type code fields = s.answered l type code fields := by
  simp [State.reply, State.submit, State.answered, State.told, Message.isReply]

theorem State.refuse_eq (s : State) (l : Link) (type : Byte) (code : ReplyCode) :
    s.refuse l type code = s.answered l type code [] := s.reply_eq l type code []

/-- A notice reaches the queue of a link that is not LOST (R157). -/
theorem State.notify_eq (s : State) (l : Link) (n : Notice) : s.notify l n = s.informed l n := by
  simp [State.notify, State.submit, State.informed, State.told, Message.isReply]

theorem State.notifyAll_eq (s : State) (n : Notice) : s.notifyAll n = s.announced n := by
  simp [State.notifyAll, State.announced, State.notify_eq]

theorem State.notifyLine_eq (s : State) (n : LineId) (x : Notice) : s.notifyLine n x = s.reported n x := by
  simp [State.notifyLine, State.reported, State.each, State.notify_eq]

/-- A submission changes the controller of its link and nothing else. -/
theorem State.submit_spec (s : State) (l : Link) (m : Message) : ∃ k, s.submit l m = s.setLink l k := by
  unfold State.submit
  split
  · exact ⟨s.link l, (s.setLink_self l).symm⟩
  · exact ⟨_, rfl⟩

theorem State.notify_spec (s : State) (l : Link) (n : Notice) : ∃ k, s.notify l n = s.setLink l k :=
  s.submit_spec l _

/-- A notice to all three links changes their controllers and nothing else. -/
theorem State.notifyAll_spec (s : State) (n : Notice) :
    ∃ a b c, s.notifyAll n = { s with linkA := a, linkB := b, linkS := c } := by
  obtain ⟨a, ha⟩ := s.notify_spec .a n
  obtain ⟨b, hb⟩ := (s.setLink .a a).notify_spec .b n
  obtain ⟨c, hc⟩ := ((s.setLink .a a).setLink .b b).notify_spec .s n
  exact ⟨a, b, c, by rw [State.notifyAll, ha, hb, hc]; rfl⟩

/-- A notice about a line changes the controllers of the links and nothing else. -/
theorem State.notifyLine_spec (s : State) (n : LineId) (x : Notice) :
    ∃ a b c, s.notifyLine n x = { s with linkA := a, linkB := b, linkS := c } := by
  have one : ∀ (s : State) (l : Link), ∃ k,
      (if (s.link l).watch.passes (s.entry n) then s.notify l x else s) = s.setLink l k := by
    intro s l
    split
    · exact s.notify_spec l x
    · exact ⟨_, (s.setLink_self l).symm⟩
  obtain ⟨a, ha⟩ := one s .a
  obtain ⟨b, hb⟩ := one (s.setLink .a a) .b
  obtain ⟨c, hc⟩ := one ((s.setLink .a a).setLink .b b) .s
  refine ⟨a, b, c, ?_⟩
  simp only [State.notifyLine, State.each, List.foldl_cons, List.foldl_nil]
  rw [ha, hb, hc]
  rfl

theorem State.notifyCondition_spec (s : State) (n : LineId) :
    ∃ a b c, s.notifyCondition n = { s with linkA := a, linkB := b, linkS := c } :=
  s.notifyLine_spec n _

/-- A leave changes the controller of its link and nothing else (R161). -/
theorem State.leave_spec (s : State) (c : Centre) (id : CallId) (n : Option Notice) :
    ∃ k, s.leave c id n = s.setLink c.link k := ⟨_, rfl⟩

/-! ### Offers of records -/

@[simp] theorem State.offeredAll_nil (s : State) (l : Link) : s.offeredAll l [] = s := rfl

@[simp] theorem State.offeredAll_cons (s : State) (l : Link) (r : CallRecord) (rs : List CallRecord) :
    s.offeredAll l (r :: rs) = (s.informed l (.callOffer (offerOf r))).offeredAll l rs := rfl

theorem State.offeredAll_append (s : State) (l : Link) (rs qs : List CallRecord) :
    s.offeredAll l (rs ++ qs) = (s.offeredAll l rs).offeredAll l qs := List.foldl_append ..

/-- Offering records to a link changes the controller of the link and nothing else (R158). -/
theorem State.offeredAll_spec (s : State) (l : Link) (rs : List CallRecord) :
    ∃ k, s.offeredAll l rs = s.setLink l k := by
  induction rs generalizing s with
  | nil => exact ⟨_, (s.setLink_self l).symm⟩
  | cons r rs ih =>
    obtain ⟨k, h⟩ := ih (s.informed l (.callOffer (offerOf r)))
    refine ⟨k, h.trans ?_⟩
    unfold State.informed
    split
    · rfl
    · cases l <;> rfl

end Sys2Proof.Machine
end

