-- ==== Sys2Proof/Laws/Offering.lean ====
section
/-! SUPPORT. What register order, tones, channels and offers can do (R41, R83, R105, R126 to R134). -/

namespace Sys2Proof.Machine

/-! ### Doing one thing for each -/

/-- What each turn keeps, all turns keep. -/
theorem State.each_keeps {α : Type} (P : State → Prop) (f : State → α → State)
    (hf : ∀ s x, P s → P (f s x)) (s : State) (xs : List α) (h : P s) : P (s.each xs f) := by
  induction xs generalizing s with
  | nil => exact h
  | cons x rest ih => exact ih (f s x) (hf s x h)

theorem State.eachRecord_keeps (P : State → Prop) (f : State → CallRecord → State)
    (hf : ∀ s r, P s → P (f s r)) (s : State) (h : P s) : P (s.eachRecord f) := by
  refine State.each_keeps P _ (fun s id hs => ?_) s _ h
  show P (match s.recordById id with
    | some r => f s r
    | none => s)
  split
  · exact hf _ _ hs
  · exact hs

/-! ### Register order (R83) -/

theorem insertRecord_perm (now : Tick) (r : CallRecord) (xs : List CallRecord) :
    (insertRecord now r xs).Perm (r :: xs) := by
  induction xs with
  | nil => exact List.Perm.refl _
  | cons x rest ih =>
    unfold insertRecord
    split
    · exact List.Perm.refl _
    · exact (ih.cons x).trans (List.Perm.swap r x rest)

theorem mem_registerOrder (s : State) (r : CallRecord) : r ∈ s.registerOrder ↔ r ∈ s.records := by
  have h : ∀ xs : List CallRecord, r ∈ xs.foldr (insertRecord s.tick) [] ↔ r ∈ xs := by
    intro xs
    induction xs with
    | nil => simp
    | cons x rest ih => rw [List.foldr_cons, (insertRecord_perm _ _ _).mem_iff]; simp [ih]
  exact h s.records

/-! ### Records found -/

theorem State.recordById_some {s : State} {id : CallId} {r : CallRecord}
    (h : s.recordById id = some r) : r ∈ s.records ∧ r.id = id :=
  ⟨List.mem_of_find?_eq_some h, by simpa using List.find?_some h⟩

theorem State.recordOfLine_some {s : State} {n : LineId} {r : CallRecord}
    (h : s.recordOfLine n = some r) : r ∈ s.records ∧ r.line = n :=
  ⟨List.mem_of_find?_eq_some h, by simpa using List.find?_some h⟩

/-! ### Tones (R41) -/

/-- Working out a tone sets the line's tone and may order it; nothing else changes. -/
theorem State.retone_spec (s : State) (n : LineId) :
    ∃ o, s.retone n =
      { s with
        lines := s.lines.set n
          { s.line n with tone := toneFor (s.line n).condition (s.recordOfLine n) }
        orders := s.orders ++ o } := by
  unfold State.retone
  simp only
  split
  · next h =>
    refine ⟨[], ?_⟩
    have hl : s.lines.set n { s.line n with tone := (s.line n).tone } = s.lines :=
      Vector.set_getElem_self n.isLt
    rw [h, hl, List.append_nil]
  · exact ⟨_, rfl⟩

/-- Entering a condition sets the line and its tone, and may order the tone; nothing else changes. -/
theorem State.enter_spec (s : State) (n : LineId) (k : Condition) :
    ∃ o, s.enter n k =
      { s with
        lines := s.lines.set n { condition := k, tone := toneFor k (s.recordOfLine n) }
        orders := s.orders ++ o } := by
  obtain ⟨o, ho⟩ := (s.setCondition n k).retone_spec n
  refine ⟨o, ?_⟩
  rw [State.enter, ho]
  simp [State.setCondition, State.setLine, State.line, State.recordOfLine]

/-! ### Channels (R130, R133, R134) -/

/-- Freeing a channel changes its entry and may order its connection broken; nothing else changes. -/
theorem State.freeChannel_spec (s : State) (ch : ChannelId) :
    ∃ o, s.freeChannel ch = { s with channels := s.channels.set ch .free, orders := s.orders ++ o } := by
  unfold State.freeChannel
  split
  · exact ⟨_, rfl⟩
  · exact ⟨[], by simp [State.setChannel]⟩

/-- Connecting a channel changes its entry and orders its connection; nothing else changes. -/
theorem State.connectChannel_spec (s : State) (ch : ChannelId) (n : LineId) (c : Centre) (id : CallId) :
    s.connectChannel ch n c id =
      { s with
        channels := s.channels.set ch (.connected n c id)
        orders := s.orders ++ [.makePoint ch n c] } := rfl

/-- The channel granted is FREE, every lower one is not, and both limits leave room (R130). -/
theorem State.grantedChannel_some {s : State} {c : Centre} {ch : ChannelId}
    (h : s.grantedChannel c = some ch) :
    s.channelsInUse < cabinetLimit s.power ∧ s.channelsRouted c < s.bearer.limit c ∧
      s.channel ch = .free := by
  unfold State.grantedChannel at h
  split at h
  · next hl => exact ⟨hl.1, hl.2, by simpa using List.find?_some h⟩
  · cases h

/-- No channel is granted at a limit (R128 to R130). -/
theorem State.grantedChannel_none {s : State} {c : Centre}
    (h : cabinetLimit s.power ≤ s.channelsInUse ∨ s.bearer.limit c ≤ s.channelsRouted c) :
    s.grantedChannel c = none := by
  unfold State.grantedChannel
  split
  · omega
  · rfl

/-! ### Offers (R105) -/

/-- A placed offer changes the controller of its link and nothing else. -/
theorem State.placeOffer_spec (s : State) (id : CallId) (c : Centre) :
    ∃ k, s.placeOffer id c = s.setLink c.link k := by
  unfold State.placeOffer
  split
  · exact s.notify_spec _ _
  · exact ⟨_, (s.setLink_self _).symm⟩

/-- An offer changes the record, the controller of the link, and the tone of the record's line; nothing
else. -/
theorem State.offerTo_spec (s : State) (id : CallId) (c : Centre) (r : CallRecord)
    (h : s.recordById id = some r) :
    ∃ k u o, s.offerTo id c =
      { (s.setLink c.link k) with
        records := s.records.map fun q =>
          if q.id = id then q.offeredTo c (s.group r.line.group).health else q
        lines := s.lines.set r.line u
        orders := s.orders ++ o } := by
  unfold State.offerTo
  rw [h]
  obtain ⟨k, hk⟩ :=
    (s.updRecord id fun q => q.offeredTo c (s.group r.line.group).health).placeOffer_spec id c
  simp only [hk]
  obtain ⟨o, ho⟩ :=
    ((s.updRecord id fun q => q.offeredTo c (s.group r.line.group).health).setLink c.link k).retone_spec
      r.line
  cases c <;> exact ⟨k, _, o, ho⟩

end Sys2Proof.Machine
end

