-- ==== Sys2Proof/Laws/PerInstr.lean ====
section
/-! SUPPORT. What holds of each command as syntax: the family Shape, one lemma per constructor. -/

namespace Sys2Proof.Laws

open Sys2Proof.Machine

/-- The shape of a command. A command that a frame brings has one of the named TYPEs; the queries, TYPE 0x08
and below, are those that need no right; and a well-formed one has a BODY of at most 63 bytes, as LEN allows
(R149, R151, R176). -/
def Shape.Statement (c : Instr) : Prop :=
  ∀ k, linkCommand c = some k →
    Command.named k.type = true ∧ (k.right = .none ↔ k.type.toNat ≤ 8) ∧
    (c.wellFormed = true → k.body.length ≤ 63)

/-- An event, which no frame brings, has the shape trivially. -/
theorem shape_of_event {c : Instr} (h : linkCommand c = none) : Shape.Statement c := by
  intro k hk
  simp [h] at hk

/-- What Shape asks of a TYPE and the right its command needs. -/
def shapeOfType (type : Byte) (right : Right) : Bool :=
  Command.named type && (decide (right = .none) == decide (type.toNat ≤ 8))

/-- A link command has the shape when its TYPE and right agree and its body fits a frame. -/
theorem shape_of_command {c : Instr} {l : Link} {type : Byte} {right : Right} {body : List Byte}
    (h : linkCommand c = some ⟨l, type, right, body⟩) (ht : shapeOfType type right = true)
    (hb : c.wellFormed = true → body.length ≤ 63) : Shape.Statement c := by
  intro k' hk
  obtain rfl := Option.some.inj (h.symm.trans hk)
  obtain ⟨h1, h2⟩ := (Bool.and_eq_true _ _ ▸ ht : _ ∧ _)
  exact ⟨h1, by simpa using h2, hb⟩

/-- A body that fits a frame has at most 63 bytes (R149). -/
theorem bodyFits_length {body : List Byte} (h : bodyFits body = true) : body.length ≤ 63 := by
  simpa [bodyFits] using h

/-- A SET_SERVICE body that spells IN has two bytes (R177). -/
theorem spellsIn_length {body : List Byte} (h : spellsIn body = true) : body.length ≤ 63 := by
  unfold spellsIn at h
  split at h
  · simp
  · cases h

theorem Shape.coldStart (mainsOk batteryLow key : Bool) :
    Shape.Statement (.coldStart mainsOk batteryLow key) :=
  shape_of_event rfl

theorem Shape.storeReadCompletion (late : Bool) (report : ReadReport) :
    Shape.Statement (.storeReadCompletion late report) :=
  shape_of_event rfl

theorem Shape.storeReadTimeout : Shape.Statement .storeReadTimeout :=
  shape_of_event rfl

theorem Shape.inputChange (input : Input) (level : Bool) : Shape.Statement (.inputChange input level) :=
  shape_of_event rfl

theorem Shape.debounceExpiry (input : Input) : Shape.Statement (.debounceExpiry input) :=
  shape_of_event rfl

theorem Shape.passTimerExpiry (g : GroupId) : Shape.Statement (.passTimerExpiry g) :=
  shape_of_event rfl

theorem Shape.orderReady (g : GroupId) (late : Bool) (vc ic : Code) (valid : Bool) :
    Shape.Statement (.orderReady g late vc ic valid) :=
  shape_of_event rfl

theorem Shape.orderReadyTimeout (g : GroupId) : Shape.Statement (.orderReadyTimeout g) :=
  shape_of_event rfl

theorem Shape.fixedSettleEnd (g : GroupId) (vc ic : Code) (valid : Bool) :
    Shape.Statement (.fixedSettleEnd g vc ic valid) :=
  shape_of_event rfl

theorem Shape.probeDelayExpiry (g : GroupId) : Shape.Statement (.probeDelayExpiry g) :=
  shape_of_event rfl

theorem Shape.parkTimerExpiry (n : LineId) : Shape.Statement (.parkTimerExpiry n) :=
  shape_of_event rfl

theorem Shape.ringTimerExpiry (n : LineId) : Shape.Statement (.ringTimerExpiry n) :=
  shape_of_event rfl

theorem Shape.identityBurst (n : LineId) (bytes : List Byte) (heardStart : Bool) :
    Shape.Statement (.identityBurst n bytes heardStart) :=
  shape_of_event rfl

theorem Shape.windowTimerExpiry (n : LineId) : Shape.Statement (.windowTimerExpiry n) :=
  shape_of_event rfl

theorem Shape.escalationTimerExpiry (id : CallId) : Shape.Statement (.escalationTimerExpiry id) :=
  shape_of_event rfl

theorem Shape.overdueTimerExpiry (id : CallId) : Shape.Statement (.overdueTimerExpiry id) :=
  shape_of_event rfl

theorem Shape.transferTimerExpiry (id : CallId) : Shape.Statement (.transferTimerExpiry id) :=
  shape_of_event rfl

theorem Shape.longCallTimerExpiry (id : CallId) : Shape.Statement (.longCallTimerExpiry id) :=
  shape_of_event rfl

theorem Shape.dwellTimerExpiry (g : GroupId) : Shape.Statement (.dwellTimerExpiry g) :=
  shape_of_event rfl

theorem Shape.testTimeLimit (g : GroupId) : Shape.Statement (.testTimeLimit g) :=
  shape_of_event rfl

theorem Shape.hookSense (n : LineId) : Shape.Statement (.hookSense n) :=
  shape_of_event rfl

theorem Shape.storeWriteCompletion (late : Bool) (success : Bool) :
    Shape.Statement (.storeWriteCompletion late success) :=
  shape_of_event rfl

theorem Shape.storeWriteTimeout : Shape.Statement .storeWriteTimeout :=
  shape_of_event rfl

theorem Shape.frameBad (l : Link) (bytes : List Byte) : Shape.Statement (.frameBad l bytes) :=
  shape_of_event rfl

theorem Shape.frameTimerExpiry (l : Link) : Shape.Statement (.frameTimerExpiry l) :=
  shape_of_event rfl

theorem Shape.silenceTimerExpiry (c : Centre) : Shape.Statement (.silenceTimerExpiry c) :=
  shape_of_event rfl

theorem Shape.breakRecognised (l : Link) : Shape.Statement (.breakRecognised l) :=
  shape_of_event rfl

theorem Shape.breakLong (c : Centre) : Shape.Statement (.breakLong c) :=
  shape_of_event rfl

theorem Shape.breakEnd (l : Link) : Shape.Statement (.breakEnd l) :=
  shape_of_event rfl

theorem Shape.transmissionComplete (l : Link) : Shape.Statement (.transmissionComplete l) :=
  shape_of_event rfl

theorem Shape.unknownCommand (l : Link) (type : Byte) (body : List Byte) :
    Shape.Statement (.unknownCommand l type body) :=
  shape_of_event rfl

theorem Shape.keepalive (l : Link) (body : List Byte) : Shape.Statement (.keepalive l body) :=
  shape_of_command rfl rfl bodyFits_length

theorem Shape.listCalls (l : Link) (body : List Byte) : Shape.Statement (.listCalls l body) :=
  shape_of_command rfl rfl bodyFits_length

theorem Shape.listAbandoned (l : Link) (body : List Byte) : Shape.Statement (.listAbandoned l body) :=
  shape_of_command rfl rfl bodyFits_length

theorem Shape.lineStatus (l : Link) (body : List Byte) : Shape.Statement (.lineStatus l body) :=
  shape_of_command rfl rfl bodyFits_length

theorem Shape.readDirectory (l : Link) (body : List Byte) : Shape.Statement (.readDirectory l body) :=
  shape_of_command rfl rfl bodyFits_length

theorem Shape.readProfile (l : Link) (body : List Byte) : Shape.Statement (.readProfile l body) :=
  shape_of_command rfl rfl bodyFits_length

theorem Shape.readGroup (l : Link) (body : List Byte) : Shape.Statement (.readGroup l body) :=
  shape_of_command rfl rfl bodyFits_length

theorem Shape.setWatch (l : Link) (body : List Byte) : Shape.Statement (.setWatch l body) :=
  shape_of_command rfl rfl bodyFits_length

theorem Shape.claim (l : Link) (body : List Byte) : Shape.Statement (.claim l body) :=
  shape_of_command rfl rfl bodyFits_length

theorem Shape.answerNext (l : Link) (body : List Byte) : Shape.Statement (.answerNext l body) :=
  shape_of_command rfl rfl bodyFits_length

theorem Shape.hold (l : Link) (body : List Byte) : Shape.Statement (.hold l body) :=
  shape_of_command rfl rfl bodyFits_length

theorem Shape.retrieve (l : Link) (body : List Byte) : Shape.Statement (.retrieve l body) :=
  shape_of_command rfl rfl bodyFits_length

theorem Shape.release (l : Link) (body : List Byte) : Shape.Statement (.release l body) :=
  shape_of_command rfl rfl bodyFits_length

theorem Shape.transfer (l : Link) (body : List Byte) : Shape.Statement (.transfer l body) :=
  shape_of_command rfl rfl bodyFits_length

theorem Shape.ringPost (l : Link) (body : List Byte) : Shape.Statement (.ringPost l body) :=
  shape_of_command rfl rfl bodyFits_length

theorem Shape.cancelRing (l : Link) (body : List Byte) : Shape.Statement (.cancelRing l body) :=
  shape_of_command rfl rfl bodyFits_length

theorem Shape.dismiss (l : Link) (body : List Byte) : Shape.Statement (.dismiss l body) :=
  shape_of_command rfl rfl bodyFits_length

theorem Shape.handoverRequest (l : Link) (body : List Byte) :
    Shape.Statement (.handoverRequest l body) :=
  shape_of_command rfl rfl bodyFits_length

theorem Shape.resume (l : Link) (body : List Byte) : Shape.Statement (.resume l body) :=
  shape_of_command rfl rfl bodyFits_length

theorem Shape.setServiceOut (l : Link) (body : List Byte) : Shape.Statement (.setServiceOut l body) :=
  shape_of_command rfl rfl (fun h => bodyFits_length (Bool.and_eq_true _ _ ▸ h).1)

theorem Shape.setServiceIn (l : Link) (body : List Byte) : Shape.Statement (.setServiceIn l body) :=
  shape_of_command rfl rfl spellsIn_length

theorem Shape.testLine (l : Link) (body : List Byte) : Shape.Statement (.testLine l body) :=
  shape_of_command rfl rfl bodyFits_length

theorem Shape.writeDirectory (l : Link) (body : List Byte) : Shape.Statement (.writeDirectory l body) :=
  shape_of_command rfl rfl bodyFits_length

theorem Shape.writeProfile (l : Link) (body : List Byte) : Shape.Statement (.writeProfile l body) :=
  shape_of_command rfl rfl bodyFits_length

theorem Shape.setGroup (l : Link) (body : List Byte) : Shape.Statement (.setGroup l body) :=
  shape_of_command rfl rfl bodyFits_length

theorem Shape.setAcceptance (l : Link) (body : List Byte) : Shape.Statement (.setAcceptance l body) :=
  shape_of_command rfl rfl bodyFits_length

theorem Shape.setCallTimers (l : Link) (body : List Byte) : Shape.Statement (.setCallTimers l body) :=
  shape_of_command rfl rfl bodyFits_length

theorem Shape.setBearer (l : Link) (body : List Byte) : Shape.Statement (.setBearer l body) :=
  shape_of_command rfl rfl bodyFits_length

theorem Shape.restart (l : Link) (body : List Byte) : Shape.Statement (.restart l body) :=
  shape_of_command rfl rfl bodyFits_length

theorem Shape.syncByteReceived (l : Link) : Shape.Statement (.syncByteReceived l) :=
  shape_of_event rfl

end Sys2Proof.Laws
end

