-- ==== Sys2Proof/Laws/Register.lean ====
section
/-! SUPPORT. What the operations of the call register and the identity receivers can do (R54 to R59, R84 to
R95). -/

namespace Sys2Proof.Machine

/-! ### Call ids (R84) -/

/-- The id after a value is never 0 (R84). -/
theorem nextCandidate_ne_zero (id : CallId) : nextCandidate id ≠ 0 := by
  unfold nextCandidate
  split
  · decide
  · next h =>
    intro h0
    apply h
    have h1 : id.val + 1 = 256 := by
      have := congrArg Fin.val h0
      simp only [Fin.val_add] at this
      have hi := id.isLt
      have : (id.val + 1) % 256 = 0 := this
      omega
    apply Fin.ext
    show id.val = 255
    omega

theorem idHeld_iff (s : State) (id : CallId) :
    s.idHeld id = true ↔ id ∈ s.records.map (·.id) ++ s.abandoned.map (·.id) := by
  simp only [State.idHeld, Bool.or_eq_true, List.any_eq_true, decide_eq_true_eq, List.mem_append,
    List.mem_map]

/-- A search from a value other than 0 never ends at 0. -/
theorem findFreeId_ne_zero (held : CallId → Bool) (k : Nat) (id : CallId) (h : id ≠ 0) :
    findFreeId held k id ≠ 0 := by
  induction k generalizing id with
  | zero => exact h
  | succ k ih =>
    unfold findFreeId
    split
    · exact ih _ (nextCandidate_ne_zero id)
    · exact h

/-- A search that meets a free value within its looks ends at one. -/
theorem findFreeId_free (held : CallId → Bool) (k j : Nat) (id : CallId) (hj : j < k)
    (hf : held (nextCandidate^[j] id) = false) : held (findFreeId held k id) = false := by
  induction k generalizing id j with
  | zero => omega
  | succ k ih =>
    unfold findFreeId
    split
    · next hh =>
      cases j with
      | zero => simp_all
      | succ j => exact ih j _ (by omega) (by simpa [Function.iterate_succ_apply] using hf)
    · next hh => simpa using hh

/-- A free counter value is the id issued (R84). -/
theorem nextId_of_free (s : State) (h : s.idHeld s.idCounter = false) : s.nextId = s.idCounter := by
  simp [State.nextId, findFreeId, h]

/-- The value so many places after an id that is not 0, 255 being followed by 1 (R84). -/
theorem nextCandidate_iterate (id : CallId) (h : id ≠ 0) (k : Nat) :
    nextCandidate^[k] id = Fin.ofNat 256 ((id.val - 1 + k) % 255 + 1) := by
  have h0 : 1 ≤ id.val := Nat.one_le_iff_ne_zero.2 fun e => h (Fin.ext e)
  have hi := id.isLt
  induction k with
  | zero => apply Fin.ext; simp only [Function.iterate_zero, id_eq, Fin.ofNat]; omega
  | succ k ih =>
    rw [Function.iterate_succ_apply', ih]
    unfold nextCandidate
    have hv : ((Fin.ofNat 256 ((id.val - 1 + k) % 255 + 1) : CallId)).val = (id.val - 1 + k) % 255 + 1 := by
      simp only [Fin.ofNat]; omega
    split
    · next e => rw [e] at hv; apply Fin.ext; simp only [Fin.ofNat]; change 255 = _ at hv; change 1 = _; omega
    · next e =>
      have : (id.val - 1 + k) % 255 + 1 ≠ 255 := fun e' => e (Fin.ext (hv.trans e'))
      apply Fin.ext
      simp only [Fin.val_add, Fin.ofNat]
      change (((id.val - 1 + k) % 255 + 1) % 256 + 1) % 256 = _
      omega

/-- A search ends at the first free value of those it looks at, and after them all at the next one. -/
theorem findFreeId_eq (held : CallId → Bool) (k : Nat) (id : CallId) :
    findFreeId held k id =
      (((List.range k).map (nextCandidate^[·] id)).find? fun x => !held x).getD (nextCandidate^[k] id) := by
  induction k generalizing id with
  | zero => rfl
  | succ k ih =>
    unfold findFreeId
    rw [List.range_succ_eq_map, List.map_cons, List.map_map, List.find?_cons]
    cases hh : held id with
    | false => simp [hh]
    | true => simp [hh, ih, Function.comp_def, Function.iterate_succ_apply]

/-- The id that the register issues next (R84). -/
theorem State.nextId_eq (s : State) (h : s.idCounter ≠ 0) :
    s.nextId = issuedId (s.records.map (·.id) ++ s.abandoned.map (·.id)) s.idCounter := by
  have hl : nextCandidate^[255] s.idCounter = s.idCounter := by
    have h0 : 1 ≤ s.idCounter.val := Nat.one_le_iff_ne_zero.2 fun e => h (Fin.ext e)
    have hi := s.idCounter.isLt
    rw [nextCandidate_iterate _ h]
    apply Fin.ext
    simp only [Fin.ofNat]
    omega
  have hf : (fun x => !s.idHeld x) =
      fun x => decide (x ∉ s.records.map (·.id) ++ s.abandoned.map (·.id)) := by
    funext x
    rw [Bool.eq_iff_iff, Bool.not_eq_true', Bool.eq_false_iff, Ne, idHeld_iff, decide_eq_true_iff]
  unfold State.nextId issuedId
  rw [findFreeId_eq, hl, hf]
  simp only [nextCandidate_iterate _ h]
/-! ### Receivers (R57 to R59) -/

/-- Freeing a receiver gives it the oldest line that waits, and changes nothing but the receiver and the
orders. -/
theorem State.freeReceiver_spec (s : State) (g : GroupId) :
    s.freeReceiver g =
      { s with
        receivers := s.receivers.set g
          { listening := (s.receiver g).waiting.head?, waiting := (s.receiver g).waiting.tail }
        orders := s.orders ++ [.listen g (s.receiver g).waiting.head?] } := by
  unfold State.freeReceiver
  split <;> next h => simp [h, State.setReceiver, State.give]

/-- A line leaves its group's receiver; nothing but the receiver and the orders changes. -/
theorem State.leaveReceiver_spec (s : State) (n : LineId) :
    ∃ r o, s.leaveReceiver n =
      { s with receivers := s.receivers.set n.group r, orders := s.orders ++ o } := by
  unfold State.leaveReceiver
  simp only
  split
  · exact ⟨_, _, s.freeReceiver_spec n.group⟩
  · exact ⟨_, [], (by rw [List.append_nil]; rfl : s.setReceiver n.group
      { s.receiver n.group with waiting := (s.receiver n.group).waiting.filter fun m => m ≠ n } = _)⟩

/-- Dropping a capture changes nothing but the capture, the receiver and the orders (R58). -/
theorem State.dropCapture_spec (s : State) (n : LineId) :
    ∃ rs o, s.dropCapture n =
      { s with captures := s.captures.set n none, receivers := rs, orders := s.orders ++ o } := by
  unfold State.dropCapture
  split
  · obtain ⟨r, o, h⟩ := (s.setCapture n none).leaveReceiver_spec n
    exact ⟨_, o, h⟩
  · next h =>
    have hl : s.captures.set n none = s.captures := by
      have hc : s.captures[n] = none := h
      conv_rhs => rw [← Vector.set_getElem_self (xs := s.captures) n.isLt]
      exact congrArg (fun x => s.captures.set n x n.isLt) hc.symm
    exact ⟨s.receivers, [], by rw [hl, List.append_nil]⟩

/-! ### The abandoned list (R95) -/

/-- The abandoned list never passes 16 entries (R95). -/
theorem addAbandoned_length (s : State) (e : AbandonedEntry)
    (h : s.abandoned.length ≤ Config.abandonedCapacity) :
    (s.addAbandoned e).abandoned.length ≤ Config.abandonedCapacity := by
  unfold State.addAbandoned
  split <;> simp only [List.length_append, List.length_drop, List.length_singleton] <;>
    simp only [Config.abandonedCapacity] at * <;> omega

/-- Making an entry, said whole (R95). -/
theorem State.addAbandoned_eq (s : State) (e : AbandonedEntry) :
    s.addAbandoned e = { s with
      abandoned := abandonedWith s.abandoned e
      overflowed := s.overflowed || decide (16 ≤ s.abandoned.length) } := by
  unfold State.addAbandoned abandonedWith
  simp only [Config.abandonedCapacity]
  split
  · next h => simp [show ¬ 16 ≤ s.abandoned.length by omega]
  · next h => simp [show 16 ≤ s.abandoned.length by omega]

/-- An entry made is the last of the list (R95). -/
theorem addAbandoned_last (s : State) (e : AbandonedEntry) :
    (s.addAbandoned e).abandoned.getLast? = some e := by
  unfold State.addAbandoned
  split <;> simp

/-- Making an entry changes nothing but the list and its flag. -/
theorem State.addAbandoned_spec (s : State) (e : AbandonedEntry) :
    ∃ xs o, s.addAbandoned e = { s with abandoned := xs, overflowed := o } := by
  unfold State.addAbandoned
  split
  · exact ⟨_, s.overflowed, rfl⟩
  · exact ⟨_, _, rfl⟩

/-! ### The overflow list (R87) -/

theorem insertOverflow_perm (now : Tick) (e : OverflowEntry) (xs : List OverflowEntry) :
    (insertOverflow now e xs).Perm (e :: xs) := by
  induction xs with
  | nil => exact List.Perm.refl _
  | cons x rest ih =>
    unfold insertOverflow
    simp only
    split
    · exact List.Perm.refl _
    · exact (ih.cons x).trans (List.Perm.swap e x rest)

/-- Putting an entry in the overflow list changes the list alone, by that one entry (R87). -/
theorem State.insertEntry_spec (s : State) (e : OverflowEntry) :
    ∃ xs, xs.Perm (e :: s.overflow) ∧ s.insertEntry e = { s with overflow := xs } :=
  ⟨_, insertOverflow_perm s.tick e s.overflow, rfl⟩

/-- Creating a record issues an id and adds the record at the end; nothing else changes (R85, R88). -/
theorem State.createRecord_spec (s : State) (n : LineId) (arrival : Tick) :
    s.createRecord n arrival =
      { s with
        records := s.records ++ [CallRecord.create s.nextId n arrival (s.overdueTimerFor arrival)]
        idCounter := nextCandidate s.nextId } := rfl

/-- A call request that finds room: the record, the capture, and then the line's tone (R35, R85). -/
theorem State.callRequest_of_room (s : State) (n : LineId) (arrival : Tick)
    (h : s.records.length < Config.registerCapacity) :
    s.callRequest n arrival = ((s.createRecord n arrival).startCapture n arrival).enter n .inCall :=
  if_pos h

/-- Adding a record issues an id, adds the record at the end, and sets the line and its tone; nothing else
changes but the orders (R85, R88). -/
theorem State.addRecord_spec (s : State) (n : LineId) (arrival : Tick) :
    ∃ u o, s.addRecord n arrival =
      { s with
        records := s.records ++ [CallRecord.create s.nextId n arrival (s.overdueTimerFor arrival)]
        idCounter := nextCandidate s.nextId
        lines := s.lines.set n u
        orders := s.orders ++ o } := by
  unfold State.addRecord
  obtain ⟨o, h⟩ := ({ s.issue s.nextId with
    records := s.records ++ [CallRecord.create s.nextId n arrival (s.overdueTimerFor arrival)] }).enter_spec
      n .inCall
  exact ⟨_, o, h⟩

end Sys2Proof.Machine
end

