-- ==== Sys2Proof/Laws/Scanner.lean ====
section
/-! SUPPORT. What the order port, the passes and the store queue can do (R3, R7, R75, R76). -/

namespace Sys2Proof.Machine

/-- Arbitration leaves a busy port alone (R3). -/
theorem State.arbitrate_busy (s : State) (g : GroupId) (o : PlacedOrder) (h : (s.group g).port = some o) :
    s.arbitrate g = s := by
  simp [State.arbitrate, h]

/-- A free port takes the test unit's order first (R3). -/
theorem State.arbitrate_test (s : State) (g : GroupId) (t : TestRecord) (h : (s.group g).port = none)
    (ht : s.test g = some t) (hw : t.order = .waiting) :
    s.arbitrate g =
      { s with
        groups := s.groups.set g { s.group g with port := some (s.newOrder g .test) }
        tests := s.tests.set g (some { t with order := .placed })
        orders := s.orders ++ [.measure g t.target.1 t.target.2] } := by
  have hf : (s.test g).filter (·.order = .waiting) = some t := by
    rw [ht]
    simp [Option.filter, hw]
  simp only [State.arbitrate, h, hf]
  rfl

/-- A free port with no test order waiting takes the scanner's (R3). -/
theorem State.arbitrate_scanner (s : State) (g : GroupId) (p : ScanPurpose) (h : (s.group g).port = none)
    (ht : ∀ t ∈ s.test g, t.order ≠ .waiting) (hw : (s.group g).scanWaiting = some p) :
    s.arbitrate g =
      { s with
        groups := s.groups.set g
          { s.group g with port := some (s.newOrder g (.scanner p)), scanWaiting := none }
        orders := s.orders ++ [.measure g p.target.1 p.target.2] } := by
  have hf : (s.test g).filter (·.order = .waiting) = none := by
    cases hg : s.test g with
    | none => rfl
    | some t => simp [Option.filter, ht t (by simp [hg])]
  simp only [State.arbitrate, h, hf, hw]
  rfl

/-- A free port with nothing waiting stays free. -/
theorem State.arbitrate_idle (s : State) (g : GroupId) (ht : ∀ t ∈ s.test g, t.order ≠ .waiting)
    (hw : (s.group g).scanWaiting = none) : s.arbitrate g = s := by
  have hf : (s.test g).filter (·.order = .waiting) = none := by
    cases hg : s.test g with
    | none => rfl
    | some t => simp [Option.filter, ht t (by simp [hg])]
  cases hp : (s.group g).port <;> simp [State.arbitrate, hp, hf, hw]

/-- What a port that has fallen free takes, said once (R3). -/
theorem State.arbitrate_free (s : State) (g : GroupId) (h : (s.group g).port = none) :
    s.arbitrate g = s.served g := by
  unfold State.arbitrate State.served
  simp only [h]
  cases hf : (s.test g).filter (·.order = .waiting) with
  | some t => rfl
  | none =>
    cases hw : (s.group g).scanWaiting with
    | some p => cases p <;> rfl
    | none =>
      have hr : { s.group g with port := none, scanWaiting := none } = s.group g := by rw [← h, ← hw]
      exact congrArg (fun x => { s with groups := x })
        ((Vector.set_getElem_self (xs := s.groups) g.isLt).symm.trans (congrArg (s.groups.set g ·) hr.symm))

/-- The end of a test in a group that runs none changes nothing (R143). -/
@[simp] theorem State.testStopped_none (s : State) (g : GroupId) (o : TestOutcome) (h : s.test g = none) :
    s.testStopped g o = s := by
  simp [State.testStopped, h]

/-- Arbitration changes nothing but its group, its test and the orders. -/
theorem State.arbitrate_spec (s : State) (g : GroupId) :
    ∃ r t o, s.arbitrate g =
      { s with groups := s.groups.set g r, tests := s.tests.set g t, orders := s.orders ++ o } := by
  have hg : s.groups.set g (s.group g) = s.groups := Vector.set_getElem_self g.isLt
  have ht : s.tests.set g (s.test g) = s.tests := Vector.set_getElem_self g.isLt
  unfold State.arbitrate
  simp only
  split
  · exact ⟨s.group g, s.test g, [], by rw [hg, ht, List.append_nil]⟩
  · split
    · exact ⟨_, _, _, rfl⟩
    · split
      · exact ⟨_, s.test g, _, by rw [ht]; rfl⟩
      · exact ⟨s.group g, s.test g, [], by rw [hg, ht, List.append_nil]⟩

/-- A pass starts in a fitted group; in a group of fitted count 0 nothing happens (R2, R7). -/
theorem State.startPass_spec (s : State) (g : GroupId) :
    ((s.group g).fitted = 0 → s.startPass g = s) ∧
    ((s.group g).fitted ≠ 0 → s.startPass g =
      { s with
        groups := s.groups.set g
          { s.group g with
            pass := .inPass
            passTimer := some { length := scanInterval s.power, due := s.clock + scanInterval s.power }
            scanWaiting := some .feed, restartPass := false } }) := by
  constructor <;> intro h
  · simp [State.startPass, h]
  · simp only [State.startPass, h, if_false]
    rfl

/-! ### The store write queue -/

/-- Handing the first entry to the store changes nothing but the queue and the orders (R75, R76). -/
theorem State.startWriting_spec (s : State) :
    ∃ ws o, s.startWriting = { s with writes := ws, orders := s.orders ++ o } := by
  unfold State.startWriting
  split
  · exact ⟨_, _, rfl⟩
  · exact ⟨s.writes, [], by simp⟩

/-- Queueing a write changes nothing but the queue and the orders (R75). -/
theorem State.queueWrite_spec (s : State) (i : Item) :
    ∃ ws o, s.queueWrite i = { s with writes := ws, orders := s.orders ++ o } := by
  unfold State.queueWrite
  simp only
  split
  · exact ⟨_, [], by rw [List.append_nil]⟩
  · split
    · obtain ⟨ws, o, h⟩ := State.startWriting_spec { s with
        writes := s.writes ++ [{ item := i, content := s.content i, writing := none }] }
      exact ⟨ws, o, h⟩
    · exact ⟨_, [], by rw [List.append_nil]⟩

/-- A queued write is pending (R69, R75). -/
theorem State.queueWrite_pending (s : State) (i : Item) : (s.queueWrite i).writePending i = true := by
  unfold State.queueWrite
  simp only
  split
  · next h =>
    obtain ⟨w, hw, hi⟩ := List.any_eq_true.1 h
    simp only [WriteEntry.waitsFor, Bool.and_eq_true, decide_eq_true_eq] at hi
    refine List.any_eq_true.2 ⟨_, List.mem_map.2 ⟨w, hw, rfl⟩, ?_⟩
    split <;> simpa using hi.2
  · split
    · next h =>
      have : s.writes = [] := List.isEmpty_iff.1 h
      simp [State.startWriting, State.writePending, State.give, this]
    · simp [State.writePending]

/-- A write of an item that the queue can accept never takes it past 4 entries (R75). -/
theorem State.queueWrite_length (s : State) (i : Item) (h : s.canWrite i = true)
    (hs : s.writes.length ≤ Config.writeCapacity) :
    (s.queueWrite i).writes.length ≤ Config.writeCapacity := by
  unfold State.queueWrite
  simp only
  split
  · simpa using hs
  · next hw =>
    have hc : s.writes.length < Config.writeCapacity := by
      simp only [State.canWrite, Bool.or_eq_true, decide_eq_true_eq] at h
      exact h.resolve_left (by simpa using hw)
    split
    · next he =>
      have : s.writes = [] := List.isEmpty_iff.1 he
      simp [State.startWriting, State.give, this, Config.writeCapacity]
    · simp only [List.length_append, List.length_singleton]
      omega

end Sys2Proof.Machine
end

