-- ==== Sys2Proof/Laws/Taking.lean ====
section
/-! SUPPORT. What the taking of a command does, case by case (R150, R151, R156), and that every meaning answers
a next state. -/

namespace Sys2Proof.Machine

@[simp] theorem State.taking_eq (s : State) (f : State → State) :
    s.taking f = .next (f { s with orders := [] }) := rfl

/-- Every command answers a next state. -/
theorem exec_next (c : Instr) (s : State) : ∃ t, exec c s = .next t := by
  cases c <;> exact ⟨_, rfl⟩

/-- Every step answers a next state. -/
theorem step_next (s : State) : ∃ t, step s = .next t := by
  unfold step
  split
  · exact ⟨_, rfl⟩
  · exact exec_next _ _

/-- The step takes the front command. -/
theorem step_cons (s : State) (c : Instr) (rest : List Instr) (h : s.pending = c :: rest) :
    step s = exec c { s with pending := rest } := by
  simp [step, h]

theorem step_nil (s : State) (h : s.pending = []) : step s = .next s.idle := by
  simp [step, h]

section

variable {α : Type} (s : State) (l : Link) (type : Byte) (right : Right) (read : Option α)
  (act : State → α → State)

/-- In a break a command is not received (R156). -/
theorem State.command_inBreak (h : (s.link l).receive.inBreak = true) :
    s.command l type right read act = s := by
  simp [State.command, h]

/-- A command that the start-up or the recovery of its link holds up is refused (R150). -/
theorem State.command_heldUp (h : (s.link l).receive.inBreak = false) (code : ReplyCode)
    (hh : (s.arrive l).heldUp l type = some code) :
    s.command l type right read act = (s.arrive l).answered l type code [] := by
  simp [State.command, h, hh, State.refuse_eq]

/-- A command whose right its link lacks is refused (R151). -/
theorem State.command_notPermitted (h : (s.link l).receive.inBreak = false)
    (hh : (s.arrive l).heldUp l type = none) (hr : (s.arrive l).holds l right = false) :
    s.command l type right read act = (s.arrive l).answered l type .notPermitted [] := by
  simp [State.command, h, hh, hr, State.refuse_eq]

/-- A command whose body has a wrong length is refused (R150). -/
theorem State.command_badLength (h : (s.link l).receive.inBreak = false)
    (hh : (s.arrive l).heldUp l type = none) (hr : (s.arrive l).holds l right = true) :
    s.command l type right (none : Option α) act = (s.arrive l).answered l type .badLength [] := by
  simp [State.command, h, hh, hr, State.refuse_eq]

/-- A command that is taken acts on the state its frame leaves (R150). -/
theorem State.command_taken (h : (s.link l).receive.inBreak = false)
    (hh : (s.arrive l).heldUp l type = none) (hr : (s.arrive l).holds l right = true) (x : α) :
    s.command l type right (some x) act = act (s.arrive l) x := by
  simp [State.command, h, hh, hr]

end

/-- A command that `admits` lets through acts on the state `heard` names. -/
theorem State.command_admitted {α : Type} (s : State) (l : Link) (type : Byte) (right : Right) (x : α)
    (act : State → α → State) (h : s.admits l type right) :
    { s with orders := [] }.command l type right (some x) act = act (s.heard l) x := by
  obtain ⟨hb, hh, hr⟩ := h
  exact State.command_taken _ l type right act (by cases l <;> exact hb) hh hr x

end Sys2Proof.Machine
end

