-- ==== Sys2Proof/Tests/Slice0.lean ====
section
/-! SUPPORT. The model's own tests: ill-formed commands refused, the manual's worked figures, small steps, and
for each statement with hypotheses a state and operands that meet them, clause by clause. -/

namespace Sys2Proof.Tests

open Sys2Proof Sys2Proof.Machine

-- One theorem at a time: each waits for the kernel, and a thread for every one of them fills the memory.
set_option Elab.async false

/-! ### States to test on -/

/-- A group between two passes that holds a feed reference. -/
def waitingGroup : GroupRecord :=
  { defaultGroup with pass := .idleWait, passTimer := some { length := 100, due := 1100 }, vf := some 2870 }

/-- A loaded part with every line fitted and IDLE. -/
def ready : State :=
  { State.reset with
    load := none, orders := [], clock := 1000, tick := 100, groups := .replicate 8 waitingGroup
    lines := .replicate 64 { condition := .idle, tone := .none }, entries := .replicate 64 defaultEntry }

/-- A WAITING call record. -/
def call (id : CallId) (n : LineId) : CallRecord :=
  { CallRecord.create id n 0 none with
    state := .waiting, location := some (directoryLocation defaultEntry), capture := some .notReceived }

/-- A record offered to a centre. -/
def offeredTo (c : Centre) (r : CallRecord) : CallRecord :=
  { r with state := .offered, offered := r.offered.add c, firstOffer := some 0 }

/-- A record CONNECTED to a centre on a channel. -/
def connectedTo (c : Centre) (ch : ChannelId) (r : CallRecord) : CallRecord :=
  { r with state := .connected, offered := .empty, claimant := some c, channel := some ch
           connect := some 0, claimedOnce := true }

/-- A record HELD by a centre. -/
def heldBy (c : Centre) (r : CallRecord) : CallRecord :=
  { r with state := .held, offered := .empty, claimant := some c, channel := none, connect := some 0
           claimedOnce := true }

/-- A state with one more call record, its line IN_CALL with its tone, and its channel routed. -/
def withCall (s : State) (r : CallRecord) : State :=
  let s := { s with records := s.records ++ [r] }
  let s := s.setLine r.line { condition := .inCall, tone := toneFor .inCall (some r) }
  match r.channel, r.claimant with
  | some ch, some c => s.setChannel ch (.connected r.line c r.id)
  | _, _ => s

/-- A state with a line in a condition, with the tone of that condition. -/
def withLine (s : State) (n : LineId) (k : Condition) : State :=
  s.setLine n { condition := k, tone := toneFor k none }

/-- A state with a centre link of a health. -/
def withHealth (s : State) (c : Centre) (score recovery : Nat) : State :=
  s.setCentre c { s.centre c with
    score := score, health := healthOf score, recovery := recovery
    silence := if healthOf score = .lost then none else (s.centre c).silence }

/-- A state with a centre link of a duty. -/
def withDuty (s : State) (c : Centre) (d : Duty) : State := s.setCentre c { s.centre c with duty := d }

/-- A state in which link S has the maintenance key on. -/
def keyOn : State := { ready with key := { level := true, taken := true, debounce := none } }

/-- A state taken as the next state of a step, or the state itself. -/
def after (s : State) (c : Instr) : State :=
  match exec c s with
  | .next t => t
  | .fault _ => s
  | .refused _ => s

/-- The code of the last reply on a link, in its queue or in transmission. -/
def replyOf (s : State) (l : Link) : Option ReplyCode :=
  match (s.link l).transmit.message? with
  | some (.reply _ code _) => some code
  | _ => none

/-! ### Ill-formed commands are refused -/

theorem test_wellFormed_coldStart : (Instr.coldStart true false false).wellFormed = true := by decide
theorem test_wellFormed_body : (Instr.claim .a (List.replicate 63 0)).wellFormed = true ∧
    (Instr.claim .a (List.replicate 64 0)).wellFormed = false := by decide +kernel
theorem test_wellFormed_burst : (Instr.identityBurst 0 (List.replicate 5 0) true).wellFormed = true ∧
    (Instr.identityBurst 0 (List.replicate 6 0) true).wellFormed = false := by decide +kernel
theorem test_wellFormed_callId : (Instr.overdueTimerExpiry 1).wellFormed = true ∧
    (Instr.overdueTimerExpiry 0).wellFormed = false ∧ (Instr.escalationTimerExpiry 0).wellFormed = false ∧
    (Instr.transferTimerExpiry 0).wellFormed = false ∧ (Instr.longCallTimerExpiry 0).wellFormed = false := by
  decide +kernel
theorem test_wellFormed_frameBad : (Instr.frameBad .a [0]).wellFormed = true ∧
    (Instr.frameBad .a ((frameOf 0x01 []).drop 1)).wellFormed = false ∧
    (Instr.frameBad .a [1]).wellFormed = false := by decide +kernel
theorem test_wellFormed_unknown : (Instr.unknownCommand .a 0x1D []).wellFormed = true ∧
    (Instr.unknownCommand .a 0x1C []).wellFormed = false ∧
    (Instr.unknownCommand .a 0x1D (List.replicate 64 0)).wellFormed = false := by decide +kernel
theorem test_wellFormed_service : (Instr.setServiceIn .a [1, 0]).wellFormed = true ∧
    (Instr.setServiceIn .a [1, 1]).wellFormed = false ∧ (Instr.setServiceOut .a [1, 0]).wellFormed = false ∧
    (Instr.setServiceOut .a [1, 1]).wellFormed = true := by decide +kernel

/-! ### No word spells a command -/

/-- The table gives no row bits, so no word spells a command and withFetchWord changes nothing. -/
theorem test_decode_none : decodeTableWord 0 0 = none ∧ decodeTableWord 16 0x1234 = none := by decide

theorem test_withFetchWord : State.reset.withFetchWord 16 1 = State.reset := by decide +kernel

/-! ### The manual's worked figures -/

/-- The check values of section 4.1 (R53) and section 10.1 (R149). -/
theorem test_crc8_check : crc8 [0x31, 0x32, 0x33, 0x34, 0x35, 0x36, 0x37, 0x38, 0x39] = 0xF4 := by
  decide +kernel
theorem test_crc16_check : crc16 [0x31, 0x32, 0x33, 0x34, 0x35, 0x36, 0x37, 0x38, 0x39] = 0x29B1 := by
  decide +kernel

/-- The worked CRC of section 4.1: the sent burst is valid and the spoilt one bad. -/
theorem test_worked_burst : readBurst [0x07, 0x01, 0x38, 0x00, 0x58] true =
      some { sect := 7, marker := 312, code := 0, doorOpen := false, lowBattery := false } ∧
    readBurst [0x07, 0x01, 0x38, 0x01, 0x58] true = none ∧
    readBurst [0x07, 0x01, 0x38, 0x00, 0x58] false = none := by decide +kernel

/-- The resistances of section 2.9. -/
theorem test_worked_resistance :
    [(410, 1640), (2300, 230), (1, 3), (2, 3), (40, 800), (80, 800), (2400, 60), (2400, 59), (100, 1),
      (5, 0)].map (fun x : Code × Code => resistance x.1 x.2) =
    [250, 10000, 333, 667, 50, 100, 40000, 40678, 65535, 65535] := by decide +kernel

/-- The classes of section 2.9 at R_track 10000, confirmed IDLE. -/
theorem test_worked_classes_idle :
    [50, 100, 250, 2000, 7300, 10000, 12200, 40000, 40678, 65535].map
      (rawClass defaultProfile { Classifier.reset 10000 with confirmed := .idle }) =
    [.short, .offhook, .offhook, .marginal, .idle, .idle, .idle, .marginal, .opn, .opn] := by decide +kernel

/-- The classes of section 2.9 at R_track 10000, confirmed OFFHOOK. -/
theorem test_worked_classes_offhook :
    [50, 100, 250, 2000, 7300, 10000, 12200, 40000, 40678, 65535].map
      (rawClass defaultProfile { Classifier.reset 10000 with confirmed := .offhook }) =
    [.short, .offhook, .offhook, .offhook, .marginal, .idle, .marginal, .marginal, .opn, .opn] := by
  decide +kernel

/-- The foreign-voltage figures of section 2.9: 2921 stands above 2870 + 50, and 2920 does not. -/
theorem test_worked_foreign : isForeign 2921 (some 2870) = true ∧ isForeign 2920 (some 2870) = false := by
  decide +kernel

/-- The wet-line drift of section 2.9. -/
theorem test_worked_drift : tracked defaultProfile 10000 7600 = 9700 ∧ tracked defaultProfile 9700 7600 = 9438 ∧
    tracked defaultProfile 9438 7600 = 9209 ∧ tracked defaultProfile 9209 7600 = 9008 := by decide +kernel

/-- The acceptance table of section 4.4. -/
def workedTable : Vector Acceptance 4 :=
  #v[⟨0x070000, 0xFF0000, true⟩, ⟨0x070138, 0xFFFFFF, true⟩, ⟨0, 0, false⟩, ⟨0x080100, 0xFFFF00, true⟩]

theorem test_worked_acceptance : acceptanceHit workedTable 0x070138 = some 0 ∧
    acceptanceHit workedTable 0x0701F4 = some 0 ∧ acceptanceHit workedTable 0x080123 = some 3 ∧
    acceptanceHit workedTable 0x080200 = none := by decide +kernel

/-- Line 34 of the worked resolutions of section 4.6: REPORTED with a mismatch. -/
theorem test_worked_resolution :
    (let e := { defaultEntry with naming := .reported, expected := some 0x070142, sect := 7, marker := 322
                                  label := [0x45], defaulted := false }
     let r := (call 7 34).resolved workedTable e (.received ⟨7, 318, 1, true, false⟩)
     (r.category, r.check, r.identity, r.location) =
      (.breakdown, .mismatch, some 0x07013E,
        some ⟨7, 318, none, .reported, [], false⟩)) := by decide +kernel

/-- The worked incident of section 12.4: a label of 9 characters gives a CALL_OFFER of LEN 27. -/
theorem test_worked_offer_length :
    (frameOf 0x90 ((offerOf { call 5 33 with location := some (
      ⟨7, 312, some .cw1, .directory, List.replicate 9 0x45, false⟩) }).body 0)).getD 1 0 = 27 := by
  decide +kernel

/-- The worked health of section 10.3: one bad frame takes a score of 90 to POOR. -/
theorem test_worked_health :
    (let t := after (withHealth ready .a 90 0) (.frameBad .a [0]); (t.centreA.score, t.centreA.health)) =
      (98, .poor) := by decide +kernel

/-- The worked recovery of section 10.3: the 64th valid frame in a row recovers a LOST link. -/
theorem test_worked_recovery :
    (let t := after (withHealth ready .a 256 63) (.keepalive .a [])
     (t.centreA.score, t.centreA.health, t.linkA.resync)) = (0, .good, true) := by decide +kernel

/-! ### Witnesses: the step and the taking of a command -/

theorem witness_StepTakesFrontCommand :
    ({ ready with pending := [.storeReadTimeout] } : State).pending = .storeReadTimeout :: [] := rfl

theorem witness_IdleStepPassesTime : ready.pending = [] ∧ ({ ready with subTick := 8 } : State).subTick < 9 ∧
    9 ≤ ({ ready with subTick := 9 } : State).subTick := by decide +kernel

theorem witness_CommandChecksBeforeTaking_break :
    linkCommand (.claim .a [1]) = some ⟨.a, Command.claim, .calls, [1]⟩ ∧
    ((ready.setReceive .a (.brk false)).link .a).receive.inBreak = true := by decide +kernel

theorem witness_CommandChecksBeforeTaking_held :
    (ready.link .a).receive.inBreak = false ∧ Command.claim ≠ Command.keepalive ∧
    (State.heard { ready with window := some .b } .a).window.isSome = true ∧
    ((State.reset.heard .a).window = none ∧ (State.reset.heard .a).load.isSome = true) ∧
    (let a := (withHealth ready .a 256 62).heard .a
     a.window = none ∧ a.load = none ∧ a.isLost .a = true) := by decide +kernel

theorem witness_CommandChecksBeforeTaking_rights :
    linkCommand (.claim .s [1]) = some ⟨.s, Command.claim, .calls, [1]⟩ ∧
    linkCommand (.testLine .s [1, 0]) = some ⟨.s, Command.testLine, .maintain, [1, 0]⟩ ∧
    (ready.heard .s).window = none ∧ (ready.heard .s).load = none ∧ (ready.heard .s).key.taken = false := by
  decide +kernel

theorem witness_WrongLengthRefused_fixed :
    linkCommand (.claim .a [1, 2]) = some ⟨.a, Command.claim, .calls, [1, 2]⟩ ∧
    ready.admits .a Command.claim .calls ∧ ∃ n ∈ fixedLength Command.claim, [1, 2].length ≠ n := by
  unfold State.admits; decide +kernel

theorem witness_WrongLengthRefused_counted :
    ready.admits .a Command.setWatch .none ∧ ready.admits .a Command.writeDirectory .configure ∧
    ([0, 1] : List Byte).length ≠ 2 + 5 * (([0, 1] : List Byte).getD 1 0).toNat ∧
    (List.replicate 12 (0 : Byte)).length < 13 := by
  unfold State.admits; decide +kernel

/-! ### Witnesses: frames and link health -/

theorem witness_ValidFrame : Command.named 0x1D = false ∧ (ready.link .a).receive.inBreak = false ∧
    ready.reportPending .a = false ∧ ready.window = none ∧ ready.load = none ∧
    (ready.heard .a).isLost .a = false ∧ ((withHealth ready .a 96 0).centre .a).health ≠ .lost ∧
    healthOf ((ready.centre .a).score - 1) = (ready.centre .a).health := by decide +kernel

theorem witness_ValidFrame_lost :
    (let k := (withHealth ready .a 256 62).centre .a; k.health = .lost ∧ k.recovery + 1 < 64) ∧
    (let k := (withHealth ready .a 256 63).centre .a; k.health = .lost ∧ 64 ≤ k.recovery + 1) := by
  decide +kernel

/-- A part whose link A is one valid frame short of POOR, with B not usable and call 1 waiting. -/
def strengthening (duty : Duty) : State :=
  withDuty (withHealth (withHealth (withCall ready (call 1 5)) .a 128 0) .b 200 0) .a duty

/-- A part whose LOST link A is one valid frame short of its recovery. -/
def recovering : State := withHealth (withCall ready (call 1 5)) .a 256 63

theorem strengthening_sound (duty : Duty) (h : duty ≠ .handingOver) : InvIds (strengthening duty) ∧
    InvCalls (strengthening duty) ∧ InvLines (strengthening duty) ∧ InvDuty (strengthening duty) := by
  cases duty <;> first | exact absurd rfl h | skip
  all_goals
    refine ⟨?_, ?_, ?_, ?_⟩
    · unfold InvIds; decide +kernel
    · unfold InvCalls CallRecord.Sound; decide +kernel
    · unfold InvLines State.unread; decide +kernel
    · unfold InvDuty; decide +kernel

theorem recovering_sound : InvIds recovering ∧ InvCalls recovering ∧ InvLines recovering ∧ InvDuty recovering := by
  refine ⟨?_, ?_, ?_, ?_⟩
  · unfold InvIds; decide +kernel
  · unfold InvCalls CallRecord.Sound; decide +kernel
  · unfold InvLines State.unread; decide +kernel
  · unfold InvDuty; decide +kernel

theorem witness_ValidFrame_returns :
    (∀ duty ∈ [Duty.active, .standby],
      let s := strengthening duty
      (s.centre .a).health = healthOf (s.centre .a).score ∧ (s.centre .a).health ≠ .lost ∧
      (s.centre .a).duty = duty ∧ (healthOf ((s.centre .a).score - 1)).heard = true ∧
      (s.centre .a).health.heard = false ∧ s.usable .b = false ∧ ∃ r ∈ s.records, r.dueTo .a = true) ∧
    (let s := recovering
     (s.centre .a).health = .lost ∧ 64 ≤ (s.centre .a).recovery + 1 ∧ (s.centre .a).score = 256) := by
  decide +kernel

/-- A loaded part whose load report names an item that no link has been told of. -/
def unreported : State :=
  { ready with
    report := some { LoadReport.empty with lines := 1 }
    reportPendingA := true, reportPendingB := true, reportPendingS := true }

theorem witness_FirstFrameDeliversLoadReport : unreported.load = none ∧
    unreported.report = some { LoadReport.empty with lines := 1 } ∧
    (∀ l ∈ [Link.a, .b, .s], (unreported.link l).receive.inBreak = false ∧ unreported.reportPending l = true) ∧
    ready.reportPending .b = false ∧ Command.named 0 = false ∧
    linkCommand (.claim .b [1]) = some ⟨.b, Command.claim, .calls, [1]⟩ ∧
    (unreported.heard .a).isLost .a = false ∧
    ((withHealth unreported .a 256 5).heard .a).isLost .a = true := by decide +kernel

/-- A part that is receiving a frame on link A. -/
def receiving : State := ready.setReceive .a (.frame { length := 100, due := 1100 })

theorem witness_BadFrameWorsensHealth : judgeFrame [65] = .bad ∧ (ready.link .a).receive.inBreak = false ∧
    (receiving.link .a).receive.inFrame = true ∧ ((withHealth ready .a 256 5).centre .a).health = .lost ∧
    (let k := (withHealth ready .a 247 0).centre .a; k.health ≠ .lost ∧ k.score + 8 < 256) ∧
    healthOf ((ready.centre .a).score + 8) = (ready.centre .a).health := by decide +kernel

/-- A part whose link A is one bad frame short of FAILING, with call 1 offered to it and call 2 waiting. -/
def weakening (duty : Duty) : State :=
  withDuty (withHealth (withCall (withCall ready (offeredTo .a (call 1 5))) (call 2 6)) .a 120 0) .b duty

theorem weakening_sound (duty : Duty) : InvIds (weakening duty) ∧ InvCalls (weakening duty) ∧
    InvLines (weakening duty) := by
  cases duty <;> refine ⟨?_, ?_, ?_⟩ <;>
    first
    | (unfold InvIds; decide +kernel)
    | (unfold InvCalls CallRecord.Sound; decide +kernel)
    | (unfold InvLines State.unread; decide +kernel)

theorem witness_BadFrameWorsensHealth_failing :
    (let s := weakening .active
     (s.centre .a).health.heard = true ∧ healthOf ((s.centre .a).score + 8) = .failing ∧
     s.usable Centre.a.partner = true ∧ ∃ r ∈ s.records, r.offered.has .a = true) ∧
    (let s := weakening .standby
     s.usable Centre.a.partner = false ∧ (s.centre .b).duty = .standby ∧
     (s.centre .b).health.heard = true) ∧
    (let s := weakening .handingOver
     s.usable Centre.a.partner = false ∧ (s.centre .b).duty ≠ .standby) ∧
    (let s := withHealth ready .a 90 0
     healthOf ((s.centre .a).score + 8) ≠ (s.centre .a).health ∧
     (healthOf ((s.centre .a).score + 8)).heard = true ∧ s.usable .b = true) := by decide +kernel

/-- A part in which A holds call 1 on channel 0 and B is offered call 2. -/
def busy : State :=
  withCall (withCall ready (connectedTo .a 0 (call 1 5))) (offeredTo .b (call 2 6))

theorem busy_ids : InvIds busy := by unfold InvIds; decide +kernel
theorem busy_calls : InvCalls busy := by unfold InvCalls CallRecord.Sound; decide +kernel
theorem channelSound_of_free {s : State} {ch : ChannelId} (h : s.channel ch = .free) : s.ChannelSound ch := by
  unfold State.ChannelSound
  rw [h]
  trivial
theorem busy_channel_zero : busy.ChannelSound 0 := by
  have h : busy.channel 0 = .connected 5 .a 1 := by decide +kernel
  unfold State.ChannelSound
  rw [h]
  decide +kernel
theorem busy_channel_free : ∀ ch : ChannelId, ch ≠ 0 → busy.channel ch = .free := by decide +kernel
theorem busy_channels : InvChannels busy := by
  refine ⟨fun ch => ?_, by decide +kernel⟩
  by_cases h : ch = 0
  · exact h ▸ busy_channel_zero
  · exact channelSound_of_free (busy_channel_free ch h)
theorem busy_lines : InvLines busy := by unfold InvLines State.unread; decide +kernel

theorem witness_LostLinkHoldsNoCall : (busy.centre .a).silence.isSome = true ∧
    (busy.centre .a).health ≠ .lost ∧ busy.window ≠ some Centre.a.link ∧ InvIds busy ∧ InvCalls busy ∧
    InvChannels busy ∧ ∃ r ∈ busy.records, r.claimant = some .a :=
  ⟨by decide +kernel, by decide +kernel, by decide +kernel, busy_ids, busy_calls, busy_channels,
    by decide +kernel⟩

theorem witness_LostLinkHoldsNoCall_causes :
    ((busy.setReceive .a (.brk false)).link .a).receive = .brk false ∧
    (let s := withHealth (busy.setReceive .a (.frame { length := 100, due := 1100 })) .a 248 0
     (s.link .a).receive.inFrame = true ∧ 256 ≤ (s.centre .a).score + 8) ∧
    (let s := withHealth busy .a 248 0
     judgeFrame [0] = .bad ∧ (s.link .a).receive.inBreak = false ∧ (s.centre .a).health ≠ .lost ∧
     256 ≤ (s.centre .a).score + 8) := by decide +kernel

theorem witness_LostLinkHoldsNoCall_duties :
    ((withDuty busy .a .handingOver).centre .a).duty = .handingOver ∧
    (∀ duty ∈ [Duty.handingOver, .standby],
      let s := withDuty ready .b duty
      (s.centre .b).duty = duty ∧ (s.centre .b).health.heard = true ∧ s.linkB.transmit = .idle ∧
      s.linkB.queue = [] ∧ s.records = []) := by decide +kernel

/-- A part whose link A holds call 1, is alone offered call 2, is offered call 3 with B, call 4 as a transfer of B
and has transferred call 5 to B, with call 6 waiting, and whose link B has a health and a duty. -/
def losing (score : Nat) (duty : Duty) : State :=
  let calls := [heldBy .a (call 1 5), offeredTo .a (call 2 6), offeredTo .b (offeredTo .a (call 3 7)),
    offeredTo .a { call 4 8 with origin := some .b }, offeredTo .b { call 5 9 with origin := some .a }, call 6 10]
  withDuty (withHealth (calls.foldl withCall ready) .b score 0) .b duty

theorem losing_sound : ∀ score ∈ [0, 200], ∀ duty, InvIds (losing score duty) ∧ InvCalls (losing score duty) := by
  intro score h duty
  simp only [List.mem_cons, List.not_mem_nil, or_false] at h
  rcases h with rfl | rfl <;> cases duty <;> refine ⟨?_, ?_⟩ <;>
    first
    | (unfold InvIds; decide +kernel)
    | (unfold InvCalls CallRecord.Sound; decide +kernel)
theorem losing_channels : ∀ score ∈ [0, 200], ∀ duty ∈ [Duty.active, .standby, .handingOver],
    InvChannels (losing score duty) := by
  have free : ∀ score ∈ [0, 200], ∀ duty ∈ [Duty.active, .standby, .handingOver],
      ∀ ch, (losing score duty).channel ch = .free := by decide +kernel
  have rest : ∀ score ∈ [0, 200], ∀ duty ∈ [Duty.active, .standby, .handingOver],
      let s := losing score duty
      (∀ r ∈ s.records, ∀ ch ∈ r.channel, ∃ c ∈ r.claimant, s.channel ch = .connected r.line c r.id) ∧
      (∀ n, ∀ x ∈ (s.line n).condition.ring?, s.channel x.2 = .reserved n x.1) ∧
      (∀ c ∈ [Centre.a, .b], (s.centre c).health = .lost → s.channelsRouted c = 0) := by decide +kernel
  exact fun score h duty k => ⟨fun ch => channelSound_of_free (free score h duty k ch), rest score h duty k⟩

/-- The calls that the loss of A passes on: to a partner that is heard, to the origin of a transfer, or to no
link. -/
theorem witness_LostLinkHoldsNoCall_offers :
    (∀ score ∈ [0, 200], ∀ duty ∈ [Duty.active, .standby, .handingOver],
      let s := losing score duty
      (s.centre .a).silence.isSome = true ∧ (s.centre .a).health ≠ .lost ∧ s.window ≠ some Centre.a.link ∧
      (s.centre .b).health.heard = decide (score = 0) ∧ (s.centre .b).duty = duty ∧
      (s.records.filter fun r => r.dueTo .b).map (·.id) = [6] ∧
      ((s.records.filter fun r => s.passedOn r .a).map (·.id)) =
        (if score = 0 then [2, 4, 5] else if duty = .standby then [5] else [4, 5])) := by decide +kernel

theorem witness_ReceiverFollowsSyncAndBreaks : (ready.link .a).receive = .hunt ∧
    (receiving.link .a).receive ≠ .hunt ∧ (receiving.link .a).receive.inBreak = false := by decide +kernel

/-- Link A in a break of less than 2000 ms while a message is in transmission. -/
def breaking (m : Message) : State :=
  busy.setLink .a { busy.linkA with receive := .brk false, transmit := .sending m (frameOf m.type (m.body 100)) }

theorem witness_BreakEndClearsLink :
    ((ready.setReceive .a (.brk true)).link .a).receive = .brk true ∧
    (let s := ready.setReceive .a (.brk false)
     (s.link .a).receive = .brk false ∧ s.window = none ∧ (s.link .a).transmit = .idle) ∧
    (let s := { breaking (.notice .dutyResumed) with window := some .a }
     (s.link .a).receive = .brk false ∧
     (s.link .a).transmit.message? ≠ some (.reply Command.restart .ok [])) ∧
    (∃ m ∈ ((breaking (.reply Command.keepalive .ok [])).link .a).transmit.message?, m.isReply = true) ∧
    (∃ m ∈ ((breaking (.notice .dutyResumed)).link .a).transmit.message?,
      m.isReply = false ∧ m.offerId = none) := by decide +kernel

/-- Link B in a short break while the offer of call 2 is in transmission. -/
def breakingOffer (queue : List QueueEntry) : State :=
  let m : Message := .notice (.callOffer (offerOf (call 2 6)))
  busy.setLink .b { busy.linkB with
    receive := .brk false, queue := queue, transmit := .sending m (frameOf m.type (m.body 100)) }

theorem witness_BreakEndClearsLink_offer :
    (let s := breakingOffer []
     (∃ m ∈ (s.link .b).transmit.message?, m.isReply = false ∧ 2 ∈ m.offerId) ∧
     (s.link .b).queue.any (fun e => e.followUp && e.msg.followUpId = some 2) = false ∧
     s.offeredOn .b 2 = true ∧ 2 ∉ (s.link .b).lostOffers) ∧
    ((breakingOffer [⟨.notice (.callTaken 2 6 .a), 0, true⟩]).link .b).queue.any
      (fun e => e.followUp && e.msg.followUpId = some 2) = true := by decide +kernel

/-- Link A sending one message with a queue behind it. -/
def sending (queue : List QueueEntry) : State :=
  ready.setLink .a { ready.linkA with
    transmit := .sending (.reply Command.keepalive .ok []) [], queue := queue, submissions := 1 }

theorem witness_TransmissionCompleteTakesNext :
    (sending []).linkA.transmit = .sending (.reply Command.keepalive .ok []) [] ∧
    (sending []).window ≠ some .a ∧ (sending []).linkA.queue = [] ∧
    (∃ e ∈ (sending [⟨.notice .dutyResumed, 0, false⟩]).linkA.queue.head?, e.msg.isReply = false) := by
  decide +kernel

/-! ### Witnesses: queries -/

theorem witness_KeepaliveReportsState : ready.admits .a Command.keepalive .none ∧
    State.reset.admits .b Command.keepalive .none ∧ ready.admits .s Command.keepalive .none := by
  unfold State.admits; decide +kernel

theorem witness_ListsAnswerPages : busy.admits .a Command.listCalls .none ∧
    busy.admits .s Command.listAbandoned .none := by
  unfold State.admits; decide +kernel

theorem witness_ReadsAnswerItems : ready.admits .a Command.lineStatus .none ∧
    ready.admits .s Command.readDirectory .none ∧ ready.admits .b Command.readProfile .none ∧
    ready.admits .a Command.readGroup .none ∧ lineOfNat (63 : Byte).toNat = some 63 ∧
    64 ≤ (64 : Byte).toNat ∧ profileOfNat (3 : Byte).toNat = some 3 ∧ 4 ≤ (4 : Byte).toNat ∧
    groupOfNat (7 : Byte).toNat = some 7 ∧ 8 ≤ (8 : Byte).toNat ∧
    ((ready.heard .s).line 63).condition ≠ .notFitted ∧
    (((withLine ready 63 .notFitted).heard .s).line 63).condition = .notFitted := by
  unfold State.admits; decide +kernel

theorem witness_SetWatchSetsFilter : ready.admits .a Command.setWatch .none ∧
    readWatch [1, 1, 7, 0, 5, 0, 5] = some (1, [⟨7, 5, 5⟩]) ∧ watchOfNat 1 = some .ranges ∧
    readWatch [3, 0] = some (3, []) ∧ 2 < 3 ∧ readWatch [1, 1, 7, 0, 6, 0, 5] = some (1, [⟨7, 6, 5⟩]) ∧
    (∃ r ∈ [(⟨7, 6, 5⟩ : WatchRange)], r.high.toNat < r.low.toNat) ∧
    (readWatch ([0, 5] ++ List.replicate 25 0)).map (fun x => x.2.length) = some 5 := by
  unfold State.admits; decide +kernel

/-- The modes of a watch filter over one range, 5 to 9 of section 7, for the markers about its ends and for another
section (R164). -/
theorem test_watch_passes :
    [WatchMode.all, .ranges, .rangesInverted].map (fun mode =>
      [(7, 4), (7, 5), (7, 9), (7, 10), (8, 7)].map fun (x : Byte × Marker) =>
        (WatchFilter.mk mode [⟨7, 5, 9⟩]).passes { defaultEntry with sect := x.1, marker := x.2 }) =
      [[true, true, true, true, true], [false, true, true, false, false], [true, false, false, true, true]] := by
  decide +kernel

/-- With no ranges RANGES passes no line and RANGES_INVERTED every one (R164). -/
theorem test_watch_no_ranges : (WatchFilter.mk .ranges []).passes defaultEntry = false ∧
    (WatchFilter.mk .rangesInverted []).passes defaultEntry = true := by decide +kernel

/-! ### Witnesses: calls -/

/-- A part in which call 1 is offered to A and to B. -/
def offering : State := withCall ready (offeredTo .b (offeredTo .a (call 1 5)))

theorem witness_ClaimConnectsCall : offering.admits .a Command.claim .calls ∧ (1 : Byte) ≠ 0 ∧
    (let a := offering.heard .a
     let r := offeredTo .b (offeredTo .a (call 1 5))
     a.recordById (1 : Byte).toFin = some r ∧ a.recordOfLine r.line = some r ∧
     (a.line r.line).condition = .inCall ∧ r.claimant = none ∧ r.offered.has .a = true ∧
     (a.centre .a).duty ≠ .handingOver ∧ a.channelsInUse < cabinetLimit a.power ∧
     a.channelsRouted .a < a.bearer.limit .a ∧ a.channel 0 = .free ∧
     ∀ k : ChannelId, k.val < (0 : ChannelId).val → a.channel k ≠ .free) := by
  unfold State.admits; decide +kernel

/-- A part whose bearer lets A use one channel alone, and that one is used; call 2 is offered to A. -/
def crowded : State :=
  { withCall (withCall ready (connectedTo .a 0 (call 1 5))) (offeredTo .a (call 2 6)) with
    bearer := { limitA := 1, limitB := 4 }
    abandoned := [⟨9, 7, .emergency, 0, 50, .empty, false⟩], overflowed := true }

theorem witness_ClaimRefusals : crowded.admits .a Command.claim .calls ∧ crowded.admits .b Command.claim .calls ∧
    (let a := crowded.heard .a
     a.recordById (3 : Byte).toFin = none ∧ a.recordById (9 : Byte).toFin = none ∧
     (a.abandoned.any fun e => e.id = (9 : Byte).toFin) = true ∧ (a.centre .a).duty ≠ .handingOver ∧
     (∃ r ∈ a.recordById (1 : Byte).toFin, r.claimant = some .a) ∧
     (∃ r ∈ a.recordById (2 : Byte).toFin, r.claimant = none ∧ r.offered.has .a = true) ∧
     a.bearer.limit .a ≤ a.channelsRouted .a) ∧
    (let b := crowded.heard .b
     (∃ r ∈ b.recordById (1 : Byte).toFin, r.claimant = some Centre.b.partner) ∧
     (∃ r ∈ b.recordById (2 : Byte).toFin, r.claimant = none ∧ r.offered.has .b = false)) ∧
    ((withDuty crowded .a .handingOver).heard .a |>.centre .a).duty = .handingOver := by
  unfold State.admits; decide +kernel

theorem witness_AnswerNextClaimsFirst : offering.admits .a Command.answerNext .calls ∧
    crowded.admits .a Command.answerNext .calls ∧
    (let a := offering.heard .a
     (a.centre .a).duty ≠ .handingOver ∧
     (∃ k : Fin a.registerOrder.length, a.registerOrder[k].offered.has .a = true ∧
       a.recordOfLine a.registerOrder[k].line = some a.registerOrder[k] ∧
       (a.line a.registerOrder[k].line).condition = .inCall ∧
       ∀ j : Fin a.registerOrder.length, j.val < k.val → a.registerOrder[j].offered.has .a = false) ∧
     a.channelsInUse < cabinetLimit a.power ∧ a.channelsRouted .a < a.bearer.limit .a ∧
     a.channel 0 = .free) ∧
    (let a := crowded.heard .a
     (∃ k : Fin a.registerOrder.length, k.val = 1 ∧ a.registerOrder[k].offered.has .a = true ∧
       ∀ j : Fin a.registerOrder.length, j.val < k.val → a.registerOrder[j].offered.has .a = false) ∧
     a.bearer.limit .a ≤ a.channelsRouted .a) ∧
    (∀ r ∈ (ready.heard .a).records, r.offered.has .a = false) := by
  unfold State.admits; decide +kernel

/-- A part in which A holds call 1. -/
def holding : State := withCall ready { heldBy .a (call 1 5) with longWaits := true }

theorem witness_HoldAndRetrieve_hold : busy.admits .a Command.hold .calls ∧ (1 : Byte) ≠ 0 ∧
    (let a := busy.heard .a
     let r := connectedTo .a 0 (call 1 5)
     a.recordById (1 : Byte).toFin = some r ∧ a.recordOfLine r.line = some r ∧
     (a.line r.line).condition = .inCall ∧ r.claimant = some .a ∧ r.state = .connected ∧
     r.channel = some 0 ∧ a.channel 0 = .connected r.line .a r.id) := by
  unfold State.admits; decide +kernel

theorem witness_HoldAndRetrieve_retrieve : holding.admits .a Command.retrieve .calls ∧
    (let a := holding.heard .a
     ∃ r ∈ a.recordById (1 : Byte).toFin, a.recordOfLine r.line = some r ∧
       (a.line r.line).condition = .inCall ∧ r.claimant = some .a ∧ r.state = .held ∧
       a.channelsInUse < cabinetLimit a.power ∧ a.channelsRouted .a < a.bearer.limit .a ∧
       a.channel 0 = .free ∧ (r.longWaits && !r.longCall) = true) := by
  unfold State.admits; decide +kernel

/-- What every clause of a refusal on a claimed call asks of a state: the code that call ids get in it. -/
theorem witness_claimedRefusal : crowded.admits .b Command.hold .calls ∧
    crowded.admits .b Command.retrieve .calls ∧ crowded.admits .b Command.release .calls ∧
    crowded.admits .b Command.transfer .calls ∧
    [0, 1, 2, 3, 9].map ((crowded.heard .b).claimedRefusal .b) =
      [some .noSuchCall, some .notClaimant, some .notClaimant, some .noSuchCall, some .abandoned] := by
  unfold State.admits; decide +kernel

/-- A part whose call 1 has a claimant and waits, as no run leaves a call. -/
def misclaimed : State := withCall ready { call 1 5 with claimant := some .a }

theorem witness_wrongState : misclaimed.admits .a Command.hold .calls ∧
    misclaimed.admits .a Command.retrieve .calls ∧ misclaimed.admits .a Command.release .calls ∧
    misclaimed.admits .a Command.transfer .calls ∧ (1 : Byte) ≠ 0 ∧
    (∃ r ∈ (misclaimed.heard .a).recordById (1 : Byte).toFin, r.claimant = some .a ∧
      ¬(r.state = .connected ∨ r.state = .held)) ∧
    (∃ r ∈ (holding.heard .a).recordById (1 : Byte).toFin, r.claimant = some .a ∧ r.state ≠ .connected) ∧
    (∃ r ∈ (busy.heard .a).recordById (1 : Byte).toFin, r.claimant = some .a ∧ r.state ≠ .held) := by
  unfold State.admits; decide +kernel

theorem witness_HoldAndRetrieve_noChannel :
    (let s := withCall crowded (heldBy .a (call 3 7))
     s.admits .a Command.retrieve .calls ∧
     (∃ r ∈ (s.heard .a).recordById (3 : Byte).toFin, r.claimant = some .a ∧ r.state = .held) ∧
     (s.heard .a).bearer.limit .a ≤ (s.heard .a).channelsRouted .a) := by
  unfold State.admits; decide +kernel

theorem witness_ReleaseParksLine : busy.admits .a Command.release .calls ∧ (1 : Byte) ≠ 0 ∧
    (let a := busy.heard .a
     let r := connectedTo .a 0 (call 1 5)
     a.recordById (1 : Byte).toFin = some r ∧ r.claimant = some .a ∧
     (r.state = .connected ∨ r.state = .held) ∧ r.offered = .empty ∧ r.origin = none ∧
     (a.centre .a).duty ≠ .handingOver ∧ (∀ ch ∈ r.channel, a.channel ch = .connected r.line .a r.id) ∧
     a.capture r.line = none ∧ a.records.length < 16) := by
  unfold State.admits; decide +kernel

/-- A part whose register is full of calls held by A, with a line in overflow. -/
def full : State :=
  let s := (List.finRange 16).foldl
    (fun s k => withCall s (heldBy .a (call (k.castLE (by decide) + 1) (k.castLE (by decide))))) ready
  { withLine s 40 .queued with overflow := [⟨40, 0, none⟩], idCounter := 17 }

theorem witness_ReleaseParksLine_full : full.admits .a Command.release .calls ∧ InvIds (full.heard .a) ∧
    (let a := full.heard .a
     ∃ r ∈ a.recordById (16 : Byte).toFin, r.claimant = some .a ∧ r.state = .held ∧ r.offered = .empty ∧
       r.origin = none ∧ r.channel = none ∧ a.capture r.line = none ∧
       ∃ e ∈ a.overflow.head?, e.result = none ∧ e.line ≠ r.line ∧ a.recordOfLine e.line = none ∧
         (a.tick - e.arrival).toNat * 10 < a.timers.overdue * 1000) := by
  unfold State.admits InvIds; decide +kernel

/-- A full register behind which one overflow entry waits. -/
def fullBehind (arrival : Tick) (result : Option CaptureResult) : State :=
  { full with overflow := [⟨40, arrival, result⟩] }

/-- A burst of the service category. -/
def serviceBurst : CaptureResult := .received ⟨7, 312, 2, false, false⟩

/-- The entries that a promotion asks about: with no result, with either result, and with the overdue moment just
ahead and just met. -/
def waitingEntries : List (Tick × Option CaptureResult) :=
  [(0, none), (0, some .notReceived), (0, some serviceBurst), (100 - 5999, none), (100 - 6000, some serviceBurst)]

theorem waitingEntries_ages : (fullBehind 0 none).timers.overdue * 1000 = 60000 ∧
    waitingEntries.map (fun x => (full.tick - x.1).toNat * 10) = [1000, 1000, 1000, 59990, 60000] := by
  decide +kernel

theorem fullBehind_ids : ∀ x ∈ waitingEntries, InvIds (fullBehind x.1 x.2) ∧
    InvIds ((fullBehind x.1 x.2).heard .a) := by
  unfold InvIds; decide +kernel

theorem witness_promotion : ∀ x ∈ waitingEntries,
    let s := fullBehind x.1 x.2
    s.admits .a Command.release .calls ∧ ∀ a ∈ [s, s.heard .a], 16 ≤ a.records.length ∧
      (∃ e ∈ a.overflow.head?, e.result = x.2 ∧ e.line ≠ 15 ∧ a.recordOfLine e.line = none) ∧
      ∃ r ∈ a.recordById (16 : Byte).toFin, a.recordOfLine 15 = some r ∧ (a.line 15).condition = .inCall ∧
        r.claimant = some .a ∧ r.state = .held ∧ r.channel = none ∧ (a.centre .a).duty ≠ .handingOver := by
  unfold State.admits; decide +kernel

theorem witness_TransferOffersPartner : busy.admits .a Command.transfer .calls ∧
    (let a := busy.heard .a
     let r := connectedTo .a 0 (call 1 5)
     a.recordById (1 : Byte).toFin = some r ∧ a.recordOfLine r.line = some r ∧
     (a.line r.line).condition = .inCall ∧ r.claimant = some .a ∧ r.state = .connected ∧
     a.usable Centre.a.partner = true ∧ (a.centre .a).duty ≠ .handingOver ∧
     (∀ ch ∈ r.channel, a.channel ch = .connected r.line .a r.id)) ∧
    ((withDuty busy .b .standby).heard .a).usable Centre.a.partner = false := by
  unfold State.admits; decide +kernel

/-- A part in which A is handing over, claims call 1 alone, and was offered call 2 again by a transfer of B that
timed out. -/
def handing : State :=
  withDuty (withCall (withCall ready (heldBy .a (call 1 5))) (offeredTo .a { call 2 6 with origin := some .b }))
    .a .handingOver

theorem handing_sound : InvIds handing ∧ InvCalls handing ∧ InvLines handing ∧ InvDuty handing := by
  refine ⟨?_, ?_, ?_, ?_⟩
  · unfold InvIds; decide +kernel
  · unfold InvCalls CallRecord.Sound; decide +kernel
  · unfold InvLines State.unread; decide +kernel
  · unfold InvDuty; decide +kernel

theorem handing_heard_sound : InvIds (handing.heard .a) ∧ InvCalls (handing.heard .a) ∧
    InvLines (handing.heard .a) ∧ InvDuty (handing.heard .a) := by
  refine ⟨?_, ?_, ?_, ?_⟩
  · unfold InvIds; decide +kernel
  · unfold InvCalls CallRecord.Sound; decide +kernel
  · unfold InvLines State.unread; decide +kernel
  · unfold InvDuty; decide +kernel

theorem witness_handover_completes : handing.admits .a Command.release .calls ∧
    handing.admits .a Command.transfer .calls ∧
    (let a := handing.heard .a
     (a.centre .a).duty = .handingOver ∧ a.usable .b = true ∧ a.records.length < 16 ∧
     ∃ r ∈ a.recordById (1 : Byte).toFin, r.claimant = some .a ∧ r.state = .held ∧ r.channel = none ∧
       a.recordOfLine r.line = some r ∧ (a.line r.line).condition = .inCall) := by
  unfold State.admits; decide +kernel

/-- A part in which line 5 rings for A on channel 0. -/
def ringing : State :=
  (withLine ready 5 (.ringing { length := 30000, due := 31000 } .a 0)).setChannel 0 (.reserved 5 .a)

theorem witness_RingsStartAndEnd : ready.admits .a Command.ringPost .calls ∧
    ringing.admits .a Command.cancelRing .calls ∧ lineOfNat (5 : Byte).toNat = some 5 ∧
    (let a := ready.heard .a
     a.line 5 = { condition := .idle, tone := .none } ∧ a.power ≠ .reserve ∧
     a.channelsInUse < cabinetLimit a.power ∧ a.channelsRouted .a < a.bearer.limit .a ∧
     a.channel 0 = .free) ∧
    (let a := ringing.heard .a
     (a.line 5).condition.ring? = some (.a, 0) ∧ (a.line 5).tone = .none ∧ a.channel 0 = .reserved 5 .a) ∧
    (ringing.line 5).condition.ring? = some (.a, 0) ∧ (ringing.line 5).tone = .none ∧
    ringing.channel 0 = .reserved 5 .a := by
  unfold State.admits; decide +kernel

theorem witness_RingsStartAndEnd_refusals : 64 ≤ (64 : Byte).toNat ∧ crowded.admits .a Command.ringPost .calls ∧
    ringing.admits .b Command.cancelRing .calls ∧
    (let a := crowded.heard .a
     (∃ r ∈ a.recordOfLine 5, (a.line 5).condition = .inCall ∧ r.id = 1) ∧ (a.line 20).condition = .idle ∧
     a.power ≠ .reserve ∧ a.bearer.limit .a ≤ a.channelsRouted .a) ∧
    ((withLine ready 5 .notFitted).heard .a).line 5 = { condition := .notFitted, tone := .none } ∧
    (State.heard { ready with power := .reserve } .a).power = .reserve ∧
    ((ready.heard .a).line 20).condition = .idle ∧ ((ready.heard .a).line 20).condition.ring? = none ∧
    (let b := ringing.heard .b
     (b.line 5).condition ≠ .notFitted ∧ (b.line 5).condition ≠ .idle ∧ (b.line 5).condition ≠ .inCall ∧
     ∃ x ∈ (b.line 5).condition.ring?, x.1 = Centre.b.partner) := by
  unfold State.admits; decide +kernel

theorem witness_DismissRemovesEntry : crowded.admits .a Command.dismiss .calls ∧
    (let a := crowded.heard .a
     (a.abandoned.filter fun e => e.id ≠ (9 : Byte).toFin) ≠ a.abandoned ∧
     (a.abandoned.filter fun e => e.id ≠ (1 : Byte).toFin) = a.abandoned ∧
     (∃ r ∈ a.records, r.id = (1 : Byte).toFin) ∧
     (a.abandoned.filter fun e => e.id ≠ (3 : Byte).toFin) = a.abandoned ∧
     ∀ r ∈ a.records, r.id ≠ (3 : Byte).toFin) := by
  unfold State.admits; decide +kernel

theorem witness_HandoverRequestMovesOffers : busy.admits .b Command.handoverRequest .calls ∧
    (let a := busy.heard .b
     (a.centre .b).duty = .active ∧ a.usable Centre.b.partner = true ∧ a.claimsAny .b = false ∧
     (∃ r ∈ a.records, r.offered.has .b = true ∧ r.offered.has Centre.b.partner = false)) ∧
    (let a := busy.heard .a
     (a.centre .a).duty = .active ∧ a.claimsAny .a = true ∧ ∀ r ∈ a.records, r.offered.has .a = false) ∧
    (((withDuty busy .a .handingOver).heard .a).centre .a).duty = .handingOver ∧
    (((withDuty busy .a .standby).heard .a).centre .a).duty = .standby ∧
    ((withHealth busy .a 256 0).heard .b).usable Centre.b.partner = false := by
  unfold State.admits; decide +kernel

theorem witness_HandoverRequestMovesOffers_sound : InvIds (busy.heard .b) ∧ InvCalls (busy.heard .b) ∧
    InvLines (busy.heard .b) := by
  refine ⟨?_, ?_, ?_⟩
  · unfold InvIds; decide +kernel
  · unfold InvCalls CallRecord.Sound; decide +kernel
  · unfold InvLines State.unread; decide +kernel

/-- A part in which A is STANDBY and call 1 waits. -/
def standby : State := withDuty (withCall (withHealth ready .b 130 0) (call 1 5)) .a .standby

theorem witness_ResumeReturnsToDuty : standby.admits .a Command.resume .calls ∧
    (let a := standby.heard .a
     (a.centre .a).duty = .standby ∧ (a.centre .a).health.heard = true ∧
     ∃ r ∈ a.records, r.state = .waiting) ∧
    (((withDuty ready .a .standby).heard .a).centre .a).duty = .standby ∧
    ((withDuty ready .a .standby).heard .a).records = [] ∧
    (let a := (withDuty (withHealth ready .a 140 0) .a .standby).heard .a
     (a.centre .a).duty = .standby ∧ (a.centre .a).health.heard = false ∧
     a.usable Centre.a.partner = true) ∧
    (((withDuty busy .a .handingOver).heard .a).centre .a).duty = .handingOver ∧
    ((busy.heard .a).centre .a).duty = .active := by
  unfold State.admits; decide +kernel

/-- A part in which A is STANDBY and not heard, B has a duty and a health, and call 1 waits. -/
def unheard (score : Nat) (duty : Duty) : State :=
  withDuty (withDuty (withHealth (withHealth (withCall ready (call 1 5)) .a 141 0) .b score 0) .a .standby) .b duty

/-- RESUME of a link that is not heard, with a partner that is usable, that is not heard, and that is STANDBY. -/
theorem witness_ResumeReturnsToDuty_unheard :
    ∀ x ∈ [(0, Duty.active, true, false), (200, .active, false, false), (0, .standby, false, true)],
      let s := unheard x.1 x.2.1
      s.admits .a Command.resume .calls ∧
      (let a := s.heard .a
       (a.centre .a).duty = .standby ∧ (a.centre .a).health.heard = false ∧ a.usable .b = x.2.2.1 ∧
       ((a.centre .b).duty = .standby && (a.centre .b).health.heard) = x.2.2.2) := by
  unfold State.admits; decide +kernel
theorem unheard_sound : InvIds ((unheard 0 .standby).heard .a) ∧ InvCalls ((unheard 0 .standby).heard .a) ∧
    InvLines ((unheard 0 .standby).heard .a) := by
  refine ⟨?_, ?_, ?_⟩
  · unfold InvIds; decide +kernel
  · unfold InvCalls CallRecord.Sound; decide +kernel
  · unfold InvLines State.unread; decide +kernel

theorem witness_ResumeReturnsToDuty_sound : InvIds (standby.heard .a) ∧ InvCalls (standby.heard .a) ∧
    InvLines (standby.heard .a) := by
  refine ⟨?_, ?_, ?_⟩
  · unfold InvIds; decide +kernel
  · unfold InvCalls CallRecord.Sound; decide +kernel
  · unfold InvLines State.unread; decide +kernel

/-! ### Witnesses: maintenance and provisioning -/

/-- A part with lines in every condition that SET_SERVICE and TEST_LINE ask about: line 0 not fitted, 1 out of
service, 2 in fault, 3 parked, 4 queued, 5 IN_CALL, 6 ringing and 8 under test. -/
def mixed : State :=
  let s := withCall ringing (call 1 6)
  let s := withLine s 0 .notFitted
  let s := withLine s 1 .outOfService
  let s := withLine s 2 (.fault .opn)
  let s := withLine s 3 (.parked (some { length := 300000, due := 301000 }) false 100)
  let s := withLine s 4 .queued
  withLine s 8 (.testing .outOfService)

/-- A write of the bearer limits under way. -/
def writingBearer : WriteEntry :=
  { item := .bearer, content := .bearer defaultBearer, writing := some { length := 1000, due := 2000 } }

/-- A write of a profile that waits. -/
def waitingProfile (p : ProfileId) : WriteEntry :=
  { item := .profile p, content := .profile defaultProfile, writing := none }

/-- A state whose store write queue is full. -/
def storeFull (s : State) : State :=
  { s with writes := [writingBearer, waitingProfile 0, waitingProfile 1, waitingProfile 2] }

theorem witness_SetServiceChangesLine : mixed.admits .a Command.setService .maintain ∧
    keyOn.admits .s Command.setService .maintain ∧
    (∀ n : Fin 9, lineOfNat (BitVec.ofNat 8 n.val).toNat = some (n.castLE (by decide))) ∧
    (let a := mixed.heard .a
     (a.line 0).condition = .notFitted ∧ (a.line 1) = { condition := .outOfService, tone := .none } ∧
     (a.line 2).condition.code = 7 ∧ (a.line 3).condition.code = 6 ∧ (a.line 7).condition.code = 2 ∧
     (a.line 4).condition = .queued ∧ (∃ r ∈ a.recordOfLine 6, (a.line 6).condition = .inCall ∧ r.id = 1) ∧
     (a.line 5).condition.ring?.isSome = true ∧ (a.line 8).condition.isTesting = true ∧
     a.canWrite (.line 1) = true ∧ a.canWrite (.line 7) = true ∧
     ((storeFull mixed).heard .a).canWrite (.line 1) = false ∧
     ((storeFull mixed).heard .a).canWrite (.line 7) = false) := by
  unfold State.admits; decide +kernel

/-- The values that SET_SERVICE and TEST_LINE refuse, beside the last ones that they take. -/
theorem witness_badValues : 64 ≤ (64 : Byte).toNat ∧ ¬ 64 ≤ (63 : Byte).toNat ∧ 1 < (2 : Byte).toNat ∧
    ¬ 1 < (1 : Byte).toNat ∧ 2 < (3 : Byte).toNat ∧ ¬ 2 < (2 : Byte).toNat ∧
    ready.admits .a Command.setService .maintain ∧ ready.admits .a Command.testLine .maintain := by
  unfold State.admits; decide +kernel

/-- A part whose group 1 has an order of the scanner out. -/
def scanning (p : ScanPurpose) : State :=
  let r := { waitingGroup with
    pass := .inPass
    port := some { owner := .scanner p, settle := .ready, timer := some { length := 20, due := 1015 },
                   fate := .live } }
  ready.setGroup 1 r

theorem witness_TestLineStartsTest : ready.admits .a Command.testLine .maintain ∧
    lineOfNat (9 : Byte).toNat = some 9 ∧ kindOfNat (0 : Byte).toNat = some .openWire ∧
    kindOfNat (1 : Byte).toNat = some .insulation ∧ kindOfNat (2 : Byte).toNat = some .pathCheck ∧
    (let a := ready.heard .a
     (a.line 9).condition.prior? = some .idle ∧ (a.group 1).health ≠ .silent ∧ (a.group 1).health = .scanning ∧
     a.power = .normal ∧ a.test 1 = none ∧ (a.line 9).tone = .none ∧ (a.group 1).port = none ∧
     (a.group 1).scanWaiting = none) ∧
    (((scanning .feed).heard .a).group 1).port ≠ none := by
  unfold State.admits; decide +kernel

/-- A part with a test of line 9 in its group. -/
def testing (kind : TestKind) (phase : TestPhase) (order : TestOrder) (dwell : Option Timer)
    (samples : List (Code × Code)) : State :=
  let s := ready.setLine 9 { condition := .testing .idle, tone := .none }
  s.setTest 1 (some
    { line := 9, kind := kind, requester := .a, phase := phase, start := 50
      limit := { length := 2000, due := 2500 }, dwell := dwell, order := order, samples := samples })

theorem witness_TestLineStartsTest_refusals : mixed.admits .a Command.testLine .maintain ∧
    (let a := mixed.heard .a
     (a.line 0).condition = .notFitted ∧ (a.line 4).condition ≠ .notFitted ∧ (a.line 4).condition ≠ .inCall ∧
     (∃ r ∈ a.recordOfLine 6, (a.line 6).condition = .inCall ∧ r.id = 1) ∧
     (a.line 4).condition.prior? = none ∧ (a.line 1).condition.prior? = some .outOfService) ∧
    (((ready.setGroup 1 { waitingGroup with health := .silent }).heard .a).group 1).health = .silent ∧
    (((ready.setGroup 1 { waitingGroup with health := .pathFault }).heard .a).group 1).health = .pathFault ∧
    (State.heard { ready with power := .economy } .a).power ≠ .normal ∧
    ((((testing .openWire .measureBefore .waiting none []).heard .a).test 1).isSome = true ∧
     (((testing .openWire .measureBefore .waiting none []).heard .a).line 10).condition.prior? =
       some .idle) := by
  unfold State.admits; decide +kernel

/-- The body of a WRITE_DIRECTORY of a line, with a label of one character. -/
def directoryBody (n profile ch : Byte) : List Byte := [n, 1, 7, 1, 56, 7, 1, 56, 0, 1, profile, 2, 1, ch]

theorem witness_WriteDirectorySetsEntry : mixed.admits .a Command.writeDirectory .configure ∧
    (∃ x ∈ readWriteDirectory (directoryBody 1 1 126), ∃ n ∈ lineOfNat x.1, ∃ e ∈ checkEntry x.2,
      n = 1 ∧ e.profile ≠ ((mixed.heard .a).entry 1).profile) ∧
    (∃ x ∈ readWriteDirectory (directoryBody 1 3 127), ∃ ch ∈ x.2.label, 126 < ch) ∧
    (∃ x ∈ readWriteDirectory (directoryBody 64 4 31), 64 ≤ x.1 ∧ 3 < x.2.profile ∧
      ∃ ch ∈ x.2.label, ch < 32) ∧
    (let a := mixed.heard .a
     (a.line 0).condition = .notFitted ∧ (a.line 1).condition = .outOfService ∧
     (a.line 7).condition ≠ .notFitted ∧ (a.line 7).condition ≠ .outOfService ∧
     a.canWrite (.line 1) = true ∧ ((storeFull mixed).heard .a).canWrite (.line 1) = false) := by
  unfold State.admits; decide +kernel

/-- The body of a WRITE_PROFILE with the factory resistances, a top of the idle band and a confirm count of 40
for OFFHOOK. -/
def profileBody (p : Byte) (idleHi : Nat) : List Byte :=
  p :: (bytes2 100 ++ bytes2 1800 ++ bytes2 10000 ++ bytes2 6000 ++ bytes2 idleHi ++ bytes2 40000 ++
    bytes2 300 ++ [40, 5, 10, 10, 5])

/-- Whether a profile's fields are related as the statement asks. -/
def relatedFields (q : Profile) : Bool := 1 ≤ q.short ∧ q.short < q.offMax ∧ q.offMax < 2000 ∧ 2000 ≤ q.leak ∧
  q.leak ≤ q.term ∧ q.term ≤ q.idleHi ∧ q.idleHi ≤ 65000 ∧ q.idleHi < q.opn ∧ q.opn ≤ 65534 ∧ q.hyst ≤ 1000

/-- The table of R18: the top of the idle band is at most 65000 ohms, whatever R_open allows. -/
theorem test_profile_range : profileRelated { defaultProfile with idleHi := 65000, opn := 65534 } = true ∧
    profileRelated { defaultProfile with idleHi := 65001, opn := 65534 } = false := by decide +kernel

theorem witness_WriteProfileSetsProfile : ready.admits .a Command.writeProfile .configure ∧
    (∃ x ∈ readWriteProfile (profileBody 3 39999), profileOfNat x.1 = some 3 ∧ relatedFields x.2 = true) ∧
    (∃ x ∈ readWriteProfile (profileBody 0 40000), relatedFields x.2 = false) ∧
    (∃ x ∈ readWriteProfile (profileBody 4 12000), 4 ≤ x.1) ∧
    (let a := ready.heard .a
     (∀ n, (a.entry n).profile = 3 → (a.entry n).inService = false) ∧
     (∃ n, (a.entry n).inService = true ∧ (a.entry n).profile = 0) ∧ a.canWrite (.profile 3) = true ∧
     ((storeFull ready).heard .a).canWrite (.profile 3) = false) := by
  unfold State.admits; decide +kernel

/-- A part whose group 7 has 4 lines fitted, with lines 60 and up NOT_FITTED and line 59 out of service. -/
def partFitted : State :=
  let s := (List.finRange 4).foldl
    (fun s k => withLine s (lineAt 7 (k.castLE (by decide) + 4)) .notFitted) ready
  (withLine s 59 .outOfService).setGroup 7 { waitingGroup with fitted := 4 }

/-- A part whose group 7 has no line fitted. -/
def noneFitted (health : GroupHealth) : State :=
  let s := (List.finRange 8).foldl (fun s k => withLine s (lineAt 7 k) .notFitted) ready
  s.setGroup 7 { defaultGroup with fitted := 0, health := health }

theorem witness_SetGroupRefitsLines : partFitted.admits .a Command.setGroup .configure ∧
    groupOfNat (7 : Byte).toNat = some 7 ∧ settleOfNat (3 : Byte).toNat = some .ready ∧
    (1 : Byte).toNat ≤ 1 ∧ (8 : Byte).toNat ≤ 8 ∧
    (let a := partFitted.heard .a
     let loses (f : Nat) (n : LineId) : Bool := n.group = 7 ∧ f ≤ n.pos.val ∧ n.pos.val < 4
     (∀ n, loses 3 n = true → (a.line n).condition = .outOfService) ∧
     (∃ n, loses 3 n = true) ∧ (∃ n, loses 2 n = true ∧ (a.line n).condition ≠ .outOfService) ∧
     (∀ n, loses 8 n = false) ∧ a.canWrite (.group 7) = true ∧
     ((storeFull partFitted).heard .a).canWrite (.group 7) = false) ∧
    7 < (8 : Byte).toNat ∧ 8 < (9 : Byte).toNat ∧ 3 < (4 : Byte).toNat ∧ 1 < (2 : Byte).toNat := by
  unfold State.admits; decide +kernel

theorem witness_SetGroupRefitsLines_zero : (noneFitted .silent).admits .a Command.setGroup .configure ∧
    (((noneFitted .silent).heard .a).group 7).fitted.val = 0 ∧
    (((noneFitted .silent).heard .a).group 7).health = .silent ∧
    (((noneFitted .scanning).heard .a).group 7).health ≠ .silent ∧
    (let a := (withLine (partFitted.setGroup 7 { waitingGroup with fitted := 1 }) 56 .outOfService).heard .a
     ∀ n : LineId, n.group = 7 ∧ 0 ≤ n.pos.val ∧ n.pos.val < 1 → (a.line n).condition = .outOfService) := by
  unfold State.admits; decide +kernel

/-- The clauses that say the whole group record: no change of the count; a count of 0; from 0, SILENT, and with
the port free or in use; and a change with no order of an unfit line waiting. -/
theorem witness_SetGroupRefitsLines_whole :
    (let a := partFitted.heard .a
     (a.group 7).fitted.val = 4 ∧ (a.group 7).scanWaiting = none ∧
     (∀ n : LineId, n.group = 7 ∧ 3 ≤ n.pos.val ∧ n.pos.val < 4 → (a.line n).condition = .outOfService)) ∧
    (let a := (noneFitted .scanning).heard .a
     (a.group 7).fitted.val = 0 ∧ (a.group 7).port = none ∧ a.test 7 = none) ∧
    (((noneFitted .scanning).setGroup 7 { defaultGroup with
      fitted := 0
      port := some { owner := .scanner .feed, settle := .ready, timer := none, fate := .stale } }).group 7).port ≠
        none ∧
    (let r := (partFitted.setGroup 7 { waitingGroup with fitted := 4, checkPos := 3 }).group 7
     3 ≤ r.checkPos.val ∧ ¬ 4 ≤ r.checkPos.val) := by decide +kernel

theorem witness_SettingsQueueStoreWrites : ready.admits .a Command.setAcceptance .configure ∧
    ready.admits .b Command.setCallTimers .configure ∧ keyOn.admits .s Command.setBearer .configure ∧
    3 < (4 : Byte).toNat ∧ 1 < (2 : Byte).toNat ∧ profileOfNat (3 : Byte).toNat = some 3 ∧
    (ready.heard .a).canWrite .acceptance = true ∧ (ready.heard .b).canWrite .timers = true ∧
    (keyOn.heard .s).writes = [] ∧
    (let a := (storeFull keyOn).heard .s
     4 ≤ a.writes.length ∧ a.writes.any (·.waitsFor .bearer) = false ∧
     a.writes.any (·.waitsFor .acceptance) = false ∧ a.writes.any (·.waitsFor .timers) = false) ∧
    (storeFull keyOn).admits .s Command.setAcceptance .configure ∧
    (storeFull keyOn).admits .s Command.setCallTimers .configure ∧
    (let a := State.heard { keyOn with writes := [writingBearer] } .s
     a.writes ≠ [] ∧ a.writes.length < 4 ∧ a.writes.any (·.waitsFor .bearer) = false) ∧
    (State.heard { keyOn with writes := [writingBearer, { writingBearer with writing := none }] } .s).writes.any
      (·.waitsFor .bearer) = true := by
  unfold State.admits; decide +kernel

theorem witness_RestartOpensWindow : ready.admits .a Command.restart .configure ∧
    ((ready.heard .a).link .a).queue.length < 8 ∧
    (let s := ready.setLink .a { ready.linkA with
       transmit := .sending (.reply Command.keepalive .ok []) []
       queue := (List.range 7).map (fun k => ⟨.notice .dutyResumed, k, false⟩) ++
         [⟨.notice (.groupSilent 1), 7, false⟩] }
     s.admits .a Command.restart .configure ∧ ((s.heard .a).link .a).queue.length = 8 ∧
     ∃ x ∈ ((s.heard .a).link .a).queue.getLast?, 0 < x.msg.cls) := by
  unfold State.admits; decide +kernel

/-- A full register while line 60 rings for B: all its calls are HELD by A, or one of them waits. -/
def fullRinging (waiting : Bool) : State :=
  let s := (withLine full 60 (.ringing { length := 30000, due := 31000 } .b 0)).setChannel 0 (.reserved 60 .b)
  if waiting then { s with records := s.records.map fun r => if r.id = 3 then call 3 2 else r } else s

/-! ### Witnesses: restart, start-up and supply -/

/-- A part whose restart reply is in transmission on link A, with a call that no centre has claimed, an order out
in group 1 and no line fitted in group 7. -/
def restarting : State :=
  let s := withCall (scanning .feed) (offeredTo .b (call 2 6))
  let s := s.setGroup 7 { defaultGroup with fitted := 0 }
  { s.setLink .a { s.linkA with transmit := .sending restartReply [] } with window := some .a }

theorem witness_WarmRestartClearsLiveState : restarting.window = some .a ∧
    (restarting.link .a).transmit = .sending (.reply Command.restart .ok []) [] ∧
    (restarting.group 7).fitted = 0 ∧ ((restarting.group 0).fitted ≠ 0 ∧ (restarting.group 0).port = none) ∧
    ((restarting.group 1).fitted ≠ 0 ∧ (restarting.group 1).port ≠ none) ∧ restarting.overflow = [] ∧
    restarting.records.length + restarting.abandoned.length ≤ 16 := by decide +kernel

/-- A part whose link A sends a reply, with a queue full of replies behind it. -/
def repliesOnly : State :=
  ready.setLink .a { ready.linkA with
    transmit := .sending (.reply Command.keepalive .ok []) []
    queue := (List.range 8).map fun k => ⟨.reply Command.claim .ok [0], k, false⟩, submissions := 8 }

theorem witness_WarmRestartClearsLiveState_ends :
    ((restarting.setReceive .a (.brk false)).link .a).receive = .brk false ∧
    (restarting.link .a).holdsRestartReply = true ∧ (restarting.centre .a).health ≠ .lost ∧
    (restarting.centre .a).silence.isSome = true ∧
    (let s := withHealth restarting .a 250 0
     judgeFrame [0] = .bad ∧ (s.link .a).receive.inBreak = false ∧ 256 ≤ (s.centre .a).score + 8 ∧
     (s.centre .a).health ≠ .lost) ∧
    repliesOnly.admits .a Command.restart .configure ∧
    (let k := (repliesOnly.heard .a).link .a
     k.queue.length = 8 ∧ (∀ m ∈ k.queue, m.msg.cls = 0) ∧ k.transmit ≠ .idle ∧
     k.holdsRestartReply = false) := by
  unfold State.admits; decide +kernel

/-- A part whose restart reply is in transmission, with a full register of which one call waits, a line in overflow
with a result, and a full abandoned list whose second id the counter stands at. -/
def restartingFull : State :=
  let s := fullRinging true
  { s.setLink .a { s.linkA with transmit := .sending restartReply [] } with
    window := some .a, overflow := [⟨40, 0, some serviceBurst⟩, ⟨41, 7, none⟩], idCounter := 18
    abandoned := (List.finRange 16).map fun k =>
      ⟨k.castLE (by decide) + 17, 50, .emergency, 0, 50, .empty, false⟩ }

theorem witness_WarmRestartClearsLiveState_abandoned : InvIds restartingFull ∧ restartingFull.window = some .a ∧
    (restartingFull.link .a).transmit = .sending (.reply Command.restart .ok []) [] ∧
    restartingFull.abandoned.length = 16 ∧ restartingFull.overflow.length = 2 ∧
    (restartingFull.records.filter (·.state.unclaimed)).map (·.id) = [3] ∧
    issuedId (restartingFull.abandoned.map (·.id)) restartingFull.idCounter = 33 := by
  unfold InvIds; decide +kernel

theorem witness_ColdStartValues : ∃ w ∈ (storeFull ready).writes.head?, w.writing.isSome = true ∧
    w.item.index ≠ (0 : Fin 79) := by decide +kernel

/-- A part at a read of its load. -/
def loading (read : Nat) : State :=
  { State.reset with
    load := some { read := read, timer := { length := 200, due := 200 }, report := .empty } }

/-- A report of a read that succeeded, with the CRC of its bytes. -/
def goodRead (item : RawItem) : ReadReport := { success := true, bytes := [1, 2], crc := crc16 [1, 2], item := item }

/-- A report of a read that failed. -/
def badRead : ReadReport := { goodRead (.bearer 4 4) with success := false }

/-- The raw fields of a line entry in service. -/
def rawEntry : RawEntry :=
  { service := 0, identPresent := 0, ident := 0, sect := 7, marker := 312, cway := 0, home := 0, profile := 1,
    naming := 0, label := [], defaulted := 0 }

theorem witness_LoadReadSetsItem : (∃ ld ∈ (loading 3).load, 1 ≤ ld.read ∧ ld.read < 79) ∧
    Item.ofNumber 3 = .bearer ∧ judgeRead .bearer (goodRead (.bearer 1 6)) =
      some (.bearer { limitA := 1, limitB := 6 }) ∧
    judgeRead .bearer (goodRead (.bearer 0 6)) = none ∧ judgeRead .bearer badRead = none ∧
    Item.ofNumber 78 = .line 62 ∧ (∃ ld ∈ (loading 78).load, ld.read < 79) ∧
    (judgeRead (.line 62) (goodRead (.line rawEntry))).isSome = true ∧ Item.ofNumber 1 = .acceptance ∧
    Item.ofNumber 8 = .group 0 ∧ Item.ofNumber 7 = .profile 3 := by decide +kernel

theorem witness_LoadReadSetsItem_pass : Item.ofNumber 16 = .line 7 ∧
    (LineId.pos 7).val + 1 = ((loading 16).group 0).fitted.val ∧ ((loading 16).group 0).port = none ∧
    (loading 16).test 0 = none ∧ (LineId.pos 62).val + 1 ≠ ((loading 78).group 7).fitted.val := by
  decide +kernel

theorem witness_LoadEndFormsReport : (∃ ld ∈ (loading 79).load, ld.read = 79) ∧
    judgeRead (.line 63) badRead = none ∧ judgeRead (.line 63) (goodRead (.line rawEntry)) ≠ none ∧
    ((loading 79).group 7).fitted.val = 8 ∧ ((loading 79).group 7).port = none ∧
    (loading 79).test 7 = none ∧
    (((loading 79).setGroup 7 { defaultGroup with fitted := 4 }).group 7).fitted.val ≠ 8 := by
  decide +kernel

/-- A part whose mains have been away for their debounce period. -/
def mainsLost : State :=
  { ready with mainsOk := { level := false, taken := true, debounce := some { length := 2000, due := 1000 } } }

theorem witness_InputsFormPowerState : (ready.input .key).debounce = none ∧
    (mainsLost.input .mainsOk).debounce.isSome = true ∧ mainsLost.power = .normal ∧
    (∀ g, mainsLost.test g = none) ∧
    (let b := mainsLost.setInput .mainsOk { level := false, taken := false, debounce := none }
     (if b.mainsOk.taken then PowerState.normal else if b.batteryLow.taken then .reserve else .economy) ≠
       mainsLost.power) ∧
    (let s : State := { ready with batteryLow := { level := true, taken := false,
                                                   debounce := some { length := 2000, due := 1000 } } }
     (s.input .batteryLow).debounce.isSome = true ∧ s.power = .normal) ∧
    (let s : State := { ready with key := { level := true, taken := false,
                                            debounce := some { length := 50, due := 1000 } } }
     (s.input .key).debounce.isSome = true) := by decide +kernel

/-! ### Witnesses: scanning -/

theorem witness_PassAndProbeOrders : ((ready.setGroup 1 { waitingGroup with passTimer := none }).group 1).passTimer =
      none ∧
    (let r := ready.group 1
     r.passTimer.isSome = true ∧ r.pass = .idleWait ∧ r.fitted ≠ 0 ∧ r.port = none ∧
     (∀ t ∈ ready.test 1, t.order ≠ .waiting) ∧ r.probeDelay = none) ∧
    ((scanning .feed).group 1).passTimer.isSome = true ∧ ((scanning .feed).group 1).pass ≠ .idleWait ∧
    (let r := (ready.setGroup 1 { (scanning .feed).group 1 with pass := .idleWait }).group 1
     r.passTimer.isSome = true ∧ r.pass = .idleWait ∧ r.port ≠ none) ∧
    (let r := (ready.setGroup 1 { waitingGroup with
        pass := .stopped, health := .silent, probeDelay := some { length := 100, due := 1000 } }).group 1
     r.probeDelay.isSome = true ∧ r.port = none) := by decide +kernel

theorem witness_ScanSamplesMovePass_feed :
    (scanning .feed).orderEnds 1 (.orderReady 1 false 2870 0 true) = some (some (2870, 0)) ∧
    (scanning .feed).scannerHolds 1 .feed ∧ (scanning .feed).nextLine 1 0 0 := by
  unfold State.scannerHolds State.nextLine; decide +kernel

/-- A fixed settle mode gives its result at the end of its settle steps (R4). -/
theorem witness_ScanSamplesMovePass_fixed :
    ((scanning .feed).setGroup 1 { waitingGroup with
      port := some { owner := .scanner .feed, settle := .fixed0, timer := none, fate := .live } }).orderEnds 1
      (.fixedSettleEnd 1 2870 0 true) = some (some (2870, 0)) := by decide +kernel

/-- The first line of group 1 IDLE by its classifier, with its order out. -/
def scanningIdle : State :=
  (scanning (.line 0)).setClassifier 8 { Classifier.reset 10000 with confirmed := .idle }

/-- The state that the sample of a line of group 1 leaves before the pass goes on. -/
def classified (s : State) (p : Pos) (x : Code × Code) : State :=
  State.classify { s with
    orders := [], groups := s.groups.set 1 { s.group 1 with noSampleRun := 0, port := none } }
    (lineAt 1 p) x.1 x.2 (s.group 1).vf

/-- The line of position 0 under a condition, with three OFFHOOK samples less one counted or none. -/
def sampling (k : Condition) (count : Nat) : State :=
  (withLine scanningIdle 8 k).setClassifier 8 { Classifier.reset 10000 with
    confirmed := .idle, candidate := if count = 0 then none else some .offhook, count := count }

/-- Whether the pass goes on at position 1 after a sample of position 0. -/
def goesOn (k : Condition) (x : Code × Code) : Bool :=
  let t := classified (sampling k 2) 0 x
  1 < (t.group 1).fitted.val && t.scannable 1 1

theorem goesOn_nextLine (k : Condition) (x : Code × Code) (h : goesOn k x = true) :
    (classified (sampling k 2) 0 x).nextLine 1 1 1 := by
  simp only [goesOn, Bool.and_eq_true, decide_eq_true_eq] at h
  exact ⟨le_refl _, h.1, h.2, fun q hq hq' => absurd hq' (by simp only [Fin.val_one]; omega)⟩

theorem witness_ScanSamplesMovePass_line : scanningIdle.scannerHolds 1 (.line 0) ∧
    (sampling (.ringing { length := 1, due := 1 } .a 0) 2).scannerHolds 1 (.line 0) := by
  unfold State.scannerHolds; decide +kernel
theorem goesOn_idle : goesOn .idle (2300, 230) = true := by decide +kernel
theorem goesOn_leaky : goesOn .idle (1300, 230) = true := by decide +kernel
theorem goesOn_foreign : goesOn .idle (2921, 200) = true := by decide +kernel
theorem goesOn_offhook : goesOn .idle (500, 400) = true := by decide +kernel
theorem goesOn_short : goesOn (.fault .opn) (0, 4000) = true := by decide +kernel
theorem goesOn_open : goesOn .inCall (2870, 0) = true := by decide +kernel
theorem goesOn_out : goesOn .outOfService (2300, 230) = true := by decide +kernel
theorem goesOn_ringing : goesOn (.ringing { length := 1, due := 1 } .a 0) (500, 400) = true := by decide +kernel

/-- A part whose group 1 has the order of its last line out, that line being out of service by now. -/
def scanningLast (pathCheck : Bool) : State :=
  let s := withLine (scanning (.line 7)) 15 .outOfService
  s.setGroup 1 { s.group 1 with pathCheck := pathCheck }

theorem witness_ScanSamplesMovePass_last : (scanningLast false).scannerHolds 1 (.line 7) ∧
    (∀ q, ¬ (classified (scanningLast false) 7 (2300, 230)).nextLine 1 8 q) ∧
    ((scanningLast false).group 1).pathCheck = false ∧
    ((scanningLast false).group 1).passTimer.isSome = true := by
  unfold State.scannerHolds State.nextLine; decide +kernel

/-- A part whose group 1 has the order of its last line out, with no line IDLE. -/
def scanningQueued : State :=
  { scanning (.line 7) with lines := .replicate 64 { condition := .queued, tone := .wait } }

theorem witness_ScanSamplesMovePass_none : scanningQueued.scannerHolds 1 (.line 7) ∧
    (∀ q, ¬ (classified scanningQueued 7 (2300, 230)).nextLine 1 8 q) ∧
    (positionsFrom (scanningQueued.group 1).fitted (scanningQueued.group 1).checkPos).find?
      (fun p => ((classified scanningQueued 7 (2300, 230)).line (lineAt 1 p)).condition = .idle) = none := by
  unfold State.scannerHolds State.nextLine; decide +kernel

theorem witness_ScanSamplesMovePass_check :
    (let b := classified (scanningLast true) 7 (2300, 230)
     (∀ q, ¬ b.nextLine 1 8 q) ∧
     (positionsFrom ((scanningLast true).group 1).fitted ((scanningLast true).group 1).checkPos).find?
       (fun p => (b.line (lineAt 1 p)).condition = .idle) = some 0) ∧
    (scanningLast true).scannerHolds 1 (.line 7) := by
  unfold State.scannerHolds State.nextLine; decide +kernel

/-- The third OFFHOOK sample in a row of an IDLE line makes its call within the pass, and no path check then
chooses the line (R10, R29, R35). -/
theorem test_sample_confirms :
    (let t := after (sampling .idle 2) (.orderReady 1 false 500 400 true)
     ((t.line 8).condition, t.records.map (·.line), t.orders)) =
      (.inCall, [8], [.listen 1 (some 8), .tone 8 .registered, .measure 1 (.position 1) .main]) := by
  decide +kernel

/-- A part whose group 1 waits for the second sample of a path check. -/
def checking (health : GroupHealth) (disc agree : Nat) : State :=
  let s := scanning (.checkSecond 2 (some (2301, 231)))
  s.setGroup 1 { s.group 1 with health := health, discrepancyRun := disc, agreementRun := agree }

theorem witness_ScanSamplesMovePass_paths : (scanning (.checkMain 2)).scannerHolds 1 (.checkMain 2) ∧
    (checking .scanning 1 0).scannerHolds 1 (.checkSecond 2 (some (2301, 231))) ∧
    (checking .pathFault 0 3).scannerHolds 1 (.checkSecond 2 (some (2301, 231))) ∧
    ((checking .scanning 1 0).group 1).passTimer.isSome = true ∧
    ((checking .scanning 1 0).group 1).health = .scanning ∧ ((checking .pathFault 0 3).group 1).health = .pathFault ∧
    (let differs (u v : Code) : Bool := 25 < (u.toNat - v.toNat) + (v.toNat - u.toNat)
     differs 2301 2276 = false ∧ differs 2301 2275 = true ∧ differs 2275 2301 = true) := by
  unfold State.scannerHolds; decide +kernel

/-- A part whose group 1 has an order of the scanner out and a no-sample run. -/
def failing (p : ScanPurpose) (run : Nat) (vf : Option Code) : State :=
  (scanning p).setGroup 1 { (scanning p).group 1 with noSampleRun := run, vf := vf }

theorem witness_NoSamplesSilenceGroup :
    (failing (.line 0) 1 none).orderEnds 1 (.orderReadyTimeout 1) = some none ∧
    (failing (.line 0) 1 none).orderEnds 1 (.orderReady 1 false 0 0 false) = some none ∧
    (failing (.line 0) 1 none).scannerHolds 1 (.line 0) ∧ (failing (.line 0) 1 none).nextLine 1 1 1 ∧
    (failing .feed 0 none).scannerHolds 1 .feed ∧ ((failing .feed 0 none).group 1).vf = none ∧
    ((failing .feed 0 none).group 1).passTimer.isSome = true ∧
    (failing (.checkMain 3) 2 (some 2870)).scannerHolds 1 (.checkMain 3) ∧
    ((failing (.checkMain 3) 2 (some 2870)).group 1).noSampleRun = 2 ∧
    (failing (.checkMain 3) 2 (some 2870)).test 1 = none := by
  unfold State.scannerHolds State.nextLine; decide +kernel

theorem witness_ProbeRecoversGroup : (scanning .probe).scannerHolds 1 .probe ∧
    (scanning .probe).orderEnds 1 (.orderReady 1 false 2300 230 true) = some (some (2300, 230)) ∧
    (scanning .probe).orderEnds 1 (.orderReadyTimeout 1) = some none ∧ ((scanning .probe).group 1).fitted ≠ 0 := by
  unfold State.scannerHolds; decide +kernel

/-- A part whose group 1 has an order out that is no longer the scanner's to act on, owed a pass or not. -/
def leaving (p : ScanPurpose) (fate : OrderFate) (owed : Bool) : State :=
  (scanning p).setGroup 1 { (scanning p).group 1 with
    port := some { owner := .scanner p, settle := .ready, timer := none, fate := fate }
    pass := if owed then .stopped else .inPass, restartPass := owed }

theorem witness_ScanSamplesMovePass_leaving :
    (∀ owed : Bool,
      let s := leaving .feed .stale owed
      (s.orderEnds 1 (.orderReadyTimeout 1)).isSome = true ∧ (s.group 1).port.any (·.fate = .stale) = true ∧
      (s.group 1).restartPass = owed ∧ (s.group 1).fitted ≠ 0) ∧
    (∀ p ∈ [ScanPurpose.line 7, .checkMain 2, .checkSecond 2 none, .checkSecond 2 (some (2301, 231))],
      let s := leaving p .lostFit false
      (s.orderEnds 1 (.orderReady 1 false 2300 230 true)).isSome = true ∧
      (∃ o ∈ (s.group 1).port, o.fate = .lostFit ∧ o.owner = .scanner p) ∧ (s.group 1).restartPass = false) ∧
    (scanning (.checkSecond 2 none)).scannerHolds 1 (.checkSecond 2 none) ∧
    (∀ s : State, ∀ k, (∀ q, ¬ s.nextLine 1 k q) → (s.group 1).pathCheck = false → s.GoesOn 1 k (s.passEnds 1)) := by
  refine ⟨by decide +kernel, by decide +kernel, by unfold State.scannerHolds; decide +kernel, ?_⟩
  intro s k none off
  exact ⟨fun q hq => absurd hq (none q), fun _ => ⟨fun _ => rfl, fun q _ on => absurd (off ▸ on) (by decide)⟩⟩

/-- A part whose scanner has the port of group 1 while the order of a test of line 9 waits. -/
def contending (p : ScanPurpose) (run : Nat) : State :=
  (testing .pathCheck .measureMain .waiting none []).setGroup 1 ((failing p run (some 2870)).group 1)

theorem witness_NoSamplesSilenceGroup_more :
    (failing .feed 1 (some 2870)).scannerHolds 1 .feed ∧ ((failing .feed 1 (some 2870)).group 1).vf.isSome = true ∧
    (failing (.checkSecond 2 none) 0 none).scannerHolds 1 (.checkSecond 2 none) ∧
    (failing (.checkSecond 2 (some (1, 1))) 1 none).scannerHolds 1 (.checkSecond 2 (some (1, 1))) ∧
    (∀ p ∈ [ScanPurpose.feed, .line 0, .checkMain 2, .checkSecond 2 none],
      let s := contending p 2
      s.scannerHolds 1 p ∧ s.orderEnds 1 (.orderReadyTimeout 1) = some none ∧ (s.group 1).noSampleRun = 2 ∧
      s.testStands 1 ∧ (s.test 1).isSome = true) := by
  unfold State.scannerHolds State.testStands; decide +kernel

/-! ### Witnesses: classification -/

theorem witness_ResistanceMeasuredAndTracked : (0 : Code).toNat = 0 ∧ (3 : Code).toNat ≠ 0 ∧
    resistance 1 3 < 65535 ∧ 2 * 65535 * (1 : Code).toNat ≤ 2000 * (66 : Code).toNat + (1 : Code).toNat ∧
    2000 * (65 : Code).toNat + (1 : Code).toNat < 2 * 65535 * (1 : Code).toNat ∧ resistance 65 1 = 65000 ∧
    resistance 66 1 = 65535 ∧
    2000 ≤ defaultProfile.idleHi ∧ 2000 ≤ 12000 ∧ 12000 ≤ defaultProfile.idleHi ∧
    (10000 < 9993 + 8 ∧ 9993 < 10000 + 8) := by decide +kernel

theorem witness_ThresholdsClassify : profileRelated defaultProfile = true ∧
    (Classifier.reset 10000).rTrack ≤ defaultProfile.idleHi ∧
    rawClass defaultProfile { Classifier.reset 10000 with confirmed := .unknown } 12000 = .idle ∧
    rawClass defaultProfile { Classifier.reset 10000 with confirmed := .unknown } 1800 = .offhook := by
  decide +kernel

/-- A part whose line 5 has a candidate OFFHOOK counted twice. -/
def debouncing : State := ready.setClassifier 5 { Classifier.reset 10000 with candidate := some .offhook, count := 2 }

theorem witness_DebounceConfirmsClass :
    (∀ c ∈ (debouncing.classifier 5).candidate,
      (debouncing.classifier 5).count < confirmCount (debouncing.profileOf 5) c) ∧
    (∃ c ∈ RawClass.offhook.class?, c ≠ (debouncing.classifier 5).confirmed ∧
      confirmCount (debouncing.profileOf 5) c ≤ (debouncing.classifier 5).count + 1) ∧
    (∃ c ∈ RawClass.idle.class?, c ≠ (debouncing.classifier 5).confirmed ∧
      1 < confirmCount (debouncing.profileOf 5) c) ∧
    (∃ c ∈ RawClass.idle.class?, c = (scanningIdle.classifier 8).confirmed) := by decide +kernel

/-! ### Witnesses: lines and calls -/

theorem witness_LineNoticesFollowCondition :
    (∃ x ∈ (mixed.line 3).condition.park?, ∃ t ∈ x.1, t.length = 300000) ∧
    ((mixed.line 2).condition.park?.bind (·.1)) = none ∧ LoopClass.opn.fault? = some .opn ∧
    (mixed.line 7) = { condition := .idle, tone := .none } ∧
    (mixed.line 2) = { condition := .fault .opn, tone := .none } ∧
    (∀ sent : Bool, ∃ x ∈ ((withLine ready 3 (.parked none sent 100)).line 3).condition.park?, x.2.1 = sent) := by
  decide +kernel

theorem witness_ConfirmedClassActsOnLine_request : (mixed.line 0).condition = .notFitted ∧
    (ready.line 5) = { condition := .idle, tone := .none } ∧ ready.records.length < 16 ∧
    ready.recordOfLine 5 = none ∧ 0 < ready.timers.overdue ∧ InvIds ready ∧
    ready.idCounter ∉ ready.records.map (·.id) ++ ready.abandoned.map (·.id) := by
  unfold InvIds; decide +kernel

/-- The next id when the counter stands at a held one, at the last one, and at the id of an abandoned entry. -/
theorem witness_ConfirmedClassActsOnLine_ids :
    issuedId [1, 2] 1 = 3 ∧ issuedId [255, 1] 255 = 2 ∧ issuedId [4, 3] 3 = 5 ∧
    InvIds { busy with idCounter := 1 } ∧ (busy.line 7) = { condition := .idle, tone := .none } ∧
    busy.recordOfLine 7 = none ∧ full.promotedId (heldBy .a (call 3 2)) = 17 := by
  unfold InvIds; decide +kernel

theorem witness_ConfirmedClassActsOnLine_full :
    (full.line 50) = { condition := .idle, tone := .none } ∧ 16 ≤ full.records.length ∧
    (mixed.line 2) = { condition := .fault .opn, tone := .none } := by decide +kernel

/-- The records whose end the statement speaks of: IDENTIFYING, WAITING, OFFERED to both, OFFERED with an
origin, CONNECTED and HELD. -/
def endings : List CallRecord :=
  [CallRecord.create 1 5 0 none, call 1 5, offeredTo .b (offeredTo .a (call 1 5)),
    offeredTo .b { call 1 5 with origin := some .a }, connectedTo .a 0 (call 1 5), heldBy .a (call 1 5)]

theorem witness_ConfirmedClassActsOnLine_ended :
    (∀ r ∈ endings,
      let s := withCall ready r
      s.recordOfLine 5 = some r ∧ (s.line 5).condition = .inCall ∧
      (∀ d ∈ r.claimant, (s.centre d).duty ≠ .handingOver) ∧
      (∀ ch ∈ r.channel, s.channel ch = .connected 5 .a r.id) ∧ s.records.length < 16) ∧
    LoopClass.short.fault? = some .short ∧
    (handing.line 5).condition = .inCall ∧ (handing.recordOfLine 5).bind (·.claimant) = some .a ∧
    (handing.centre .a).duty = .handingOver := by decide +kernel

theorem witness_ConfirmedClassActsOnLine_promoted : InvIds full ∧ 16 ≤ full.records.length ∧
    (∃ r ∈ full.recordOfLine 3, (full.line 3).condition = .inCall ∧ r.channel = none ∧
      ∀ d ∈ r.claimant, (full.centre d).duty ≠ .handingOver) ∧
    (∃ e ∈ full.overflow.head?, e.result = none ∧ e.line ≠ 3 ∧ full.recordOfLine e.line = none ∧
      (full.tick - e.arrival).toNat * 10 < full.timers.overdue * 1000) := by
  unfold InvIds; decide +kernel

theorem witness_ConfirmedClassActsOnLine_queued : InvIds full ∧ (full.line 40).condition = .queued ∧
    ∃ e ∈ full.overflow.find? (·.line = 40), e.line = 40 := by
  unfold InvIds; decide +kernel

/-- The record that an answered recall displaces from a register. -/
def displacedFrom (s : State) : Option CallRecord :=
  ((s.registerOrder.filter (·.state.unclaimed)).getLast?).or ((s.registerOrder.filter (·.state = .held)).getLast?)

theorem witness_ConfirmedClassActsOnLine_displaced :
    ∀ w : Bool, InvIds (fullRinging w) ∧ 16 ≤ (fullRinging w).records.length ∧
      (fullRinging w).recordOfLine 60 = none ∧
      (∃ x ∈ ((fullRinging w).line 60).condition.ring?, ((fullRinging w).line 60).tone = .none ∧ x = (.b, 0)) ∧
      ∃ v ∈ displacedFrom (fullRinging w), v.line ≠ 60 ∧ v.state = (if w then .waiting else .held) ∧
        (fullRinging w).recordOfLine v.line = some v ∧
        (∀ d ∈ v.claimant, ((fullRinging w).centre d).duty ≠ .handingOver) ∧ v.origin = none := by
  unfold InvIds; decide +kernel

theorem witness_ConfirmedClassActsOnLine_recall : (∃ x ∈ (ringing.line 5).condition.ring?, x = (.a, 0)) ∧
    (ringing.line 5).tone = .none ∧ ringing.records.length < 16 ∧ ringing.recordOfLine 5 = none ∧
    InvIds ringing := by
  unfold InvIds; decide +kernel

/-- A part in which line 5 has just gone off-hook and is heard by its group's receiver. -/
def capturing : State :=
  let s := withCall ready (CallRecord.create 1 5 50 none)
  (s.setCapture 5 (some { arrival := 50, window := { length := 3000, due := 3500 } })).setReceiver 0
    { listening := some 5, waiting := [] }

/-- A part whose line 40 is QUEUED and heard by its group's receiver. -/
def capturingQueued : State :=
  let s := full.setCapture 40 (some { arrival := 0, window := { length := 3000, due := 3000 } })
  s.setReceiver 5 { listening := some 40, waiting := [] }

theorem witness_CaptureEndOffersCall : (capturing.capture 5).isSome = true ∧
    (∃ b ∈ readBurst [0x07, 0x01, 0x38, 0x00, 0x58] true, b.marker = 312) ∧
    (capturing.receiver 0).listening = some 5 ∧
    (∃ r ∈ capturing.recordOfLine 5, capturing.recordById r.id = some r ∧ r.state = .identifying ∧
      r.offered = .empty ∧ r.flags.orphan = false ∧ r.origin = none ∧
      (∀ p ∈ capturing.records, p.id = r.id → p = r)) ∧
    capturing.line 5 = { condition := .inCall, tone := .registered } ∧
    capturing.usable (capturing.entry 5).home = true ∧
    (let s := withHealth capturing .a 130 0
     s.usable (s.entry 5).home = false ∧ s.usable (s.entry 5).home.partner = true) ∧
    (let s := withHealth (withHealth capturing .a 130 0) .b 256 0
     s.usable (s.entry 5).home = false ∧ s.usable (s.entry 5).home.partner = false) ∧
    ((capturingQueued.capture 40).isSome = true ∧ (capturingQueued.receiver 5).listening = some 40 ∧
     capturingQueued.recordOfLine 40 = none) := by decide +kernel

/-- A part whose line 5 is heard and whose line 6, in the same group, waits for the receiver. -/
def capturingBehind : State :=
  let s := withCall capturing (CallRecord.create 2 6 60 none)
  (s.setCapture 6 (some { arrival := 60, window := { length := 3000, due := 3600 } })).setReceiver 0
    { listening := some 5, waiting := [6] }

theorem witness_CaptureEndOffersCall_waiting : (capturingBehind.capture 6).isSome = true ∧
    (capturingBehind.receiver 0).listening ≠ some 6 ∧ 6 ∈ (capturingBehind.receiver 0).waiting ∧
    capturingBehind.line 6 = { condition := .inCall, tone := .registered } ∧
    (∃ r ∈ capturingBehind.recordOfLine 6, capturingBehind.recordById r.id = some r ∧ r.state = .identifying ∧
      r.offered = .empty ∧ r.flags.orphan = false ∧ r.origin = none ∧
      (∀ p ∈ capturingBehind.records, p.id = r.id → p = r)) := by decide +kernel

/-- The bursts of the statement: one that is valid, with every flag set; and one that breaks off, one whose CRC does
not agree, and a valid one on a line that waits for the receiver. -/
theorem witness_CaptureEndOffersCall_bursts :
    (let agrees (bytes : List Byte) : Bool := bytes.length = 5 ∧ crc8 (bytes.take 4) = bytes.getD 4 0
     [[0x07, 0x01, 0x38, 0x00, 0x58], [0x07, 0x01, 0x38, 0xFF, crc8 [0x07, 0x01, 0x38, 0xFF]],
       [0x07, 0x01, 0x38, 0x00], [0x07, 0x01, 0x38, 0x00, 0x59]].map agrees = [true, true, false, false]) ∧
    readBurst [0x07, 0x01, 0x38, 0xFF, crc8 [0x07, 0x01, 0x38, 0xFF]] true = some ⟨7, 312, 3, true, true⟩ ∧
    (capturingBehind.receiver 0).listening ≠ some 6 ∧ LineId.group 6 = 0 := by decide +kernel

theorem witness_ResolutionPlacesCall :
    (let hits (i : Ident) (k : Fin 4) : Bool :=
       workedTable[k].enable && (i &&& workedTable[k].mask) = (workedTable[k].pattern &&& workedTable[k].mask)
     hits (Burst.identity ⟨7, 312, 2, false, false⟩) 0 = true ∧
     hits (Burst.identity ⟨8, 291, 2, false, false⟩) 3 = true ∧
     (∀ j : Fin 4, j.val < 3 → hits (Burst.identity ⟨8, 291, 2, false, false⟩) j = false) ∧
     (∀ j : Fin 4, hits (Burst.identity ⟨8, 512, 2, false, false⟩) j = false)) ∧
    (3 : BitVec 2) ≠ 2#2 ∧ (1 : BitVec 2) ≠ 2#2 := by decide +kernel

/-- A part with call 1 on line 5 and its escalation, overdue, transfer and long-call timers running. -/
def timed (r : CallRecord) : State :=
  let t : Option Timer := some { length := 15000, due := 1000 }
  withCall ready { r with escalation := t, overdueTimer := t, transferTimer := t, longTimer := t }

theorem witness_CallTimersAct :
    (let s := timed (offeredTo .a { call 1 5 with origin := some .b })
     ∃ r ∈ s.recordById 1, s.recordOfLine r.line = some r ∧ (s.line r.line).condition = .inCall ∧
       (s.line r.line).tone = toneFor .inCall (some r) ∧ r.escalation.isSome = true ∧ r.state = .offered ∧
       r.offered = CentreSet.empty.add .a ∧ r.overdueTimer.isSome = true ∧ r.state.unclaimed = true ∧
       r.transferTimer.isSome = true ∧ r.origin = some .b ∧ s.usable Centre.a.partner = true ∧
       (s.centre .b).health ≠ .lost ∧ (s.centre .b).duty ≠ .standby ∧ r.offered.has .b = false) ∧
    (let s := timed (call 1 5)
     ∃ r ∈ s.recordById 1, s.recordOfLine r.line = some r ∧ r.state = .waiting ∧ r.offered = .empty) ∧
    (let s := timed (connectedTo .a 0 (call 1 5))
     ∃ r ∈ s.recordById 1, s.recordOfLine r.line = some r ∧ (s.line r.line).tone = toneFor .inCall (some r) ∧
       r.longTimer.isSome = true ∧ r.state = .connected ∧ r.claimant = some .a ∧ r.longCall = false) ∧
    (let s := timed (heldBy .a (call 1 5))
     ∃ r ∈ s.recordById 1, s.recordOfLine r.line = some r ∧ (s.line r.line).tone = toneFor .inCall (some r) ∧
       r.longTimer.isSome = true ∧ r.state = .held) ∧
    (∃ r ∈ (withCall ready (call 1 5)).recordById 1, r.escalation = none) := by decide +kernel

/-- A call offered to both links whose escalation timer runs, and a call with no timer running. -/
theorem witness_CallTimersAct_more :
    (let s := timed (offeredTo .b (offeredTo .a (call 1 5)))
     ∃ r ∈ s.recordById 1, s.recordOfLine r.line = some r ∧ (s.line r.line).tone = toneFor .inCall (some r) ∧
       r.escalation.isSome = true ∧ r.state = .offered ∧ r.offered.has .a = true ∧ r.offered.has .b = true) ∧
    (let s := withCall ready (call 1 5)
     ∃ r ∈ s.recordById 1, s.recordOfLine r.line = some r ∧ (s.line r.line).tone = toneFor .inCall (some r) ∧
       r.overdueTimer = none ∧ r.transferTimer = none ∧ r.longTimer = none) := by decide +kernel

/-! ### Witnesses: line tests -/

/-- A test whose order is out on the port of its group, in a pass of the scanner. -/
def measuring (kind : TestKind) (phase : TestPhase) (samples : List (Code × Code)) : State :=
  (testing kind phase .placed none samples).setGroup 1 { waitingGroup with
    port := some { owner := .test, settle := .ready, timer := some { length := 20, due := 1020 },
                   fate := .live } }

/-- A test that dwells while the scanner has the port. -/
def dwelling : State :=
  (testing .openWire .dwell .none (some { length := 500, due := 1000 }) [(2300, 230)]).setGroup 1
    ((scanning (.line 0)).group 1)

/-- A path check test that waits for its second sample, in a group of a health with its check runs and a scanner
order that waits. -/
def checkingTest (health : GroupHealth) (disc agree : Nat) : State :=
  let s := measuring .pathCheck .measureCheck [(2301, 231)]
  s.setGroup 1 { s.group 1 with
    pass := .inPass, scanWaiting := some (.line 2), health := health, discrepancyRun := disc, agreementRun := agree }

/-- What every clause of the statement about tests asks of its state. -/
def testStands (s : State) (kind : TestKind) (phase : TestPhase) : Bool :=
  match s.test 1 with
  | some t => t.line.group = 1 ∧ s.line t.line = { condition := .testing .idle, tone := .none } ∧ t.kind = kind ∧
      t.phase = phase
  | none => false

/-- What the clauses about the sample of a test order ask of the port. -/
def testHolds (s : State) : Bool :=
  ((s.group 1).port.any fun o => o.owner = .test ∧ o.fate = .live) ∧ (s.group 1).restartPass = false

theorem witness_TestEventsActOnTest_dwell :
    (let s := testing .openWire .dwell .none (some { length := 500, due := 1000 }) [(2300, 230)]
     testStands s .openWire .dwell = true ∧ (s.group 1).port = none ∧
     (∃ t ∈ s.test 1, t.dwell.isSome = true)) ∧
    testStands (testing .insulation .sourceDwell .none (some { length := 500, due := 1000 }) []) .insulation
      .sourceDwell = true ∧
    (∃ t ∈ (measuring .openWire .measureBefore []).test 1, t.dwell = none) ∧
    LineId.group 10 = 1 ∧ (10 : LineId) ≠ 9 := by decide +kernel

theorem witness_TestEventsActOnTest_samples :
    (testStands (measuring .openWire .measureBefore []) .openWire .measureBefore &&
      testHolds (measuring .openWire .measureBefore []) &&
      testStands (measuring .openWire .measureAfter [(2300, 230)]) .openWire .measureAfter &&
      testStands (measuring .insulation .measure []) .insulation .measure &&
      testStands (measuring .pathCheck .measureMain []) .pathCheck .measureMain &&
      testStands (measuring .pathCheck .measureCheck [(2301, 231)]) .pathCheck .measureCheck &&
      testHolds (measuring .pathCheck .measureCheck [(2301, 231)])) = true ∧
    (measuring .insulation .measure []).orderEnds 1 (.orderReady 1 false 2400 300 true) =
      some (some (2400, 300)) ∧
    (measuring .insulation .measure []).orderEnds 1 (.orderReadyTimeout 1) = some none ∧
    ((measuring .pathCheck .measureCheck [(2301, 231)]).group 1).health = .scanning ∧
    ((measuring .pathCheck .measureCheck [(2301, 231)]).group 1).discrepancyRun = 0 := by decide +kernel

/-- A part whose mains are lost while a test of group 1 has its order out. -/
def mainsLostTesting : State :=
  { measuring .openWire .measureAfter [(2300, 230)] with
    mainsOk := { level := false, taken := true, debounce := some { length := 2000, due := 1000 } } }

theorem witness_InputsFormPowerState_tests : (∀ g, mainsLostTesting.testStands g) ∧
    mainsLostTesting.power = .normal ∧ (mainsLostTesting.test 1).isSome = true := by
  unfold State.testStands; decide +kernel

/-- The state of each clause about a test has its test stand; the dwell ends with the port free and in use. -/
theorem witness_TestEventsActOnTest_stands :
    (∀ s ∈ [testing .openWire .dwell .none (some { length := 500, due := 1000 }) [(2300, 230)],
        measuring .openWire .measureAfter [(2300, 230)], measuring .insulation .measure [],
        measuring .pathCheck .measureMain [], dwelling], s.testStands 1) ∧
    (dwelling.group 1).port.isSome = true ∧ (∃ t ∈ dwelling.test 1, t.dwell.isSome = true) := by
  unfold State.testStands; decide +kernel

theorem witness_TestEventsActOnTest_counts :
    ∀ x ∈ [(GroupHealth.scanning, 0, 0), (.scanning, 1, 0), (.pathFault, 0, 2), (.pathFault, 0, 3)],
      let s := checkingTest x.1 x.2.1 x.2.2
      s.testStands 1 ∧ testHolds s = true ∧
      ∃ t ∈ s.test 1, t.phase = .measureCheck ∧ t.samples = [(2301, 231)] ∧
        (s.group 1).health = x.1 ∧ (s.group 1).discrepancyRun = x.2.1 ∧ (s.group 1).agreementRun = x.2.2 := by
  unfold State.testStands; decide +kernel

/-! ### Witnesses: store, register order and queues -/

theorem witness_StoreWriteEndsHandOnNext :
    (∃ w ∈ (storeFull ready).writes.head?, w.writing.isSome = true) ∧
    (∃ w ∈ ({ ready with writes := [writingBearer] } : State).writes.head?, w.writing.isSome = true) := by
  decide +kernel

theorem witness_RegisterOrderRanksCalls : (busy.records.map (·.line)).Nodup ∧ busy.records.length = 2 := by
  decide +kernel

/-- A link controller with eight notices of class 2 waiting. -/
def fullQueue (last : Message) : LinkController :=
  { LinkController.initial with
    transmit := .sending (.notice .dutyResumed) [], submissions := 8
    queue := (List.range 7).map (fun k => ⟨.notice .dutyResumed, k, false⟩) ++ [⟨last, 7, false⟩] }

/-- A link controller with room, in which the offer of call 1 waits between two notices and the offers of calls 2 and
3 are lost. -/
def roomyQueue (transmit : Transmit) : LinkController :=
  { LinkController.initial with
    transmit := transmit, submissions := 3, lostOffers := [2, 3]
    queue := [⟨.notice (.callTaken 9 9 .a), 0, true⟩, ⟨.notice (.callOffer (offerOf (call 1 5))), 1, false⟩,
      ⟨.notice (.groupSilent 1), 2, false⟩] }

theorem witness_FullQueueDiscardsLast_room :
    (let k := roomyQueue (.sending (.notice .dutyResumed) [])
     k.queue.length < 8 ∧ k.transmit ≠ .idle ∧ (∃ e ∈ k.queue, e.msg.offerId = some 1) ∧ 1 ∉ k.lostOffers ∧
     (∀ id ∈ [2, 4], ¬ ∃ e ∈ k.queue, e.msg.offerId = some id) ∧ 2 ∈ k.lostOffers ∧ 4 ∉ k.lostOffers) ∧
    LinkController.initial.transmit = .idle ∧ LinkController.initial.queue = [] ∧
    (Message.notice (.callOffer (offerOf (call 2 6)))).offerId = some 2 := by decide +kernel
theorem roomyQueue_ordered : (roomyQueue (.sending (.notice .dutyResumed) [])).Ordered := by
  unfold LinkController.Ordered; decide +kernel

theorem witness_BreakEndClearsLink_both :
    (let k := { roomyQueue (.sending (.notice .dutyResumed) []) with lostOffers := [1] }
     (∃ e ∈ k.queue, e.msg.offerId = some 1) ∧ 1 ∈ k.lostOffers) := by decide +kernel

/-- A duty notice stands behind the call notices and before the condition notices (R157). -/
theorem test_room_in_class_order :
    ((roomyQueue (.sending (.notice .dutyResumed) [])).enqueue (.notice .handoverDone) false).queue.map
      (·.msg.cls) = [1, 1, 2, 3] := by decide +kernel

/-- A leave takes the offer that waits, takes a lost id with no follow-up, and otherwise sends it (R161). -/
theorem test_leaves :
    [1, 2, 4].map (fun id =>
      let k := (roomyQueue (.sending (.notice .dutyResumed) [])).leave id (some (.callTaken id 5 .b)) 0
      (k.queue.length, k.lostOffers)) = [(2, [2, 3]), (3, [3]), (4, [2, 3])] := by decide +kernel

theorem fullQueue_ordered : (fullQueue (.notice (.groupSilent 1))).Ordered ∧
    (fullQueue (.notice .dutyResumed)).Ordered := by
  unfold LinkController.Ordered; decide +kernel

theorem witness_FullQueueDiscardsLast : (fullQueue (.notice (.groupSilent 1))).Ordered ∧
    (fullQueue (.notice .dutyResumed)).Ordered ∧ (fullQueue (.notice (.groupSilent 1))).queue.length = 8 ∧
    (∃ e ∈ (fullQueue (.notice (.groupSilent 1))).queue.getLast?,
      (Message.notice (.callOffer (offerOf (call 1 5)))).cls < e.msg.cls ∧
      offerWaits (fullQueue (.notice (.groupSilent 1))).queue 1 = false ∧ e.msg.offerId = none) ∧
    (∃ e ∈ (fullQueue (.notice .dutyResumed)).queue.getLast?,
      e.msg.cls ≤ (Message.notice (.groupSilent 2)).cls) :=
  ⟨fullQueue_ordered.1, fullQueue_ordered.2, by decide +kernel, by decide +kernel, by decide +kernel⟩

/-! ### Witnesses: the invariants -/

/-- A part in which A holds call 1, B is offered call 2, and A's next command waits to be taken. -/
def busyNext : State := { busy with pending := [.hold .a [1]] }

theorem busyNext_queues : busyNext.linkA.Ordered ∧ busyNext.linkB.Ordered ∧ busyNext.linkS.Ordered := by
  unfold LinkController.Ordered; decide +kernel
theorem busyNext_scores : busyNext.centreA.Sound ∧ busyNext.centreB.Sound ∧ busyNext.QuietWhenLost .a ∧
    busyNext.QuietWhenLost .b := by
  unfold CentreControl.Sound State.QuietWhenLost; decide +kernel
theorem busyNext_links : InvLinks busyNext :=
  ⟨busyNext_queues.1, busyNext_queues.2.1, busyNext_queues.2.2, busyNext_scores⟩
theorem busyNext_duty : InvDuty busyNext := by unfold InvDuty; decide +kernel
theorem busyNext_store : InvStore busyNext := by unfold InvStore; decide +kernel
theorem busyNext_supply : InvSupply busyNext := by unfold InvSupply InputState.Sound; decide +kernel
theorem busyNext_load : InvLoad busyNext := by unfold InvLoad State.loading State.unread; decide +kernel
theorem busyNext_sound (g : GroupId) : (busyNext.group g).Sound := by
  revert g; unfold GroupRecord.Sound; decide +kernel
theorem busyNext_live (g : GroupId) : (busyNext.group g).Live := by
  revert g; unfold GroupRecord.Live; decide +kernel
theorem busyNext_port (g : GroupId) : busyNext.PortSound g ∧ busyNext.TestSound g := by
  revert g; unfold State.PortSound State.TestSound; decide +kernel
theorem busyNext_scan : InvScan busyNext := by
  refine ⟨fun g => ⟨busyNext_sound g, busyNext_live g, busyNext_port g⟩, ?_⟩
  unfold State.loading; decide +kernel
theorem busyNext_captures : InvCaptures busyNext := by unfold InvCaptures; decide +kernel
theorem busyNext_classifiers : InvClassifiers busyNext := by
  unfold InvClassifiers Classifier.Sound State.unread; decide +kernel

/-- The invariant holds of a part in the middle of its work. -/
theorem busyNext_inv : Inv busyNext :=
  ⟨busyNext_links, busyNext_duty, busyNext_store, busyNext_supply, busyNext_load, busyNext_scan, busy_ids,
    busy_calls, busy_channels, busyNext_captures, busy_lines, busyNext_classifiers⟩

theorem witness_StepKeepsLinks : InvLinks busyNext ∧ ∃ t, step busyNext = .next t :=
  ⟨busyNext_links, _, rfl⟩
theorem witness_StepKeepsStoreAndSupply : InvStore busyNext ∧ InvSupply busyNext ∧ ∃ t, step busyNext = .next t :=
  ⟨busyNext_store, busyNext_supply, _, rfl⟩
theorem witness_StepKeepsScanAndTests : Inv busyNext ∧ ∃ t, step busyNext = .next t := ⟨busyNext_inv, _, rfl⟩
theorem witness_StepKeepsRegister : Inv busyNext ∧ ∃ t, step busyNext = .next t := ⟨busyNext_inv, _, rfl⟩
theorem witness_StepKeepsLines : Inv busyNext ∧ ∃ t, step busyNext = .next t := ⟨busyNext_inv, _, rfl⟩

/-! ### One step of each command -/

/-- A field of the call record with an id. -/
def ofCall {α : Type} (s : State) (id : CallId) (f : CallRecord → α) : Option α := (s.recordById id).map f

/-- R33 and R177: 70000 ms are 0x00011170, and 2^32 ms are the free value. -/
theorem test_park_bytes : parkBytes 70000 = [0#8, 1#8, 0x11#8, 0x70#8] ∧
    parkBytes (2 ^ 32) = bytes4 (Config.longPark (2 ^ 32)).toNat := ⟨by decide, rfl⟩

theorem test_coldStart : (after ready (.coldStart false true false)).power = .reserve := by decide +kernel
theorem test_storeReadCompletion :
    (let t := after (loading 3) (.storeReadCompletion false (goodRead (.bearer 1 6)))
     (t.bearer, t.load.map (·.read))) = (⟨1, 6⟩, some 4) := by decide +kernel
theorem test_storeReadCompletion_last : (after (loading 79) (.storeReadCompletion false badRead)).reportPendingS =
    true := by decide +kernel
/-- The last read sets line 63 as any read sets its line (R32, R172). -/
theorem test_storeReadCompletion_line63 :
    (let t := after (loading 79) (.storeReadCompletion false (goodRead (.line rawEntry)))
     ((t.line 63).condition, (t.entry 63).marker, (t.classifier 63).confirmed, t.load)) =
      (.idle, 312, .unknown, none) := by decide +kernel
theorem test_storeReadTimeout : (after (loading 8) .storeReadTimeout).load.map (·.report.groups) = some 1 := by
  decide +kernel
theorem test_inputChange : (after ready (.inputChange .key true)).key.debounce.map (·.length) = some 50 := by
  decide +kernel
theorem test_debounceExpiry : (after mainsLost (.debounceExpiry .mainsOk)).power = .economy := by decide +kernel
theorem test_passTimerExpiry : (after ready (.passTimerExpiry 1)).orders = [.measure 1 .feed .main] := by
  decide +kernel
theorem test_orderReady :
    (let t := after (scanning .feed) (.orderReady 1 false 2870 0 true); ((t.group 1).vf, t.orders)) =
      (some 2870, [.measure 1 (.position 0) .main]) := by decide +kernel
/-- The third no-sample of section 1.4: SILENT, and a probe delay of 100 ms. -/
theorem test_orderReadyTimeout :
    (let r := (after (failing (.line 5) 2 none) (.orderReadyTimeout 1)).group 1
     (r.health, r.probeDelay.map (·.length))) = (.silent, some 100) := by decide +kernel
/-- In READY the settle end ends nothing (R4, R5). -/
theorem test_fixedSettleEnd : (after (scanning .feed) (.fixedSettleEnd 1 1 0 true)).groups =
    (scanning .feed).groups := by decide +kernel
theorem test_probeDelayExpiry :
    (after (ready.setGroup 5 { waitingGroup with
      pass := .stopped, health := .silent, probeDelay := some { length := 100, due := 1000 } })
      (.probeDelayExpiry 5)).orders = [.measure 5 (.position 0) .main] := by decide +kernel
theorem test_parkTimerExpiry : (after mixed (.parkTimerExpiry 3)).linkA.transmit.message? =
    some (.notice (.handsetOff 3 300)) := by decide +kernel
theorem test_ringTimerExpiry :
    (let t := after ringing (.ringTimerExpiry 5); ((t.line 5).condition, t.channel 0)) = (.idle, .free) := by
  decide +kernel
theorem test_identityBurst :
    (let t := after capturing (.identityBurst 5 [0x07, 0x01, 0x38, 0x00, 0x58] true)
     ofCall t 1 fun r => (r.identity, r.check)) = some (some 0x070138, .notExpected) := by decide +kernel
/-- A burst that was under way when the receiver began to listen is bad (R53). -/
theorem test_identityBurst_late :
    (after capturing (.identityBurst 5 [0x07, 0x01, 0x38, 0x00, 0x58] false)).captures = capturing.captures := by
  decide +kernel
/-- A burst on a line that waits for its receiver is not heard (R56). -/
theorem test_identityBurst_waiting :
    (after capturingBehind (.identityBurst 6 [0x07, 0x01, 0x38, 0x00, 0x58] true)).captures =
      capturingBehind.captures := by decide +kernel
theorem test_windowTimerExpiry : (ofCall (after capturing (.windowTimerExpiry 5)) 1 fun r =>
    (r.check, r.offered)) = some (.notReceived, ⟨true, false⟩) := by decide +kernel
theorem test_escalationTimerExpiry :
    (ofCall (after (timed (offeredTo .a (call 1 5))) (.escalationTimerExpiry 1)) 1 fun r =>
      (r.offered, r.flags.escalated)) = some (⟨true, true⟩, true) := by decide +kernel
theorem test_overdueTimerExpiry :
    (ofCall (after (timed (call 1 5)) (.overdueTimerExpiry 1)) 1 fun r => r.flags.overdue) = some true := by
  decide +kernel
theorem test_transferTimerExpiry :
    (ofCall (after (timed (offeredTo .a { call 1 5 with origin := some .b })) (.transferTimerExpiry 1)) 1 fun r =>
      (r.offered, r.origin)) = some (⟨true, true⟩, some .b) := by decide +kernel
theorem test_longCallTimerExpiry :
    (ofCall (after (timed (connectedTo .a 0 (call 1 5))) (.longCallTimerExpiry 1)) 1 fun r => r.longCall) =
      some true := by decide +kernel
theorem test_dwellTimerExpiry :
    (after (testing .openWire .dwell .none (some { length := 500, due := 1000 }) [(2300, 230)])
      (.dwellTimerExpiry 1)).orders = [.measure 1 (.position 1) .main] := by decide +kernel
theorem test_testTimeLimit :
    (let t := after (measuring .openWire .measureBefore []) (.testTimeLimit 1)
     ((t.line 9).condition, t.test 1)) = (.idle, none) := by decide +kernel
theorem test_hookSense : (after (measuring .openWire .measureBefore []) (.hookSense 9)).linkA.transmit.message? =
    some (.notice (.testResult ⟨9, .openWire, .aborted .call, .scanning, 500⟩)) := by decide +kernel
theorem test_storeWriteCompletion : (after (storeFull ready) (.storeWriteCompletion false true)).writes.length =
    3 := by decide +kernel
theorem test_storeWriteTimeout : (after (storeFull ready) .storeWriteTimeout).linkS.transmit.message? =
    some (.notice (.storeFault .bearer)) := by decide +kernel
/-- A bad frame costs 8 points: 120 becomes 128, FAILING (R152). -/
theorem test_frameBad : (after (withHealth ready .a 120 0) (.frameBad .a [0])).centreA.health = .failing := by
  decide +kernel
theorem test_frameTimerExpiry :
    (let t := after receiving (.frameTimerExpiry .a); (t.linkA.receive, t.centreA.score)) = (.hunt, 8) := by
  decide +kernel
/-- The loss of the claimant makes call 1 an orphan, offered to B (R120). -/
theorem test_silenceTimerExpiry : (ofCall (after busy (.silenceTimerExpiry .a)) 1 fun r =>
    (r.state, r.offered, r.flags.orphan)) = some (.offered, ⟨false, true⟩, true) := by decide +kernel
theorem test_breakRecognised : (after receiving (.breakRecognised .a)).linkA.receive = .brk false := by
  decide +kernel
theorem test_breakLong :
    (let t := after (busy.setReceive .a (.brk false)) (.breakLong .a); (t.centreA.score, t.linkA.receive)) =
      (256, .brk true) := by decide +kernel
theorem test_breakEnd : (after (breaking (.notice .dutyResumed)) (.breakEnd .a)).linkA.resync = true := by
  decide +kernel
theorem test_transmissionComplete :
    (after (sending [⟨.notice .dutyResumed, 0, false⟩]) (.transmissionComplete .a)).linkA.transmit =
      .sending (.notice .dutyResumed) (frameOf 0xA2 []) := by decide +kernel
theorem test_unknownCommand : replyOf (after ready (.unknownCommand .a 0x1D [])) .a = some .unknownCommand := by
  decide +kernel
/-- KEEPALIVE is answered during the start-up (R150). -/
theorem test_keepalive : replyOf (after State.reset (.keepalive .a [])) .a = some .ok := by decide +kernel
/-- The reply of a list of two calls: the counts, then two summaries of 9 bytes (R99, R100). -/
theorem test_listCalls : (match (after busy (.listCalls .a [0])).linkA.transmit.message? with
    | some (.reply _ .ok fields) => (fields.take 3, fields.length)
    | _ => ([], 0)) = ([2, 0, 2], 21) := by decide +kernel
theorem test_listAbandoned : (match (after crowded (.listAbandoned .a [0])).linkA.transmit.message? with
    | some (.reply _ .ok fields) => fields
    | _ => []) = [1, 1, 1, 9, 7, 0, 0, 0, 1, 0, 0] := by decide +kernel
theorem test_lineStatus : replyOf (after ready (.lineStatus .a [64])) .a = some .badValue := by decide +kernel
theorem test_readDirectory : replyOf (after mixed (.readDirectory .a [0])) .a = some .lineNotFitted := by
  decide +kernel
theorem test_readProfile : (match (after ready (.readProfile .a [3])).linkA.transmit.message? with
    | some (.reply _ .ok fields) => fields.take 6
    | _ => []) = [0, 3, 0, 100, 7, 8] := by decide +kernel
theorem test_readGroup : (match (after ready (.readGroup .a [7])).linkA.transmit.message? with
    | some (.reply _ .ok fields) => fields
    | _ => []) = [8, 3, 1, 0, 1, 0x0B, 0x36, 0, 0, 0, 0] := by decide +kernel
theorem test_setWatch : (after ready (.setWatch .s [1, 1, 7, 0, 5, 0, 9])).linkS.watch =
    ⟨.ranges, [⟨7, 5, 9⟩]⟩ := by decide +kernel
theorem test_claim :
    (let t := after offering (.claim .b [1])
     (ofCall t 1 fun r => (r.claimant, r.channel), t.linkA.transmit.message?)) =
      (some (some .b, some 0), some (.notice (.callTaken 1 5 .b))) := by decide +kernel
/-- Link S may not claim (R151). -/
theorem test_claim_linkS : replyOf (after offering (.claim .s [1])) .s = some .notPermitted := by decide +kernel
theorem test_answerNext : replyOf (after ready (.answerNext .a [])) .a = some .noCallWaiting := by decide +kernel
theorem test_hold :
    (let t := after busy (.hold .a [1]); (t.channel 0, (t.line 5).tone)) = (.free, .hold) := by decide +kernel
theorem test_retrieve : (after holding (.retrieve .a [1])).channel 0 = .connected 5 .a 1 := by decide +kernel
theorem test_release :
    (let t := after busy (.release .a [1]); ((t.line 5).condition.code, (t.line 5).tone, t.records.length)) =
      (6, .clear, 1) := by decide +kernel
theorem test_transfer : (ofCall (after busy (.transfer .a [1])) 1 fun r => (r.offered, r.origin)) =
    some (⟨false, true⟩, some .a) := by decide +kernel
theorem test_ringPost : (after ready (.ringPost .b [5])).channel 0 = .reserved 5 .b := by decide +kernel
theorem test_cancelRing : replyOf (after ready (.cancelRing .a [5])) .a = some .wrongState := by decide +kernel
theorem test_dismiss :
    (let t := after crowded (.dismiss .a [9]); (t.abandoned, t.overflowed)) = ([], false) := by decide +kernel
theorem test_handoverRequest :
    (let t := after busy (.handoverRequest .a []); t.centreA.duty) = .handingOver := by decide +kernel
theorem test_resume : (ofCall (after standby (.resume .a [])) 1 fun r => r.offered) = some ⟨true, false⟩ := by
  decide +kernel
/-- A link that resumes unheard calls a STANDBY partner that is heard back to duty (R104, R125). -/
theorem test_resume_unheard :
    (let t := after (unheard 0 .standby) (.resume .a [])
     (t.centreA.duty, t.centreB.duty, ofCall t 1 fun r => r.offered)) =
      (.active, .active, some ⟨false, true⟩) := by decide +kernel
/-- The escalation of a call offered to both links sets its flag alone (R109). -/
theorem test_escalation_both :
    (let s := timed (offeredTo .b (offeredTo .a (call 1 5)))
     let t := after s (.escalationTimerExpiry 1)
     (ofCall t 1 fun r => r.flags.escalated) = some true ∧ t.linkA = s.linkA ∧ t.linkB = s.linkB) := by
  decide +kernel
theorem test_setServiceOut :
    (let t := after ready (.setServiceOut .a [5, 1]); ((t.line 5).condition, (t.entry 5).inService)) =
      (.outOfService, false) := by decide +kernel
theorem test_setServiceIn : ((after mixed (.setServiceIn .a [1, 0])).line 1).condition = .idle := by
  decide +kernel
theorem test_testLine : (after ready (.testLine .a [9, 1])).orders = [.hookSense 9 true, .testSource 9 true] := by
  decide +kernel
/-- The INSULATION test of line 19 in section 9.3 passes at 8000 ohms. -/
theorem test_testLine_worked :
    (after (measuring .insulation .measure []) (.orderReady 1 false 2400 300 true)).linkA.transmit.message? =
    some (.notice (.testResult ⟨9, .insulation, .pass 2400 300 (some 2870) 8000, .scanning, 500⟩)) := by
  decide +kernel
theorem test_writeDirectory : ((after mixed (.writeDirectory .a (directoryBody 1 1 65))).entry 1).label = [65] := by
  decide +kernel
theorem test_writeProfile : ((after ready (.writeProfile .a (profileBody 3 12000))).profile 3).cOffhook = 31 := by
  decide +kernel
theorem test_setGroup :
    (let t := after partFitted (.setGroup .a [7, 8, 3, 1]); ((t.line 60).condition, (t.entry 60).inService)) =
      (.outOfService, false) := by decide +kernel
/-- SET_ACCEPTANCE returns the whole working copy (R69): four entries of 7 bytes. -/
theorem test_setAcceptance_reply : (match (after ready (.setAcceptance .a [3, 8, 1, 0, 255, 255, 0, 1])).linkA.transmit.message? with
    | some (.reply _ .ok fields) => fields
    | _ => []) = List.replicate 21 0 ++ [8, 1, 0, 255, 255, 0, 1] := by decide +kernel
theorem test_setAcceptance : ((after ready (.setAcceptance .a [3, 8, 1, 0, 255, 255, 0, 1])).acceptance[3]) =
    ⟨0x080100, 0xFFFF00, true⟩ := by decide +kernel
theorem test_setCallTimers :
    (let t := (after ready (.setCallTimers .a [0, 1, 0, 60, 255, 255, 1, 44, 0, 30])).timers
     (t.escalate, t.longCall)) = (5, 7200) := by decide +kernel
theorem test_setBearer : (after ready (.setBearer .a [0, 9])).bearer = ⟨1, 6⟩ := by decide +kernel
theorem test_restart : (after ready (.restart .a [])).window = some .a := by decide +kernel
theorem test_restart_taken :
    (let t := after restarting (.transmissionComplete .a)
     (t.records, t.abandoned.map (·.id), t.linkB.resync, t.tick)) = ([], [2], true, 0) := by decide +kernel
theorem test_syncByteReceived : (after ready (.syncByteReceived .s)).linkS.receive =
    .frame { length := 100, due := 1100 } := by decide +kernel

/-! ### Steps and rules over several blocks -/

/-- A tick is ten idle milliseconds (section 5.3, assumption 2). -/
theorem test_idle_tick : (match step { ready with subTick := 9 } with
    | .next t => (t.tick, t.subTick)
    | _ => (0, 0)) = (101, 0) := by decide +kernel

/-- Step 2 of the crowded queue of section 10.4: a reply takes the place of the last entry. -/
theorem test_crowded_queue : (let k := (fullQueue (.notice (.groupSilent 1))).enqueue (.reply Command.keepalive .ok []) false
    (k.queue.head?.map (·.msg.cls), k.queue.length, k.resync)) = (some 0, 8, true) := by decide +kernel

/-- A CALL_OFFER takes its id out of the lost-offer set, also when it merges with one that waits (R160). -/
theorem test_offer_leaves_lost_set :
    (let m : Message := .notice (.callOffer (offerOf (call 1 5)))
     let k := { fullQueue m with lostOffers := [1, 2] }.enqueue m false
     (k.lostOffers, k.queue.length, k.resync)) = ([2], 8, false) := by decide +kernel

/-- A cold start opens the crosspoint: the point of each CONNECTED channel is broken (R126). -/
theorem test_coldStart_crosspoint : (after busy (.coldStart true false false)).orders =
    [.breakPoint 0 5, .storeRead .acceptance] := by decide +kernel

/-- The line that the displaced call of the worked choice leaves QUEUED, and the new record (R89, R90). -/
theorem test_displacement :
    (let t := (fullRinging true).classChange 60 .offhook
     ((t.line 2).condition, (t.line 60).condition, t.overflow.map (·.line), t.records.length)) =
      (.queued, .inCall, [2, 40], 16) := by decide +kernel

/-- A move into FAILING calls a STANDBY partner back, which is offered the escalated call (R104, R109). -/
theorem test_fallback :
    (let t := after (weakening .standby) (.frameBad .a [0])
     (t.centreB.duty, t.records.map fun r => (r.offered, r.flags.escalated))) =
      (.active, [(⟨true, true⟩, true), (⟨false, true⟩, false)]) := by decide +kernel

/-- The hang-up of the last call of a link that is handing over completes the handover: call 2 goes on to B, and
the queue of A has CALL_ENDED, CALL_WITHDRAWN and HANDOVER_DONE (R123). -/
theorem test_handover_completes :
    (let t := handing.classChange 5 .idle
     ((t.centre .a).duty, t.records.map fun r => (r.id, r.offered, r.origin))) =
      (.standby, [(2, ⟨false, true⟩, some .b)]) ∧
    (handing.classChange 5 .idle).linkA.queue.map (·.msg) =
      [.notice (.callWithdrawn 2 6 .handover), .notice .handoverDone] := by decide +kernel

/-- The loss of A: its call is an orphan offered to B, its offers go on to B, a call transferred by it stays there as
an orphan, and a STANDBY B is called back first and takes the waiting one (R104, R120, R121). -/
theorem test_lost_link_passes_on :
    (let t := after (losing 0 .standby) (.silenceTimerExpiry .a)
     (t.centreB.duty, t.records.map fun r => (r.id, r.offered, r.flags.orphan, r.origin))) =
      (.active, [(1, ⟨false, true⟩, true, none), (2, ⟨false, true⟩, false, none), (3, ⟨false, true⟩, false, none),
        (4, ⟨false, true⟩, false, some .b), (5, ⟨false, true⟩, true, none), (6, ⟨false, true⟩, false, none)]) := by
  decide +kernel

/-- With B not heard the orphan and the former offers of A wait (R120, R121). -/
theorem test_lost_link_leaves_waiting :
    ((after (losing 200 .standby) (.silenceTimerExpiry .a)).records.map fun r => (r.id, r.state)) =
      [(1, .waiting), (2, .waiting), (3, .offered), (4, .waiting), (5, .offered), (6, .waiting)] := by
  decide +kernel

/-- A promoted entry with a result is resolved and offered at once, and OVERDUE when its moment has passed (R88,
R106, R107). -/
theorem test_promotion :
    (let t := after (fullBehind (100 - 6000) (some serviceBurst)) (.release .a [16])
     ofCall t 17 fun r => (r.check, r.offered, r.flags.overdue)) =
      some (.serviceRefused, ⟨true, false⟩, true) := by decide +kernel

/-- The overdue timer of a promoted record runs to the moment 60 s after its arrival (R88, R106). -/
theorem test_promotion_timer :
    (let t := after (fullBehind 0 none) (.release .a [16])
     ofCall t 17 fun r => (r.state, r.flags.overdue, r.overdueTimer.map (·.due))) =
      some (.identifying, false, some 60000) := by decide +kernel

/-- A warm restart abandons the call that waits and the two overflow entries; the first finds id 18 held, as
assumption 41 says, and the full list discards its three oldest entries (R93 to R95, R102). -/
theorem test_restart_abandons :
    (let t := after restartingFull (.transmissionComplete .a)
     (t.abandoned.map (·.id), t.overflowed, (t.abandoned.drop 13).map fun e => (e.line, e.category))) =
      ([20, 21, 22, 23, 24, 25, 26, 27, 28, 29, 30, 31, 32, 3, 33, 34], true,
        [(2, .emergency), (40, .emergency), (41, .emergency)]) := by decide +kernel

/-- A pass that ends with its timer expired is followed by the next at once (R7). -/
theorem test_next_pass_at_once :
    (let s := scanningLast false
     let t := after (s.setGroup 1 { s.group 1 with passTimer := none }) (.orderReady 1 false 2300 230 true)
     ((t.group 1).pass, (t.group 1).passTimer.map (·.length), t.orders)) =
      (.inPass, some 100, [.measure 1 .feed .main]) := by decide +kernel

/-- The freed port takes the order of the test before the scanner's (R3). -/
theorem test_test_order_first :
    (let t := after (contending (.line 2) 0) (.orderReady 1 false 2300 230 true)
     (t.orders, (t.group 1).scanWaiting, (t.test 1).map (·.order))) =
      ([.measure 1 (.position 1) .main], some (.line 3), some .placed) := by decide +kernel

/-- The second disagreement in a row of a path check test raises PATH_FAULT, and the fourth agreement clears it; the
scanner's order that waits is placed (R3, R11, R141). -/
theorem test_path_check_counts :
    (let t := after (checkingTest .scanning 1 0) (.orderReady 1 false 2301 300 true)
     ((t.group 1).health, t.test 1, t.orders)) =
      (.pathFault, none, [.hookSense 9 false, .measure 1 (.position 2) .main]) ∧
    ((after (checkingTest .pathFault 0 3) (.orderReady 1 false 2301 231 true)).group 1).health = .scanning := by
  decide +kernel

/-- A test ends ABORTED with GROUP, after GROUP_SILENT (assumption 49), and with POWER (R145, R146). -/
theorem test_tests_aborted :
    ((after (contending (.line 2) 2) (.orderReadyTimeout 1)).linkA.queue.map (·.msg),
      (after (contending (.line 2) 2) (.orderReadyTimeout 1)).linkA.transmit.message?) =
      ([.notice (.testResult ⟨9, .pathCheck, .aborted .group, .silent, 500⟩)], some (.notice (.groupSilent 1))) ∧
    ((after mainsLostTesting (.debounceExpiry .mainsOk)).linkA.queue.map (·.msg),
      (after mainsLostTesting (.debounceExpiry .mainsOk)).orders) =
      ([.notice (.testResult ⟨9, .openWire, .aborted .power, .scanning, 500⟩)],
        [.sink 9 false, .hookSense 9 false]) := by decide +kernel

/-- The window of a line that waits for its receiver ends without the receiver (R57). -/
theorem test_window_of_waiting_line :
    (let t := after capturingBehind (.windowTimerExpiry 6)
     (t.receiver 0, t.orders, ofCall t 2 fun r => r.check)) =
      ({ listening := some 5, waiting := [] }, [], some .notReceived) := by decide +kernel

/-- A counter that stands at a held id goes on to the next free one (R84). -/
theorem test_next_id :
    (let t := State.classChange { busy with idCounter := 1 } 7 .offhook
     (t.records.map (·.id), t.idCounter)) = ([1, 2, 3], 4) := by decide +kernel

/-- A line that is not fitted has its entry OUT, from the cold start on (R68). -/
theorem test_entry_out : (State.reset.entry 63).inService = false := by decide +kernel

/-- A link that returns from FAILING is offered the call that waits; a STANDBY one is called back (R104, R108). -/
theorem test_link_returns : ∀ duty ∈ [Duty.active, .standby],
    (let t := after (strengthening duty) (.unknownCommand .a 0x1D [])
     ((t.centre .a).duty, t.records.map (·.offered))) = (.active, [⟨true, false⟩]) := by decide +kernel

/-- An orphan ranks before a call of a higher category (R83). -/
theorem test_register_order :
    ({ ready with records :=
      [call 1 5, { call 2 6 with category := .recall, flags := { (call 2 6).flags with orphan := true } }] } :
        State).registerOrder.map (·.id) = [2, 1] := by decide +kernel

end Sys2Proof.Tests
end

/-! PROOFS. The thresholds of the loop classifier and the raw class of a resistance (R18, R23 to R25). -/

namespace Sys2Proof.Proofs

open Sys2Proof Sys2Proof.Machine

/-! ### The limits of R18, R23 and R24 -/

/-- The ranges and relations of R18, as inequalities that arithmetic can use. -/
theorem profileRelated_iff (p : Profile) : profileRelated p = true ↔
    1 ≤ p.short ∧ p.short < p.offMax ∧ p.offMax < 2000 ∧ 2000 ≤ p.leak ∧ p.leak ≤ p.term ∧
      p.term ≤ p.idleHi ∧ p.idleHi ≤ 65000 ∧ p.idleHi < p.opn ∧ p.opn ≤ 65534 ∧ p.hyst ≤ 1000 := by
  simp [profileRelated, and_assoc]

/-- The off-hook band ends below the idle band, whatever the profile and the tracked resistance. -/
theorem offLimit_lt_bandLow (p : Profile) (k : Classifier) : offLimit p k < bandLow p k :=
  le_max_left (offLimit p k + 1) _

/-- The bottom of the idle band with the two cases of R24 apart. -/
theorem bandLow_eq_ite (p : Profile) (k : Classifier) : bandLow p k =
    if k.confirmed = .idle then max (offLimit p k + 1) (3 * k.rTrack / 4 - p.hyst)
    else max (offLimit p k + 1) (3 * k.rTrack / 4) := by
  unfold bandLow
  split <;> rfl

/-- Every threshold of a related profile lies below the 65535 of a sample with no current. -/
theorem thresholds_lt_noCurrent {p : Profile} {k : Classifier} (hp : profileRelated p = true)
    (ht : k.rTrack ≤ p.idleHi) :
    p.short ≤ Config.noCurrent ∧ bandLow p k ≤ Config.noCurrent ∧ bandHigh p k < Config.noCurrent ∧
      p.opn < Config.noCurrent := by
  obtain ⟨-, hshort, hoffMax, -, -, -, hidleHi, -, hopn, hhyst⟩ := (profileRelated_iff p).1 hp
  have hoff : offLimit p k ≤ p.offMax + p.hyst := by
    unfold offLimit
    split <;> omega
  have hlow : bandLow p k ≤ max (offLimit p k + 1) k.rTrack := by
    unfold bandLow
    omega
  have hhigh : bandHigh p k ≤ 65534 := by
    unfold bandHigh
    split <;> omega
  unfold Config.noCurrent
  omega

/-! ### What the hysteresis does to the limits -/

/-- Confirmed OFFHOOK raises the off-hook limit (R23). -/
theorem offLimit_unknown_le_offhook (p : Profile) (k : Classifier) :
    offLimit p { k with confirmed := .unknown } ≤ offLimit p { k with confirmed := .offhook } := by
  simp [offLimit]

/-- Confirmed IDLE lowers the bottom of the idle band (R24). -/
theorem bandLow_idle_le_unknown (p : Profile) (k : Classifier) :
    bandLow p { k with confirmed := .idle } ≤ bandLow p { k with confirmed := .unknown } :=
  max_le_max le_rfl (Nat.sub_le_sub_left (Nat.zero_le p.hyst) _)

/-- Confirmed IDLE raises the top of the idle band, also where 65534 caps it (R24). -/
theorem bandHigh_unknown_le_idle {p : Profile} (k : Classifier) (hp : p.idleHi ≤ 65534) :
    bandHigh p { k with confirmed := .unknown } ≤ bandHigh p { k with confirmed := .idle } :=
  le_min hp (Nat.le_add_right _ _)

/-! ### The list of R25 -/

/-- The condition under which R25 gives a resistance a class, with the entries before it in the list ruled out;
FOREIGN is no class of a resistance (R21). -/
def InClass (p : Profile) (k : Classifier) (r : Nat) : RawClass → Prop
  | .short => r < p.short
  | .offhook => p.short ≤ r ∧ r ≤ offLimit p k
  | .idle => p.short ≤ r ∧ bandLow p k ≤ r ∧ r ≤ bandHigh p k
  | .opn => p.short ≤ r ∧ bandLow p k ≤ r ∧ bandHigh p k < r ∧ p.opn < r
  | .marginal => p.short ≤ r ∧ offLimit p k < r ∧ (r < bandLow p k ∨ bandHigh p k < r ∧ r ≤ p.opn)
  | .foreign => False

/-- The class that the list gives meets its condition. -/
theorem inClass_rawClass (p : Profile) (k : Classifier) (r : Nat) : InClass p k r (rawClass p k r) := by
  unfold rawClass
  split_ifs <;> simp only [InClass] <;> omega

/-- A resistance that meets the condition of a class is given that class, since each entry before it in the list
fails. -/
theorem rawClass_eq_of_inClass {p : Profile} {k : Classifier} {r : Nat} {c : RawClass} (h : InClass p k r c) :
    rawClass p k r = c := by
  have hband := offLimit_lt_bandLow p k
  cases c with
  | short => exact if_pos h
  | offhook =>
    obtain ⟨hshort, hoff⟩ := h
    rw [rawClass, if_neg hshort.not_gt, if_pos hoff]
  | idle =>
    obtain ⟨hshort, hlow, hhigh⟩ := h
    rw [rawClass, if_neg hshort.not_gt, if_neg (hband.trans_le hlow).not_ge, if_neg hlow.not_gt, if_pos hhigh]
  | opn =>
    obtain ⟨hshort, hlow, hhigh, hopn⟩ := h
    rw [rawClass, if_neg hshort.not_gt, if_neg (hband.trans_le hlow).not_ge, if_neg hlow.not_gt,
      if_neg hhigh.not_ge, if_neg hopn.not_ge]
  | marginal =>
    obtain ⟨hshort, hoff, hlow | ⟨hhigh, hopn⟩⟩ := h
    · rw [rawClass, if_neg hshort.not_gt, if_neg hoff.not_ge, if_pos hlow]
    · rw [rawClass, if_neg hshort.not_gt, if_neg hoff.not_ge, if_neg hhigh.not_ge, if_pos hopn, ite_self]
  | foreign => exact h.elim

/-- The list of R25 as an equivalence for each class. -/
theorem rawClass_eq_iff (p : Profile) (k : Classifier) (r : Nat) (c : RawClass) :
    rawClass p k r = c ↔ InClass p k r c :=
  ⟨fun h => h ▸ inClass_rawClass p k r, rawClass_eq_of_inClass⟩

/-- A sample with no current is OPEN under a related profile. -/
theorem rawClass_noCurrent {p : Profile} {k : Classifier} (hp : profileRelated p = true)
    (ht : k.rTrack ≤ p.idleHi) : rawClass p k Config.noCurrent = .opn :=
  rawClass_eq_of_inClass (thresholds_lt_noCurrent hp ht)

/-- Confirmed IDLE keeps every resistance that is IDLE without the hysteresis. -/
theorem rawClass_idle_of_unknown {p : Profile} {k : Classifier} {r : Nat} (hp : p.idleHi ≤ 65534)
    (h : rawClass p { k with confirmed := .unknown } r = .idle) :
    rawClass p { k with confirmed := .idle } r = .idle := by
  obtain ⟨hshort, hlow, hhigh⟩ := (rawClass_eq_iff _ _ _ .idle).1 h
  exact rawClass_eq_of_inClass
    ⟨hshort, (bandLow_idle_le_unknown p k).trans hlow, hhigh.trans (bandHigh_unknown_le_idle k hp)⟩

/-- Confirmed OFFHOOK keeps every resistance that is OFFHOOK without the hysteresis. -/
theorem rawClass_offhook_of_unknown {p : Profile} {k : Classifier} {r : Nat}
    (h : rawClass p { k with confirmed := .unknown } r = .offhook) :
    rawClass p { k with confirmed := .offhook } r = .offhook := by
  obtain ⟨hshort, hoff⟩ := (rawClass_eq_iff _ _ _ .offhook).1 h
  exact rawClass_eq_of_inClass ⟨hshort, hoff.trans (offLimit_unknown_le_offhook p k)⟩

/-- Settles O44, from the list of R25 as equivalences and the effect of the hysteresis on each limit. -/
theorem thresholdsClassify : Obligations.ThresholdsClassify := by
  intro p k r off low high
  have hlow : low = bandLow p k := (bandLow_eq_ite p k).symm
  have hidleHi (hp : profileRelated p = true) : p.idleHi ≤ 65534 := by
    obtain ⟨-, -, -, -, -, -, hidleHi, -⟩ := (profileRelated_iff p).1 hp
    omega
  rw [hlow]
  exact ⟨offLimit_lt_bandLow p k, rawClass_eq_iff p k r .short, rawClass_eq_iff p k r .offhook,
    rawClass_eq_iff p k r .idle, rawClass_eq_iff p k r .opn, rawClass_eq_iff p k r .marginal,
    rawClass_noCurrent, fun hp => rawClass_idle_of_unknown (hidleHi hp), rawClass_offhook_of_unknown⟩

end Sys2Proof.Proofs

/-! PROOFS. Register order ranks the call records (R83): the four keys as one key in a linear order. -/

namespace Sys2Proof.Proofs

open Sys2Proof Sys2Proof.Machine

/-! ### The keys of R83 as one key -/

/-- The keys of R83 in their order, the least first: no ORPHAN flag, rank, age (greater first), line number. -/
def registerKey (now : Tick) (r : CallRecord) : Bool ×ₗ ℕ ×ₗ ℕᵒᵈ ×ₗ LineId :=
  toLex (!r.flags.orphan, toLex (r.category.rank, toLex (OrderDual.toDual (ticksSince now r.arrival), r.line)))

/-- The key decides as R83 lists its keys, each between records that the keys before it leave equal. -/
theorem registerKey_lt_iff (now : Tick) (r q : CallRecord) : registerKey now r < registerKey now q ↔
    (r.flags.orphan = true ∧ q.flags.orphan = false) ∨
    (r.flags.orphan = q.flags.orphan ∧
      (r.category.rank < q.category.rank ∨
        (r.category.rank = q.category.rank ∧
          (ticksSince now q.arrival < ticksSince now r.arrival ∨
            (ticksSince now q.arrival = ticksSince now r.arrival ∧ r.line.val < q.line.val))))) := by
  simp [registerKey, Prod.Lex.toLex_lt_toLex, Bool.lt_iff, eq_comm (a := ticksSince now q.arrival)]

/-- The model's comparison of two records is the strict order of their keys. -/
theorem before_iff_registerKey_lt (now : Tick) (r q : CallRecord) :
    r.before now q = true ↔ registerKey now r < registerKey now q := by
  rw [registerKey_lt_iff]
  unfold CallRecord.before
  split_ifs with horphan hrank hage
  · simp [Bool.eq_not.2 horphan]
  · simp [not_not.1 horphan, hrank]
  · simp [not_not.1 horphan, not_not.1 hrank, Ne.symm hage]
  · simp [not_not.1 horphan, not_not.1 hrank, not_not.1 hage]

/-- Records of different lines have different keys. -/
theorem line_eq_of_registerKey_eq {now : Tick} {r q : CallRecord} (h : registerKey now r = registerKey now q) :
    r.line = q.line :=
  congrArg (fun key => (ofLex (ofLex (ofLex key).2).2).2) h

/-! ### The records sorted by insertion -/

/-- The keys of a list of records ascend. -/
def KeysAscend (now : Tick) (xs : List CallRecord) : Prop :=
  xs.Pairwise fun r q => registerKey now r ≤ registerKey now q

/-- A record takes its place before the first one that it ranks before. -/
theorem insertRecord_keysAscend {now : Tick} (r : CallRecord) {xs : List CallRecord} (h : KeysAscend now xs) :
    KeysAscend now (insertRecord now r xs) := by
  induction xs with
  | nil => exact List.pairwise_singleton _ r
  | cons x rest ih =>
    obtain ⟨hx, hrest⟩ := List.pairwise_cons.1 h
    unfold insertRecord
    split
    case isTrue hbefore =>
      have hrx := ((before_iff_registerKey_lt now r x).1 hbefore).le
      exact h.cons (List.forall_mem_cons.2 ⟨hrx, fun q hq => hrx.trans (hx q hq)⟩)
    case isFalse hbefore =>
      have hxr := not_lt.1 (mt (before_iff_registerKey_lt now r x).2 hbefore)
      refine (ih hrest).cons fun q hq => ?_
      obtain rfl | hq := List.mem_cons.1 ((insertRecord_perm now r rest).mem_iff.1 hq)
      · exact hxr
      · exact hx q hq

/-- Register order holds each call record once. -/
theorem registerOrder_perm (s : State) : s.registerOrder.Perm s.records := by
  unfold State.registerOrder
  induction s.records with
  | nil => exact .refl _
  | cons r rest ih => exact (insertRecord_perm _ r _).trans (ih.cons r)

/-- Register order is sorted by the key. -/
theorem registerOrder_keysAscend (s : State) : KeysAscend s.tick s.registerOrder := by
  unfold State.registerOrder
  induction s.records with
  | nil => exact List.Pairwise.nil
  | cons r rest ih => exact insertRecord_keysAscend r ih

/-- With one record to a line no two keys are equal, so that every record ranks before all that follow it. -/
theorem registerOrder_pairwise_lt {s : State} (h : (s.records.map (·.line)).Nodup) :
    s.registerOrder.Pairwise fun r q => registerKey s.tick r < registerKey s.tick q := by
  have hlines : s.registerOrder.Pairwise fun r q => r.line ≠ q.line :=
    List.pairwise_map.1 (((registerOrder_perm s).map _).nodup_iff.2 h)
  exact (registerOrder_keysAscend s).imp₂ (fun _ _ hle hne => hle.lt_of_ne (mt line_eq_of_registerKey_eq hne)) hlines

/-- Settles O53, with the four keys of R83 as one key in a linear order by which the insertion sorts. -/
theorem registerOrderRanksCalls : Obligations.RegisterOrderRanksCalls := by
  intro s h
  refine ⟨registerOrder_perm s, (registerOrder_pairwise_lt h).imp fun {r q} hlt => ?_⟩
  intro rank older age
  have hrank (c : Category) : rank c = c.rank := by cases c <;> rfl
  rw [hrank, hrank]
  exact (registerKey_lt_iff s.tick r q).1 hlt

end Sys2Proof.Proofs

/-! PROOFS. What the operations leave alone. `Wired` says what submissions and leaves do to the links, `Calls`
that an operation touches the calls, the lines, the channels and the links alone, and `Scans` that it touches
the scanner and the tests beside them. -/

namespace Sys2Proof.Proofs

open Sys2Proof Sys2Proof.Machine

/-! ### The three relations -/

/-- One submission to a controller, or one leave at it. A LOST link takes replies alone (R157, R161). -/
inductive LinkStep (lost : Bool) (now : Tick) : LinkController → LinkController → Prop
  | submit (k : LinkController) (m : Message) (h : lost = true → m.isReply = true) :
      LinkStep lost now k ((k.enqueue m false).pump now)
  | leave (k : LinkController) (id : CallId) (n : Option Notice) (h : lost = true → n = none) :
      LinkStep lost now k (k.leave id n now)

/-- Submissions and leaves, one after the other. -/
abbrev LinkPath (lost : Bool) (now : Tick) : LinkController → LinkController → Prop :=
  Relation.ReflTransGen (LinkStep lost now)

/-- The links of `t` come from those of `s` by submissions and leaves, and of the centres at most the duty has
changed. -/
structure Wired (s t : State) : Prop where
  tick : t.tick = s.tick
  centre : ∀ c, ∃ d, t.centre c = { s.centre c with duty := d }
  link : ∀ l, LinkPath (s.isLost l) s.tick (s.link l) (t.link l)

/-- The state without what a call, a line, a channel or a link can change. -/
def calm (s : State) : State :=
  { s with
    orders := [], lines := .replicate 64 { condition := .notFitted, tone := .none }
    captures := .replicate 64 none, receivers := .replicate 8 { listening := none, waiting := [] }
    records := [], overflow := [], abandoned := [], overflowed := false, idCounter := 0
    channels := .replicate 6 .free, linkA := .initial, linkB := .initial, linkS := .initial
    centreA := .initial 0, centreB := .initial 0 }

/-- The state without what the scanner, the classifiers and the tests can change either. -/
def still (s : State) : State :=
  { calm s with
    groups := .replicate 8 defaultGroup, classifiers := .replicate 64 (.reset 0), tests := .replicate 8 none }

/-- `t` comes from `s` by an operation on calls, lines, channels and links. -/
structure Calls (s t : State) : Prop where
  calm : calm t = calm s
  wired : Wired s t

/-- `t` comes from `s` by an operation on the scanner, the classifiers, the tests, and on what `Calls` names. -/
structure Scans (s t : State) : Prop where
  still : still t = still s
  wired : Wired s t

theorem isLost_eq_of_wired {s t : State} (h : Wired s t) (l : Link) : t.isLost l = s.isLost l := by
  unfold State.isLost
  cases hc : l.centre? with
  | none => rfl
  | some c => obtain ⟨d, hd⟩ := h.centre c; simp [hd]

theorem Wired.refl (s : State) : Wired s s := ⟨rfl, fun _ => ⟨_, rfl⟩, fun _ => .refl⟩

theorem Wired.trans {s t u : State} (h : Wired s t) (k : Wired t u) : Wired s u where
  tick := k.tick.trans h.tick
  centre c := by
    obtain ⟨d, hd⟩ := h.centre c
    obtain ⟨e, he⟩ := k.centre c
    exact ⟨e, by rw [he, hd]⟩
  link l := by
    have := k.link l
    rw [isLost_eq_of_wired h, h.tick] at this
    exact (h.link l).trans this

theorem Calls.refl (s : State) : Calls s s := ⟨rfl, .refl s⟩
theorem Calls.trans {s t u : State} (h : Calls s t) (k : Calls t u) : Calls s u :=
  ⟨k.calm.trans h.calm, h.wired.trans k.wired⟩
theorem Scans.refl (s : State) : Scans s s := ⟨rfl, .refl s⟩
theorem Scans.trans {s t u : State} (h : Scans s t) (k : Scans t u) : Scans s u :=
  ⟨k.still.trans h.still, h.wired.trans k.wired⟩

theorem Calls.scans {s t : State} (h : Calls s t) : Scans s t :=
  ⟨congrArg (fun u : State => { u with
    groups := .replicate 8 defaultGroup, classifiers := .replicate 64 (.reset 0)
    tests := .replicate 8 none }) h.calm, h.wired⟩

/-- An update that touches neither the tick, the links nor the centres. -/
theorem Wired.of_eq {s t : State} (ht : t.tick = s.tick) (hl : t.link = s.link) (hc : t.centre = s.centre) :
    Wired s t :=
  ⟨ht, fun c => ⟨(s.centre c).duty, by rw [hc]⟩, fun l => by rw [hl]⟩

section

variable {s t : State}

/-! ### Messages -/

theorem Wired.submit (s : State) (l : Link) (m : Message) : Wired s (s.submit l m) := by
  unfold State.submit
  split
  · exact .refl s
  · next h =>
    refine ⟨by simp, fun c => ⟨(s.centre c).duty, by simp⟩, fun x => ?_⟩
    simp only [State.setLink_link]
    split
    · next e =>
      subst e
      refine .single (.submit _ m fun hl => ?_)
      simpa [hl] using h
    · exact .refl

theorem Calls.submit (h : Calls s t) (l : Link) (m : Message) : Calls s (t.submit l m) := by
  refine h.trans ⟨?_, .submit t l m⟩
  obtain ⟨k, hk⟩ := t.submit_spec l m
  rw [hk]
  cases l <;> rfl

theorem Calls.notify (h : Calls s t) (l : Link) (n : Notice) : Calls s (t.notify l n) := h.submit l _

theorem Calls.notifyAll (h : Calls s t) (n : Notice) : Calls s (t.notifyAll n) :=
  ((h.notify .a n).notify .b n).notify .s n

theorem Calls.reply (h : Calls s t) (l : Link) (type : Byte) (code : ReplyCode) (fields : List Byte) :
    Calls s (t.reply l type code fields) := h.submit l _

theorem Calls.refuse (h : Calls s t) (l : Link) (type : Byte) (code : ReplyCode) :
    Calls s (t.refuse l type code) := h.reply l type code []

theorem Calls.leave (h : Calls s t) (c : Centre) (id : CallId) (n : Option Notice) :
    Calls s (t.leave c id n) := by
  refine h.trans ⟨?_, ⟨by simp [State.leave], fun d => ⟨(t.centre d).duty, by simp [State.leave]⟩, fun x => ?_⟩⟩
  · cases c <;> rfl
  · simp only [State.leave, State.setLink_link]
    split
    · next e =>
      subst e
      exact .single (.leave _ id _ fun hl => by simp [hl])
    · exact .refl

/-! ### Doing one thing for each -/

theorem Calls.each {α : Type} (h : Calls s t) (xs : List α) {f : State → α → State}
    (hf : ∀ {u : State}, Calls s u → ∀ x, Calls s (f u x)) : Calls s (t.each xs f) :=
  State.each_keeps (Calls s) f (fun _ x hu => hf hu x) t xs h

theorem Calls.eachRecord (h : Calls s t) {f : State → CallRecord → State}
    (hf : ∀ {u : State}, Calls s u → ∀ r, Calls s (f u r)) : Calls s (t.eachRecord f) :=
  State.eachRecord_keeps (Calls s) f (fun _ r hu => hf hu r) t h

theorem Calls.notifyLine (h : Calls s t) (n : LineId) (x : Notice) : Calls s (t.notifyLine n x) := by
  refine h.each _ fun {u} hu l => ?_
  show Calls s (if (u.link l).watch.passes (u.entry n) then u.notify l x else u)
  split
  · exact hu.notify l x
  · exact hu

theorem Calls.notifyCondition (h : Calls s t) (n : LineId) : Calls s (t.notifyCondition n) := h.notifyLine n _

/-! ### Updates -/

/-- An update of what `calm` leaves out, other than the links and the centres. -/
theorem Calls.of_eq (h : Calls s t) {u : State} (hc : Proofs.calm u = Proofs.calm t) (hl : u.link = t.link)
    (hd : u.centre = t.centre) : Calls s u :=
  h.trans ⟨hc, (Wired.of_eq (congrArg State.tick hc :) hl hd)⟩

theorem Calls.setLine (h : Calls s t) (n : LineId) (u : LineUnit) : Calls s (t.setLine n u) := h.of_eq rfl rfl rfl
theorem Calls.setCondition (h : Calls s t) (n : LineId) (k : Condition) : Calls s (t.setCondition n k) :=
  h.of_eq rfl rfl rfl
theorem Calls.setCapture (h : Calls s t) (n : LineId) (k : Option Capture) : Calls s (t.setCapture n k) :=
  h.of_eq rfl rfl rfl
theorem Calls.setReceiver (h : Calls s t) (g : GroupId) (r : Receiver) : Calls s (t.setReceiver g r) :=
  h.of_eq rfl rfl rfl
theorem Calls.setChannel (h : Calls s t) (ch : ChannelId) (k : Channel) : Calls s (t.setChannel ch k) :=
  h.of_eq rfl rfl rfl
theorem Calls.updRecord (h : Calls s t) (id : CallId) (f : CallRecord → CallRecord) :
    Calls s (t.updRecord id f) := h.of_eq rfl rfl rfl
theorem Calls.removeRecord (h : Calls s t) (id : CallId) : Calls s (t.removeRecord id) := h.of_eq rfl rfl rfl
theorem Calls.give (h : Calls s t) (o : Order) : Calls s (t.give o) := h.of_eq rfl rfl rfl
theorem Calls.issue (h : Calls s t) (id : CallId) : Calls s (t.issue id) := h.of_eq rfl rfl rfl
theorem Calls.setAbandoned (h : Calls s t) (xs : List AbandonedEntry) : Calls s (t.setAbandoned xs) :=
  h.of_eq rfl rfl rfl
theorem Calls.insertEntry (h : Calls s t) (e : OverflowEntry) : Calls s (t.insertEntry e) := h.of_eq rfl rfl rfl

theorem Calls.setDuty (h : Calls s t) (c : Centre) (d : Duty) : Calls s (t.setDuty c d) := by
  refine h.trans ⟨by cases c <;> rfl, by simp [State.setDuty], fun x => ?_, fun l => by
    simpa [State.setDuty] using Relation.ReflTransGen.refl⟩
  simp only [State.setDuty, State.setCentre_centre]
  split
  · next e => exact ⟨d, by rw [e]⟩
  · exact ⟨_, rfl⟩

theorem Calls.addAbandoned (h : Calls s t) (e : AbandonedEntry) : Calls s (t.addAbandoned e) := by
  rw [State.addAbandoned_eq]
  exact h.of_eq rfl rfl rfl

/-! ### Lines and channels -/

theorem Calls.retone (h : Calls s t) (n : LineId) : Calls s (t.retone n) := by
  unfold State.retone
  dsimp only
  split
  · exact h
  · exact (h.setLine n _).give _

theorem Calls.enter (h : Calls s t) (n : LineId) (k : Condition) : Calls s (t.enter n k) :=
  (h.setCondition n k).retone n

theorem Calls.connectChannel (h : Calls s t) (ch : ChannelId) (n : LineId) (c : Centre) (id : CallId) :
    Calls s (t.connectChannel ch n c id) := (h.setChannel ch _).give _

theorem Calls.freeChannel (h : Calls s t) (ch : ChannelId) : Calls s (t.freeChannel ch) := by
  unfold State.freeChannel
  split
  · exact (h.setChannel ch _).give _
  · exact h.setChannel ch _

theorem Calls.freeHeld (h : Calls s t) (ch : Option ChannelId) : Calls s (t.freeHeld ch) := by
  unfold State.freeHeld
  split
  · exact h.freeChannel _
  · exact h

/-! ### Offers -/

theorem Calls.placeOffer (h : Calls s t) (id : CallId) (c : Centre) : Calls s (t.placeOffer id c) := by
  unfold State.placeOffer
  split
  · exact h.notify _ _
  · exact h

theorem Calls.offerTo (h : Calls s t) (id : CallId) (c : Centre) : Calls s (t.offerTo id c) := by
  unfold State.offerTo
  split
  · exact ((h.updRecord id _).placeOffer id c).retone _
  · exact h

theorem Calls.startOffer (h : Calls s t) (id : CallId) : Calls s (t.startOffer id) := h.updRecord id _

theorem Calls.makeFirstOffer (h : Calls s t) (id : CallId) : Calls s (t.makeFirstOffer id) := by
  unfold State.makeFirstOffer
  split
  · exact h
  · dsimp only
    split
    · exact (h.offerTo id _).startOffer id
    · split
      · exact (h.offerTo id _).startOffer id
      · exact (h.updRecord id _).retone _

theorem Calls.offerOrWait (h : Calls s t) (id : CallId) (c : Centre) : Calls s (t.offerOrWait id c) := by
  unfold State.offerOrWait
  split
  · exact h.offerTo id c
  · split
    · exact (h.updRecord id _).retone _
    · exact h

theorem Calls.offerOnUsable (h : Calls s t) (c : Centre) (r : CallRecord) : Calls s (t.offerOnUsable c r) := by
  unfold State.offerOnUsable
  split
  · dsimp only
    split
    · exact (h.offerTo r.id c).startOffer r.id
    · exact h.offerTo r.id c
  · split
    · exact h.offerTo r.id c
    · exact h
  · exact h

theorem Calls.becomeUsable (h : Calls s t) (c : Centre) : Calls s (t.becomeUsable c) :=
  h.eachRecord fun hu r => hu.offerOnUsable c r

theorem Calls.fallback (h : Calls s t) : Calls s t.fallback := by
  unfold State.fallback
  split
  · exact h
  · refine h.each _ fun hu c => ?_
    split
    · exact ((hu.setDuty c _).notify _ _).becomeUsable c
    · exact hu

theorem Calls.escalate (h : Calls s t) (r : CallRecord) : Calls s (t.escalate r) := by
  refine (h.updRecord r.id _).each _ fun hu c => ?_
  split
  · exact hu.offerTo r.id _
  · exact hu

theorem Calls.escalateOffers (h : Calls s t) (c : Centre) : Calls s (t.escalateOffers c) := by
  refine h.eachRecord fun hu r => ?_
  split
  · exact hu.escalate r
  · exact hu

theorem Calls.healthChanged (h : Calls s t) (c : Centre) (old : Health) : Calls s (t.healthChanged c old) := by
  unfold State.healthChanged
  dsimp only
  split
  · exact h
  · refine Calls.fallback ?_
    split
    · exact h.escalateOffers c
    · split
      · exact h.becomeUsable c
      · exact h

theorem Calls.withdrawFrom (h : Calls s t) (r : CallRecord) (c : Centre) (reason : EndReason) :
    Calls s (t.withdrawFrom r c reason) := h.leave c r.id _

theorem Calls.notifyOrigin (h : Calls s t) (r : CallRecord) (n : Notice) : Calls s (t.notifyOrigin r n) := by
  unfold State.notifyOrigin
  split
  · split
    · exact h
    · exact h.notify _ _
  · exact h

theorem Calls.transferTimedOut (h : Calls s t) (r : CallRecord) : Calls s (t.transferTimedOut r) := by
  unfold State.transferTimedOut
  split
  · split
    · exact h.offerTo r.id _
    · exact h
  · exact h

theorem Calls.completeHandover (h : Calls s t) (c : Centre) : Calls s (t.completeHandover c) := by
  unfold State.completeHandover
  refine (((h.setDuty c _).eachRecord fun hu r => ?_).notify _ _).fallback
  split
  · dsimp only
    split
    · exact (hu.updRecord r.id _).withdrawFrom r c _
    · exact ((hu.updRecord r.id _).withdrawFrom r c _).offerOrWait r.id _
  · exact hu

theorem Calls.checkHandover (h : Calls s t) (c : Centre) : Calls s (t.checkHandover c) := by
  unfold State.checkHandover
  split
  · exact h.completeHandover c
  · exact h

theorem Calls.checkHandoverOf (h : Calls s t) (c : Option Centre) : Calls s (t.checkHandoverOf c) := by
  unfold State.checkHandoverOf
  split
  · exact h.checkHandover _
  · exact h

/-! ### The register and the identity receivers -/

theorem Calls.resolve (h : Calls s t) (r : CallRecord) (res : CaptureResult) : Calls s (t.resolve r res) :=
  (h.updRecord r.id _).makeFirstOffer r.id

theorem Calls.startCapture (h : Calls s t) (n : LineId) (arrival : Tick) : Calls s (t.startCapture n arrival) := by
  unfold State.startCapture
  dsimp only
  split
  · exact ((h.setCapture n _).setReceiver _ _).give _
  · exact (h.setCapture n _).setReceiver _ _

theorem Calls.freeReceiver (h : Calls s t) (g : GroupId) : Calls s (t.freeReceiver g) := by
  rw [State.freeReceiver_spec]
  exact h.of_eq rfl rfl rfl

theorem Calls.leaveReceiver (h : Calls s t) (n : LineId) : Calls s (t.leaveReceiver n) := by
  unfold State.leaveReceiver
  dsimp only
  split
  · exact h.freeReceiver _
  · exact h.setReceiver _ _

theorem Calls.dropCapture (h : Calls s t) (n : LineId) : Calls s (t.dropCapture n) := by
  unfold State.dropCapture
  split
  · exact (h.setCapture n none).leaveReceiver n
  · exact h

theorem Calls.handResult (h : Calls s t) (n : LineId) (res : CaptureResult) : Calls s (t.handResult n res) := by
  unfold State.handResult
  split
  · split
    · exact h.resolve _ res
    · exact h
  · exact h.of_eq rfl rfl rfl

theorem Calls.endCapture (h : Calls s t) (n : LineId) (res : CaptureResult) : Calls s (t.endCapture n res) :=
  ((h.setCapture n none).handResult n res).leaveReceiver n

theorem Calls.markOverdue (h : Calls s t) (r : CallRecord) : Calls s (t.markOverdue r) :=
  (h.updRecord r.id _).notifyAll _

theorem Calls.createRecord (h : Calls s t) (n : LineId) (arrival : Tick) : Calls s (t.createRecord n arrival) :=
  h.of_eq rfl rfl rfl

theorem Calls.addRecord (h : Calls s t) (n : LineId) (arrival : Tick) : Calls s (t.addRecord n arrival) :=
  (h.createRecord n arrival).enter n _

theorem Calls.queueLine (h : Calls s t) (n : LineId) : Calls s (t.queueLine n) := (h.enter n _).notifyAll _

theorem Calls.addOverflow (h : Calls s t) (e : OverflowEntry) : Calls s (t.addOverflow e) :=
  (h.insertEntry e).queueLine e.line

theorem Calls.callRequest (h : Calls s t) (n : LineId) (arrival : Tick) : Calls s (t.callRequest n arrival) := by
  unfold State.callRequest
  split
  · exact ((h.createRecord n arrival).startCapture n arrival).enter n _
  · exact ((h.insertEntry _).startCapture n arrival).queueLine n

theorem Calls.promote (h : Calls s t) : Calls s t.promote := by
  unfold State.promote
  split
  · exact h
  · next e rest _ =>
    have h1 : Calls s ({ t with overflow := rest }.addRecord e.line e.arrival) :=
      (h.of_eq (u := { t with overflow := rest }) rfl rfl rfl).addRecord _ _
    have h2 : ∀ u : State, Calls s u → Calls s (match u.recordOfLine e.line with
        | some r => if ({ t with overflow := rest }.overdueTimerFor e.arrival).isNone then u.markOverdue r else u
        | none => u) := by
      intro u hu
      split
      · split
        · exact hu.markOverdue _
        · exact hu
      · exact hu
    refine h2 _ ?_
    split
    · exact h1.resolve _ _
    · exact h1

theorem Calls.abandonOverflow (h : Calls s t) (e : OverflowEntry) : Calls s (t.abandonOverflow e) :=
  (h.issue _).addAbandoned _

theorem Calls.dropOverflow (h : Calls s t) (n : LineId) : Calls s (t.dropOverflow n) := by
  unfold State.dropOverflow
  split
  · exact (h.of_eq (u := { t with overflow := t.overflow.filter fun q => q.line ≠ n }) rfl rfl rfl).abandonOverflow _
  · exact h

theorem Calls.endRecord (h : Calls s t) (r : CallRecord) (reason : EndReason) : Calls s (t.endRecord r reason) := by
  unfold State.endRecord
  have h1 := (h.removeRecord r.id).freeHeld r.channel
  have h2 : Calls s (match r.claimant with
      | some c => ((t.removeRecord r.id).freeHeld r.channel).notify c.link (.callEnded r.id r.line reason)
      | none => (t.removeRecord r.id).freeHeld r.channel) := by
    split
    · exact h1.notify _ _
    · exact h1
  have h3 := (h2.each r.offered.members fun hu c => hu.withdrawFrom r c reason).notifyOrigin r
    (.callWithdrawn r.id r.line reason)
  dsimp only
  split
  · refine Calls.promote ?_
    split
    · exact h3.addAbandoned _
    · exact h3
  · split
    · exact h3.addAbandoned _
    · exact h3

theorem Calls.endCall (h : Calls s t) (r : CallRecord) (reason : EndReason) (k : Condition) :
    Calls s (t.endCall r reason k) :=
  (((h.endRecord r reason).enter r.line k).dropCapture r.line).checkHandoverOf _

theorem Calls.displace (h : Calls s t) (r : CallRecord) : Calls s (t.displace r) := by
  unfold State.displace
  dsimp only
  have h1 := h.removeRecord r.id
  refine (Calls.notifyOrigin ?_ r _).addOverflow _
  split
  · split
    · exact h1.notify _ _
    · exact h1
  · exact h1.each r.offered.members fun hu c => hu.withdrawFrom r c _

theorem Calls.answerRecall (h : Calls s t) (n : LineId) (c : Centre) (ch : ChannelId) :
    Calls s (t.answerRecall n c ch) := by
  unfold State.answerRecall
  dsimp only
  refine (Calls.notify ?_ _ _).checkHandoverOf _
  have h1 : ∀ u : State, Calls s u → ∀ id r, Calls s (({ u.issue id with
      records := u.records ++ [r] }.connectChannel ch n c id).enter n .inCall) := fun u hu id r =>
    ((hu.of_eq (u := { u.issue id with records := u.records ++ [r] }) rfl rfl rfl).connectChannel ch n c id).enter n _
  have h2 : ∀ u : State, Calls s u → Calls s (if u.abandoned.any (·.line = n) then
      u.setAbandoned (u.abandoned.filter fun e => e.line ≠ n) else u) := by
    intro u hu
    split
    · exact hu.setAbandoned _
    · exact hu
  refine h2 _ (h1 _ ?_ _ _)
  split
  · exact (h.give _).displace _
  · exact h.give _

/-! ### The line condition unit -/

theorem Calls.enterFault (h : Calls s t) (n : LineId) (k : FaultKind) : Calls s (t.enterFault n k) :=
  (h.enter n _).notifyCondition n

theorem Calls.notifyUnparked (h : Calls s t) (n : LineId) (sent : Bool) : Calls s (t.notifyUnparked n sent) := by
  unfold State.notifyUnparked
  split
  · exact h.notifyCondition n
  · exact h

theorem Calls.changeIdle (h : Calls s t) (n : LineId) (c : LoopClass) : Calls s (t.changeIdle n c) := by
  unfold State.changeIdle
  split
  · exact h.callRequest n _
  · split
    · exact h.enterFault n _
    · exact h

theorem Calls.changeFault (h : Calls s t) (n : LineId) (k : FaultKind) (c : LoopClass) :
    Calls s (t.changeFault n k c) := by
  unfold State.changeFault
  split
  · exact (h.enter n _).notifyLine n _
  · exact ((h.setCondition n _).notifyLine n _).callRequest n _
  · split
    · exact h.enterFault n _
    · exact h

theorem Calls.changeInCall (h : Calls s t) (n : LineId) (c : LoopClass) : Calls s (t.changeInCall n c) := by
  unfold State.changeInCall
  split
  · exact h
  · split
    · exact h.endCall _ _ _
    · split
      · exact (h.endCall _ _ _).notifyCondition n
      · exact h

theorem Calls.changeQueued (h : Calls s t) (n : LineId) (c : LoopClass) : Calls s (t.changeQueued n c) := by
  unfold State.changeQueued
  split
  · exact ((h.dropOverflow n).enter n _).dropCapture n
  · split
    · exact (((h.dropOverflow n).enter n _).dropCapture n).notifyCondition n
    · exact h

theorem Calls.changeParked (h : Calls s t) (n : LineId) (sent : Bool) (c : LoopClass) :
    Calls s (t.changeParked n sent c) := by
  unfold State.changeParked
  split
  · exact (h.enter n _).notifyUnparked n sent
  · split
    · exact (h.enterFault n _).notifyUnparked n sent
    · exact h

theorem Calls.classChange (h : Calls s t) (n : LineId) (c : LoopClass) : Calls s (t.classChange n c) := by
  unfold State.classChange
  split
  · exact h.changeIdle n c
  · exact h.changeFault n _ c
  · exact h.changeInCall n c
  · exact h.changeQueued n c
  · exact h.changeParked n _ c
  · split
    · exact h.answerRecall n _ _
    · exact h
  all_goals exact h

theorem Calls.stopRing (h : Calls s t) (n : LineId) (ch : ChannelId) : Calls s (t.stopRing n ch) :=
  ((h.give _).freeChannel ch).enter n _

theorem Calls.cancelRings (h : Calls s t) (c : Centre) : Calls s (t.cancelRings c) := by
  refine h.each _ fun hu n => ?_
  split
  · split
    · exact hu.stopRing n _
    · exact hu
  · exact hu

/-! ### The loss of a link -/

theorem Calls.orphan (h : Calls s t) (r : CallRecord) (lost : Centre) : Calls s (t.orphan r lost) :=
  ((h.freeHeld r.channel).updRecord r.id _).offerOrWait r.id _

theorem Calls.loseOffer (h : Calls s t) (r : CallRecord) (lost : Centre) : Calls s (t.loseOffer r lost) := by
  unfold State.loseOffer
  dsimp only
  have h1 := h.updRecord r.id fun r => { r with offered := r.offered.remove lost }
  have h2 : ∀ u : State, Calls s u → Calls s (match u.recordById r.id with
      | some r => if r.offered = .empty then u.offerOrWait r.id lost.partner else u
      | none => u) := by
    intro u hu
    split
    · split
      · exact hu.offerOrWait _ _
      · exact hu
    · exact hu
  refine h2 _ ?_
  split
  · split
    · exact (h1.updRecord r.id _).transferTimedOut _
    · exact h1.updRecord r.id _
  · exact h1

theorem Calls.loseUnclaimed (h : Calls s t) (r : CallRecord) (lost : Centre) :
    Calls s (t.loseUnclaimed r lost) := by
  unfold State.loseUnclaimed
  have h1 : ∀ u : State, Calls s u → Calls s (if r.offered.has lost then u.loseOffer r lost else u) := by
    intro u hu
    split
    · exact hu.loseOffer r lost
    · exact hu
  dsimp only
  by_cases ho : r.origin = some lost
  · simp only [ho, if_true]
    refine Calls.retone ?_ _
    have h2 := h1 _ (h.updRecord r.id fun r =>
      { r with origin := none, transferTimer := none, flags := { r.flags with orphan := true } })
    split
    · exact h2.placeOffer _ _
    · exact h2
  · simp only [ho, if_false]
    exact h1 t h

theorem Calls.loseDuty (h : Calls s t) (lost : Centre) : Calls s (t.loseDuty lost) := by
  unfold State.loseDuty
  have h1 : ∀ u : State, Calls s u → Calls s (
      if (u.centre lost.partner).duty = .handingOver then
        let u := (u.setDuty lost.partner .active).notify lost.partner.link .handoverCancelled
        if u.usable lost.partner then u.becomeUsable lost.partner else u
      else u) := by
    intro u hu
    split
    · have h2 := (hu.setDuty lost.partner .active).notify lost.partner.link .handoverCancelled
      dsimp only
      split
      · exact h2.becomeUsable _
      · exact h2
    · exact hu
  refine h1 _ ?_
  split
  · exact h.setDuty lost _
  · exact h

theorem Calls.lossOfLink (h : Calls s t) (lost : Centre) : Calls s (t.lossOfLink lost) := by
  unfold State.lossOfLink
  refine Calls.eachRecord (Calls.eachRecord ((h.cancelRings lost).loseDuty lost).fallback fun hu r => ?_)
    fun hu r => ?_
  · split
    · exact hu.orphan r lost
    · exact hu
  · split
    · exact hu.loseUnclaimed r lost
    · exact hu

/-! ### The timers of a call record -/

theorem Calls.endEscalation (h : Calls s t) (r : CallRecord) : Calls s (t.endEscalation r) := by
  unfold State.endEscalation
  split
  · exact h
  · dsimp only
    split
    · exact (h.updRecord r.id _).escalate r
    · exact (h.updRecord r.id _).escalate r
    · exact h.updRecord r.id _

theorem Calls.endOverdue (h : Calls s t) (r : CallRecord) : Calls s (t.endOverdue r) := by
  unfold State.endOverdue
  split
  · exact h
  · dsimp only
    split
    · exact (h.updRecord r.id _).markOverdue r
    · exact h.updRecord r.id _

theorem Calls.endTransferTimer (h : Calls s t) (r : CallRecord) : Calls s (t.endTransferTimer r) := by
  unfold State.endTransferTimer
  split
  · exact h
  · dsimp only
    split
    · exact (h.updRecord r.id _).transferTimedOut r
    · exact h.updRecord r.id _

theorem Calls.tellLongCall (h : Calls s t) (r : CallRecord) : Calls s (t.tellLongCall r) := by
  unfold State.tellLongCall
  dsimp only
  split
  · exact (h.updRecord r.id _).notify _ _
  · exact h.updRecord r.id _

theorem Calls.endLongCallTimer (h : Calls s t) (r : CallRecord) : Calls s (t.endLongCallTimer r) := by
  unfold State.endLongCallTimer
  split
  · exact h
  · dsimp only
    split
    · split
      · exact h.updRecord r.id _
      · exact (h.updRecord r.id _).tellLongCall r
    · exact (h.updRecord r.id _).updRecord r.id _
    · exact h.updRecord r.id _

theorem Calls.atRecord (h : Calls s t) (id : CallId) {f : State → CallRecord → State}
    (hf : ∀ r, Calls s (f t r)) : Calls s (t.atRecord id f) := by
  unfold State.atRecord
  split
  · exact hf _
  · exact h

/-! ### The commands on calls -/

theorem Calls.tellTaken (h : Calls s t) (r : CallRecord) (c : Centre) : Calls s (t.tellTaken r c) := by
  unfold State.tellTaken
  dsimp only
  refine Calls.leave ?_ c r.id none
  have h1 : Calls s (if r.offered.has c.partner then t.leave c.partner r.id (some (.callTaken r.id r.line c))
      else t) := by
    split
    · exact h.leave _ _ _
    · exact h
  split
  · exact h1
  · exact h1.notifyOrigin r _

theorem Calls.takeClaim (h : Calls s t) (r : CallRecord) (c : Centre) (ch : ChannelId) (type : Byte)
    (fields : List Byte) : Calls s (t.takeClaim r c ch type fields) :=
  ((((h.connectChannel ch _ c _).updRecord r.id _).reply _ type .ok fields).tellTaken r c).retone _

theorem Calls.claimRecord (h : Calls s t) (c : Centre) (r : CallRecord) : Calls s (t.claimRecord c r) := by
  unfold State.claimRecord
  dsimp only
  split
  · exact h.refuse _ _ _
  · split
    · split
      · exact h.refuse _ _ _
      · exact h.reply _ _ _ _
    · split
      · exact h.refuse _ _ _
      · split
        · exact h.takeClaim r c _ _ _
        · exact h.refuse _ _ _

theorem Calls.answerNext (h : Calls s t) (c : Centre) : Calls s (t.answerNext c) := by
  unfold State.answerNext
  dsimp only
  split
  · exact h.refuse _ _ _
  · split
    · exact h.refuse _ _ _
    · split
      · exact h.takeClaim _ c _ _ _
      · exact h.refuse _ _ _

theorem Calls.withCall (h : Calls s t) (l : Link) (type id : Byte) {act : CallRecord → State}
    (hact : ∀ r, Calls s (act r)) : Calls s (t.withCall l type id act) := by
  unfold State.withCall
  split
  · exact hact _
  · exact h.refuse _ _ _
  · exact h.refuse _ _ _

theorem Calls.withClaimed (h : Calls s t) (c : Centre) (type id : Byte) {act : CallRecord → State}
    (hact : ∀ r, Calls s (act r)) : Calls s (t.withClaimed c type id act) := by
  refine h.withCall _ _ _ fun r => ?_
  split
  · exact hact r
  · exact h.refuse _ _ _

theorem Calls.holdCall (h : Calls s t) (c : Centre) (r : CallRecord) : Calls s (t.holdCall c r) :=
  (((h.freeHeld r.channel).updRecord r.id _).reply _ _ _ _).retone _

theorem Calls.retrieveCall (h : Calls s t) (c : Centre) (r : CallRecord) (ch : ChannelId) :
    Calls s (t.retrieveCall c r ch) := by
  unfold State.retrieveCall
  have h1 := (((h.connectChannel ch r.line c r.id).updRecord r.id fun r =>
    { r with state := .connected, channel := some ch }).reply c.link Command.retrieve .ok [byte ch.val]).retone r.line
  dsimp only
  split
  · exact h1.tellLongCall r
  · exact h1

theorem Calls.transferCall (h : Calls s t) (c : Centre) (r : CallRecord) : Calls s (t.transferCall c r) :=
  (((((h.freeHeld r.channel).updRecord r.id _).offerTo r.id _).updRecord r.id _).reply _ _ _ _).checkHandover c

theorem Calls.ringPost (h : Calls s t) (c : Centre) (n : LineId) : Calls s (t.ringPost c n) := by
  unfold State.ringPost
  dsimp only
  split
  · exact h.refuse _ _ _
  · split
    · exact h.refuse _ _ _
    · split
      · exact (((h.setChannel _ _).enter n _).give _).reply _ _ _ _
      · exact h.refuse _ _ _
  · exact h.reply _ _ _ _

theorem Calls.cancelRing (h : Calls s t) (c : Centre) (n : LineId) : Calls s (t.cancelRing c n) := by
  unfold State.cancelRing
  dsimp only
  split
  · exact h.refuse _ _ _
  · split
    · exact (h.stopRing n _).reply _ _ _ _
    · exact h.refuse _ _ _
  · exact h.refuse _ _ _

theorem Calls.dismiss (h : Calls s t) (c : Centre) (id : Byte) : Calls s (t.dismiss c id) := by
  unfold State.dismiss
  dsimp only
  split
  · exact h.refuse _ _ _
  · split
    · exact (h.setAbandoned _).reply _ _ _ _
    · split
      · exact h.refuse _ _ _
      · exact h.refuse _ _ _

theorem Calls.takeHandover (h : Calls s t) (c : Centre) : Calls s (t.takeHandover c) := by
  unfold State.takeHandover
  refine (((h.setDuty c _).reply _ _ _ _).eachRecord fun hu r => ?_).checkHandover c
  split
  · refine Calls.withdrawFrom ?_ r c _
    split
    · exact hu.updRecord r.id _
    · exact (hu.updRecord r.id _).offerTo r.id _
  · exact hu

theorem Calls.handoverRequest (h : Calls s t) (c : Centre) : Calls s (t.handoverRequest c) := by
  unfold State.handoverRequest
  dsimp only
  split
  · exact h.refuse _ _ _
  · exact h.refuse _ _ _
  · split
    · exact h.takeHandover c
    · exact h.refuse _ _ _

theorem Calls.resumeDuty (h : Calls s t) (c : Centre) : Calls s (t.resumeDuty c) := by
  unfold State.resumeDuty
  split
  · exact h.refuse _ _ _
  · exact h.reply _ _ _ _
  · have h1 := (h.setDuty c .active).reply c.link Command.resume .ok []
    dsimp only
    split
    · exact (h1.becomeUsable c).fallback
    · exact h1.fallback

/-! ### The scanner, the classifiers and the tests -/

theorem Scans.calls (h : Scans s t) {u : State} (k : Calls t u) : Scans s u := h.trans k.scans

theorem Scans.of_eq (h : Scans s t) {u : State} (hs : Proofs.still u = Proofs.still t) (hl : u.link = t.link)
    (hd : u.centre = t.centre) : Scans s u :=
  h.trans ⟨hs, (Wired.of_eq (congrArg State.tick hs :) hl hd)⟩

theorem Scans.setGroup (h : Scans s t) (g : GroupId) (r : GroupRecord) : Scans s (t.setGroup g r) :=
  h.of_eq rfl rfl rfl
theorem Scans.setTest (h : Scans s t) (g : GroupId) (r : Option TestRecord) : Scans s (t.setTest g r) :=
  h.of_eq rfl rfl rfl
theorem Scans.setClassifier (h : Scans s t) (n : LineId) (k : Classifier) : Scans s (t.setClassifier n k) :=
  h.of_eq rfl rfl rfl
theorem Scans.give (h : Scans s t) (o : Order) : Scans s (t.give o) := h.of_eq rfl rfl rfl
theorem Scans.ready (h : Scans s t) (g : GroupId) (p : ScanPurpose) : Scans s (t.ready g p) := h.setGroup g _
theorem Scans.sampled (h : Scans s t) (g : GroupId) : Scans s (t.sampled g) := h.setGroup g _

theorem Scans.each {α : Type} (h : Scans s t) (xs : List α) {f : State → α → State}
    (hf : ∀ {u : State}, Scans s u → ∀ x, Scans s (f u x)) : Scans s (t.each xs f) :=
  State.each_keeps (Scans s) f (fun _ x hu => hf hu x) t xs h

theorem Scans.notifyAll (h : Scans s t) (n : Notice) : Scans s (t.notifyAll n) := h.calls ((Calls.refl t).notifyAll n)

theorem Scans.debounceLine (h : Scans s t) (n : LineId) (raw : RawClass) : Scans s (t.debounceLine n raw) := by
  unfold State.debounceLine
  dsimp only
  split
  · exact (h.setClassifier n _).calls ((Calls.refl _).classChange n _)
  · exact h.setClassifier n _

theorem Scans.trackLine (h : Scans s t) (n : LineId) (r : Nat) : Scans s (t.trackLine n r) := by
  unfold State.trackLine
  dsimp only
  split
  · exact h.setClassifier n _
  · exact (h.setClassifier n _).calls ((Calls.refl _).notifyCondition n)

theorem Scans.classifyFull (h : Scans s t) (n : LineId) (vc ic : Code) (vf : Option Code) :
    Scans s (t.classifyFull n vc ic vf) := by
  unfold State.classifyFull
  split
  · exact h.debounceLine n _
  · dsimp only
    refine Scans.debounceLine ?_ n _
    split
    · exact (h.setClassifier n _).trackLine n _
    · exact h.setClassifier n _

theorem Scans.classifyRinging (h : Scans s t) (n : LineId) (vc ic : Code) (vf : Option Code) :
    Scans s (t.classifyRinging n vc ic vf) := by
  unfold State.classifyRinging
  split
  · exact h
  · dsimp only
    split
    · exact (h.setClassifier n _).debounceLine n _
    · exact h.setClassifier n _

theorem Scans.classify (h : Scans s t) (n : LineId) (vc ic : Code) (vf : Option Code) :
    Scans s (t.classify n vc ic vf) := by
  unfold State.classify
  split
  · exact h
  · exact h
  · exact h
  · exact h.classifyRinging n vc ic vf
  · exact h.classifyFull n vc ic vf

theorem Scans.countCheck (h : Scans s t) (g : GroupId) (d : Bool) : Scans s (t.countCheck g d) := by
  unfold State.countCheck
  dsimp only
  generalize (if d then min ((t.group g).discrepancyRun + 1) 255 else 0) = disc
  generalize (if d then 0 else min ((t.group g).agreementRun + 1) 255) = agree
  split
  · exact h
  · split
    · exact (h.setGroup g _).notifyAll _
    · exact h.setGroup g _
  · split
    · exact (h.setGroup g _).notifyAll _
    · exact h.setGroup g _

theorem Calls.restoreDrives (h : Calls s t) (r : TestRecord) : Calls s (t.restoreDrives r) := by
  unfold State.restoreDrives
  dsimp only
  refine Calls.give ?_ _
  split
  · split
    · exact h
    · exact h.give _
  · exact h.give _
  · exact h

theorem Calls.leaveTesting (h : Calls s t) (n : LineId) : Calls s (t.leaveTesting n) := by
  unfold State.leaveTesting
  split
  · exact h.enter n _
  · exact h

theorem Scans.endTest (h : Scans s t) (g : GroupId) (o : TestOutcome) : Scans s (t.endTest g o) := by
  unfold State.endTest
  split
  · exact h
  · next r _ =>
    dsimp only
    have h1 := ((h.setGroup g (dropTestOrder (t.group g))).calls ((Calls.refl _).restoreDrives r)).calls
      ((Calls.refl _).leaveTesting r.line)
    exact (h1.setTest g none).calls ((Calls.refl _).notify _ _)

theorem Scans.startTest (h : Scans s t) (l : Link) (n : LineId) (kind : TestKind) (p : PriorCondition)
    (command : Byte) : Scans s (t.startTest l n kind p command) := by
  unfold State.startTest
  dsimp only
  have h1 := fun r => (h.setTest n.group r).calls
    ((((Calls.refl _).enter n (.testing p)).give (.hookSense n true)).reply l command .ok
      [byte n.val, byte kind.code])
  split
  · exact (h1 _).give _
  · exact h1 _

theorem Scans.updTest (h : Scans s t) (g : GroupId) (r : TestRecord) : Scans s (t.updTest g r) := h.setTest g _

theorem Scans.testSample (h : Scans s t) (g : GroupId) (r : TestRecord) (x : Code × Code) :
    Scans s (t.testSample g r x) := by
  unfold State.testSample
  split
  · exact (h.updTest g _).give _
  · split
    · exact (h.updTest g _).endTest g _
    · exact h
  · exact (h.updTest g _).endTest g _
  · exact h.updTest g _
  · split
    · exact ((h.updTest g _).countCheck g _).endTest g _
    · exact h
  · exact h
  · exact h

theorem Scans.testOrderEnd (h : Scans s t) (g : GroupId) (x : Option (Code × Code)) :
    Scans s (t.testOrderEnd g x) := by
  unfold State.testOrderEnd
  split
  · exact h
  · split
    · exact h.endTest g _
    · exact h.testSample g _ _

theorem Scans.arbitrate (h : Scans s t) (g : GroupId) : Scans s (t.arbitrate g) := by
  obtain ⟨_, _, _, e⟩ := t.arbitrate_spec g
  rw [e]
  exact h.of_eq rfl rfl rfl

theorem Scans.startPass (h : Scans s t) (g : GroupId) : Scans s (t.startPass g) := by
  unfold State.startPass
  dsimp only
  split
  · exact h
  · exact h.setGroup g _

theorem Scans.endPass (h : Scans s t) (g : GroupId) : Scans s (t.endPass g) := by
  unfold State.endPass
  split
  · exact h.startPass g
  · exact h.setGroup g _

theorem Scans.beginPathCheck (h : Scans s t) (g : GroupId) : Scans s (t.beginPathCheck g) := by
  unfold State.beginPathCheck
  dsimp only
  split
  · exact h.setGroup g _
  · exact h.endPass g

theorem Scans.scanFrom (h : Scans s t) (g : GroupId) (k : Nat) : Scans s (t.scanFrom g k) := by
  unfold State.scanFrom
  split
  · exact h.ready g _
  · exact h.beginPathCheck g

theorem Scans.startProbeDelay (h : Scans s t) (g : GroupId) : Scans s (t.startProbeDelay g) := h.setGroup g _

theorem Scans.becomeSilent (h : Scans s t) (g : GroupId) : Scans s (t.becomeSilent g) :=
  (((h.setGroup g _).notifyAll _).startProbeDelay g).endTest g _

theorem Scans.noSample (h : Scans s t) (g : GroupId) {f : State → State}
    (hf : ∀ {u : State}, Scans s u → Scans s (f u)) : Scans s (t.noSample g f) := by
  unfold State.noSample
  dsimp only
  split
  · exact (h.setGroup g _).becomeSilent g
  · exact hf (h.setGroup g _)

theorem Scans.recoverGroup (h : Scans s t) (g : GroupId) : Scans s (t.recoverGroup g) :=
  ((h.setGroup g _).notifyAll _).startPass g

theorem Scans.scanSample (h : Scans s t) (g : GroupId) (p : ScanPurpose) (x : Code × Code) :
    Scans s (t.scanSample g p x) := by
  unfold State.scanSample
  split
  · exact ((h.sampled g).setGroup g _).scanFrom g _
  · exact ((h.sampled g).classify _ _ _ _).scanFrom g _
  · exact (h.sampled g).ready g _
  · dsimp only
    refine Scans.endPass ?_ g
    split
    · exact (h.sampled g).countCheck g _
    · exact h.sampled g
  · exact h.recoverGroup g

theorem Scans.scanNoSample (h : Scans s t) (g : GroupId) (p : ScanPurpose) : Scans s (t.scanNoSample g p) := by
  unfold State.scanNoSample
  split
  · refine h.noSample g fun hu => ?_
    split
    · exact hu.scanFrom g _
    · exact hu.endPass g
  · exact h.noSample g fun hu => hu.scanFrom g _
  · exact h.noSample g fun hu => hu.ready g _
  · exact h.noSample g fun hu => hu.endPass g
  · exact (h.setGroup g _).startProbeDelay g

theorem Scans.scanLostFit (h : Scans s t) (g : GroupId) (p : ScanPurpose) : Scans s (t.scanLostFit g p) := by
  unfold State.scanLostFit
  split
  · exact h.scanFrom g _
  · exact h.endPass g
  · exact h.endPass g
  · exact h
  · exact h

theorem Scans.endOrder (h : Scans s t) (g : GroupId) (x : Option (Code × Code)) : Scans s (t.endOrder g x) := by
  unfold State.endOrder
  split
  · exact h
  · next o _ =>
    have h1 := h.setGroup g { t.group g with port := none }
    have h2 : ∀ u : State, Scans s u →
        Scans s ((if (u.group g).restartPass then u.startPass g else u).arbitrate g) := by
      intro u hu
      refine Scans.arbitrate ?_ g
      split
      · exact hu.startPass g
      · exact hu
    refine h2 _ ?_
    split
    · exact h1
    · exact h1.testOrderEnd g x
    · exact h1
    · exact h1.scanLostFit g _
    · split
      · exact h1.scanSample g _ _
      · exact h1.scanNoSample g _

theorem Scans.refit (h : Scans s t) (g : GroupId) (f : Fin 9) : Scans s (t.refit g f) := by
  unfold State.refit
  dsimp only
  split
  · exact h.setGroup g _
  · split
    · split
      · exact (h.setGroup g _).startProbeDelay g
      · exact ((h.setGroup g _).startPass g).arbitrate g
    · split
      · exact ((h.setGroup g _).scanLostFit g _).arbitrate g
      · exact h.setGroup g _

theorem Scans.endPassTimer (h : Scans s t) (g : GroupId) : Scans s (t.endPassTimer g) := by
  unfold State.endPassTimer
  dsimp only
  split
  · exact h
  · split
    · exact ((h.setGroup g _).startPass g).arbitrate g
    · exact h.setGroup g _

theorem Scans.endProbeDelay (h : Scans s t) (g : GroupId) : Scans s (t.endProbeDelay g) := by
  unfold State.endProbeDelay
  dsimp only
  split
  · exact h
  · exact (h.setGroup g _).arbitrate g

theorem Scans.endDwell (h : Scans s t) (g : GroupId) : Scans s (t.endDwell g) := by
  unfold State.endDwell
  split
  · exact h
  · split
    · exact (h.updTest g _).arbitrate g
    · exact h

theorem Scans.testLine (h : Scans s t) (l : Link) (n : LineId) (kind : TestKind) :
    Scans s (t.testLine l n kind) := by
  unfold State.testLine
  split
  · exact h.calls ((Calls.refl t).reply _ _ _ _)
  · split
    · exact h.calls ((Calls.refl t).reply _ _ _ _)
    · split
      · exact h.calls ((Calls.refl t).refuse _ _ _)
      · exact (h.startTest l n kind _ _).arbitrate _

end

end Sys2Proof.Proofs

/-! PROOFS. The outbound queues in their order, and a LOST link quiet (R152 to R161): what each operation on a link
controller keeps of the invariant of the links. -/

namespace Sys2Proof.Proofs

open Sys2Proof Sys2Proof.Machine

/-! ### One controller -/

/-- `LinkController.Ordered` without its clause on the transmitter, which a submission meets again only when the
transmitter has taken its entry. -/
structure InOrder (k : LinkController) : Prop where
  room : k.queue.length ≤ Config.queueCapacity
  sorted : k.queue.Pairwise QueueEntry.Before
  times : ∀ e ∈ k.queue, e.time < k.submissions
  offers : (k.queue.filterMap (·.msg.offerId)).Nodup
  lost : k.lostOffers.Nodup

theorem ordered_iff (k : LinkController) : k.Ordered ↔ InOrder k ∧ (k.transmit = .idle → k.queue = []) :=
  ⟨fun ⟨a, b, c, d, e, f⟩ => ⟨⟨a, b, c, d, f⟩, e⟩, fun ⟨⟨a, b, c, d, f⟩, e⟩ => ⟨a, b, c, d, e, f⟩⟩

theorem InOrder.queue_sublist {k j : LinkController} (h : InOrder k) (hq : j.queue.Sublist k.queue)
    (hs : j.submissions = k.submissions) (hl : j.lostOffers.Sublist k.lostOffers) : InOrder j where
  room := hq.length_le.trans h.room
  sorted := h.sorted.sublist hq
  times e he := hs ▸ h.times e (hq.subset he)
  offers := h.offers.sublist (hq.filterMap _)
  lost := h.lost.sublist hl

theorem InOrder.pump {k : LinkController} (h : InOrder k) (now : Tick) : (k.pump now).Ordered := by
  rw [ordered_iff]
  rcases pump_cases k now with ⟨e, hi⟩ | ⟨e, rest, _, hq, hk⟩
  · rw [e]
    exact ⟨h, fun hk => hi.resolve_left fun n => n hk⟩
  · rw [hk]
    exact ⟨h.queue_sublist (by simp [hq]) rfl (.refl _), by simp⟩

theorem InOrder.noteDiscard {k : LinkController} (h : InOrder k) (m : Message) : InOrder (k.noteDiscard m) := by
  unfold LinkController.noteDiscard
  split
  · split
    · exact h
    · next id hid =>
      refine { h with lost := ?_ }
      rw [List.nodup_append]
      exact ⟨h.lost, by simp, fun a ha b hb => by rintro rfl; simp_all⟩
  · exact h

theorem offerId_cls {m : Message} {id : CallId} (h : m.offerId = some id) : m.cls = 1 := by
  unfold Message.offerId at h
  split at h
  · rfl
  · cases h

/-- A new entry takes its place in order, when no offer with its call id waits already. -/
theorem InOrder.insert {k : LinkController} (h : InOrder k) {q : List QueueEntry} (m : Message) (followUp : Bool)
    (hq : q.Sublist k.queue) (hr : q.length < Config.queueCapacity)
    (hw : ∀ id ∈ m.offerId, offerWaits k.queue id = false) :
    InOrder { k with
      queue := insertEntry { msg := m, time := k.submissions, followUp := followUp } q
      submissions := k.submissions + 1 } where
  room := by simpa using hr
  sorted := insertEntry_ordered _ _ (h.sorted.sublist hq) fun x hx => h.times x (hq.subset hx)
  times e he := by
    rcases (mem_insertEntry _ _ _).1 he with rfl | he
    · exact Nat.lt_succ_self _
    · exact Nat.lt_succ_of_lt (h.times e (hq.subset he))
  offers := by
    rw [((insertEntry_perm _ _).filterMap _).nodup_iff]
    have hn := h.offers.sublist (hq.filterMap (·.msg.offerId))
    cases hm : m.offerId with
    | none => simpa [hm] using hn
    | some id =>
      rw [List.filterMap_cons_some (f := fun x : QueueEntry => x.msg.offerId) (b := id) hm, List.nodup_cons]
      refine ⟨fun hmem => ?_, hn⟩
      obtain ⟨e, he, hid⟩ := List.mem_filterMap.1 hmem
      have := hw id (by simp [hm])
      rw [(offerWaits_iff _ _).2 ⟨e, hq.subset he, hid⟩] at this
      cases this
  lost := h.lost

theorem InOrder.place {k : LinkController} (h : InOrder k) (m : Message) (followUp : Bool)
    (hw : ∀ id ∈ m.offerId, offerWaits k.queue id = false) : InOrder (k.place m followUp) := by
  unfold LinkController.place
  dsimp only
  have hs : InOrder { k with submissions := k.submissions + 1, resync := true } :=
    { h with times := fun e he => Nat.lt_succ_of_lt (h.times e he) }
  split
  · next hr => exact h.insert m followUp (.refl _) hr hw
  · next hr =>
    split
    · split
      · refine InOrder.noteDiscard ?_ _
        have hlen := h.room
        have hi := h.insert m followUp (List.dropLast_sublist k.queue)
          (by rw [List.length_dropLast]; simp only [Config.queueCapacity] at *; omega) hw
        exact { hi with }
      · exact hs.noteDiscard m
    · next hnone =>
      exact absurd (by simp [List.getLast?_eq_none_iff.1 hnone, Config.queueCapacity]) hr

theorem mergeOffer_filterMap {m : Message} {id : CallId} (hm : m.offerId = some id) (q : List QueueEntry) :
    (mergeOffer m id q).filterMap (·.msg.offerId) = q.filterMap (·.msg.offerId) := by
  rw [mergeOffer, List.filterMap_map]
  congr 1
  funext e
  simp only [Function.comp]
  split
  · next h => simpa [Message.offers, hm, eq_comm] using h
  · rfl

/-- A merged offer keeps the place, the class and the time of the entry it takes (R160). -/
theorem InOrder.merge {k : LinkController} (h : InOrder k) {m : Message} {id : CallId}
    (hm : m.offerId = some id) : InOrder { k with queue := mergeOffer m id k.queue } where
  room := by simpa [mergeOffer] using h.room
  sorted := by
    refine List.pairwise_map.2 (h.sorted.imp fun {a b} hab => ?_)
    have hc : ∀ e : QueueEntry, (if e.msg.offers id then { e with msg := m } else e).msg.cls = e.msg.cls ∧
        (if e.msg.offers id then { e with msg := m } else e).time = e.time := by
      intro e
      split
      · next he =>
        exact ⟨(offerId_cls hm).trans (offerId_cls (by simpa [Message.offers] using he)).symm, rfl⟩
      · exact ⟨rfl, rfl⟩
    unfold QueueEntry.Before at *
    rw [(hc a).1, (hc b).1, (hc a).2, (hc b).2]
    exact hab
  times e he := by
    obtain ⟨f, hf, rfl⟩ := List.mem_map.1 he
    split
    · exact h.times f hf
    · exact h.times f hf
  offers := by rw [mergeOffer_filterMap hm]; exact h.offers
  lost := h.lost

theorem InOrder.enqueue {k : LinkController} (h : InOrder k) (m : Message) (followUp : Bool) :
    InOrder (k.enqueue m followUp) := by
  unfold LinkController.enqueue
  split
  · next id hid =>
    have he : InOrder { k with lostOffers := k.lostOffers.erase id } := { h with lost := h.lost.erase id }
    dsimp only
    split
    · exact he.merge hid
    · next hw =>
      refine he.place m followUp fun x hx => ?_
      obtain rfl : id = x := by simpa [hid] using hx
      simpa using hw
  · next hid => exact h.place m followUp fun x hx => by simp [hid] at hx

theorem InOrder.step {lost : Bool} {now : Tick} {k j : LinkController} (h : k.Ordered)
    (hs : LinkStep lost now k j) : j.Ordered := by
  obtain ⟨hk, hi⟩ := (ordered_iff k).1 h
  cases hs with
  | submit m _ => exact (hk.enqueue m false).pump now
  | leave id n _ =>
    unfold LinkController.leave
    split
    · exact (ordered_iff _).2 ⟨hk.queue_sublist List.filter_sublist rfl List.erase_sublist,
        fun ht => by simp [hi ht]⟩
    · split
      · exact (hk.enqueue _ true).pump now
      · exact h

theorem ordered_of_path {lost : Bool} {now : Tick} {k j : LinkController} (h : k.Ordered)
    (hp : LinkPath lost now k j) : j.Ordered := by
  induction hp with
  | refl => exact h
  | tail _ hs ih => exact InOrder.step ih hs

/-! ### A quiet controller -/

/-- Replies alone wait or are in transmission, and no offer is lost (R154, R157). -/
structure Quiet (k : LinkController) : Prop where
  queue : ∀ e ∈ k.queue, e.msg.isReply = true
  sending : ∀ m ∈ k.transmit.message?, m.isReply = true
  lost : k.lostOffers = []

theorem quietWhenLost_iff (s : State) (c : Centre) :
    s.QuietWhenLost c ↔ ((s.centre c).health = .lost → Quiet (s.link c.link)) :=
  ⟨fun h hl => ⟨(h hl).1, (h hl).2.1, (h hl).2.2⟩, fun h hl => ⟨(h hl).queue, (h hl).sending, (h hl).lost⟩⟩

theorem offerId_of_reply {m : Message} (h : m.isReply = true) : m.offerId = none := by
  cases m with
  | reply => rfl
  | notice => cases h

theorem Quiet.pump {k : LinkController} (h : Quiet k) (now : Tick) : Quiet (k.pump now) := by
  rcases pump_cases k now with ⟨e, _⟩ | ⟨e, rest, _, hq, hk⟩
  · rwa [e]
  · rw [hk]
    refine ⟨fun x hx => h.queue x (by simp [hq, hx]), fun m hm => ?_, h.lost⟩
    obtain rfl : e.msg = m := by simpa [Transmit.message?] using hm
    exact h.queue e (by simp [hq])

theorem noteDiscard_of_reply (k : LinkController) {m : Message} (h : m.isReply = true) : k.noteDiscard m = k := by
  simp [LinkController.noteDiscard, offerId_of_reply h]

theorem Quiet.enqueue {k : LinkController} (h : Quiet k) {m : Message} (hm : m.isReply = true) (followUp : Bool) :
    Quiet (k.enqueue m followUp) := by
  simp only [LinkController.enqueue, offerId_of_reply hm]
  have hins : ∀ q : List QueueEntry, (∀ e ∈ q, e ∈ k.queue) →
      ∀ e ∈ insertEntry { msg := m, time := k.submissions, followUp := followUp } q, e.msg.isReply = true := by
    intro q hq e he
    rcases (mem_insertEntry _ _ _).1 he with rfl | he
    · exact hm
    · exact h.queue e (hq e he)
  unfold LinkController.place
  dsimp only
  split
  · exact { h with queue := hins _ fun _ he => he }
  · split
    · next last hlast =>
      split
      · rw [noteDiscard_of_reply _ (h.queue last (List.mem_of_getLast? hlast))]
        exact { h with queue := hins _ fun _ he => List.dropLast_subset _ he }
      · rw [noteDiscard_of_reply _ hm]
        exact { h with }
    · exact { h with queue := hins _ fun _ he => he }

theorem quiet_of_path {now : Tick} {k j : LinkController} (h : Quiet k) (hp : LinkPath true now k j) : Quiet j := by
  induction hp with
  | refl => exact h
  | tail _ hs ih =>
    cases hs with
    | submit m hm => exact (ih.enqueue (hm rfl) false).pump now
    | leave id n hn =>
      rw [hn rfl]
      unfold LinkController.leave
      split
      · exact ⟨fun e he => ih.queue e (List.mem_of_mem_filter he), ih.sending, by simp [ih.lost]⟩
      · exact ih

/-! ### The invariant of the links -/

/-- The invariant of the links, link by link and centre by centre. -/
theorem invLinks_iff (s : State) : InvLinks s ↔
    (∀ l, (s.link l).Ordered) ∧ ∀ c, (s.centre c).Sound ∧ s.QuietWhenLost c := by
  constructor
  · rintro ⟨a, b, c, d, e, f, g⟩
    refine ⟨fun l => ?_, fun x => ?_⟩
    · cases l <;> assumption
    · cases x <;> exact ⟨by assumption, by assumption⟩
  · rintro ⟨h, k⟩
    exact ⟨h .a, h .b, h .s, (k .a).1, (k .b).1, (k .a).2, (k .b).2⟩

/-- Submissions and leaves keep the invariant of the links. -/
theorem Wired.invLinks {s t : State} (hw : Wired s t) (h : InvLinks s) : InvLinks t := by
  obtain ⟨hl, hc⟩ := (invLinks_iff s).1 h
  refine (invLinks_iff t).2 ⟨fun l => ordered_of_path (hl l) (hw.link l), fun c => ?_⟩
  obtain ⟨d, hd⟩ := hw.centre c
  refine ⟨hd ▸ (hc c).1, (quietWhenLost_iff t c).2 fun hlost => ?_⟩
  have hs : (s.centre c).health = .lost := by simpa [hd] using hlost
  have hp := hw.link c.link
  rw [show s.isLost c.link = true by cases c <;> simpa [State.isLost, Centre.link, Link.centre?] using hs] at hp
  exact quiet_of_path ((quietWhenLost_iff s c).1 (hc c).2 hs) hp

/-- A change of one controller that keeps its order, and its quiet while it is LOST. -/
theorem invLinks_setLink {s : State} (h : InvLinks s) (l : Link) (k : LinkController) (ho : k.Ordered)
    (hq : Quiet (s.link l) → Quiet k) : InvLinks (s.setLink l k) := by
  obtain ⟨hl, hc⟩ := (invLinks_iff s).1 h
  refine (invLinks_iff _).2 ⟨fun x => ?_, fun c => ⟨by simpa using (hc c).1, (quietWhenLost_iff _ c).2 fun hlost => ?_⟩⟩
  · rw [State.setLink_link]
    split
    · exact ho
    · exact hl x
  · have hs := (quietWhenLost_iff s c).1 (hc c).2 (by simpa using hlost)
    rw [State.setLink_link]
    split
    · next e => exact hq (e ▸ hs)
    · exact hs

/-- A change of one centre's control that keeps it sound; a link that becomes LOST is quiet by then. -/
theorem invLinks_setCentre {s : State} (h : InvLinks s) (c : Centre) (k : CentreControl) (hk : k.Sound)
    (hq : k.health = .lost → Quiet (s.link c.link)) : InvLinks (s.setCentre c k) := by
  obtain ⟨hl, hc⟩ := (invLinks_iff s).1 h
  refine (invLinks_iff _).2 ⟨fun x => by simpa using hl x, fun d => ?_⟩
  rw [quietWhenLost_iff, State.setCentre_centre, State.setCentre_link]
  split
  · next e => exact ⟨hk, e ▸ hq⟩
  · exact ⟨(hc d).1, (quietWhenLost_iff s d).1 (hc d).2⟩

/-- The invariant of the links depends on the links and the centres alone. -/
theorem invLinks_congr {s t : State} (hl : t.link = s.link) (hc : t.centre = s.centre) (h : InvLinks s) :
    InvLinks t := by
  have hq : ∀ c, t.QuietWhenLost c ↔ s.QuietWhenLost c := fun c => by simp [quietWhenLost_iff, hl, hc]
  simpa [invLinks_iff, hl, hc, hq] using h

end Sys2Proof.Proofs

/-! PROOFS. What a command or event can do to the state, said once: the submissions, calls, scans and tests under
`Scans`, and by name everything that reaches further. -/

namespace Sys2Proof.Proofs

open Sys2Proof Sys2Proof.Machine

/-- What a command that is taken can do to the state `s` its frame has left. -/
inductive Taken (s : State) (l : Link) : State → Prop
  | scans {t : State} (h : Scans s t) : Taken s l t
  | listCalls (start : Byte) : Taken s l (s.takeListCalls l start)
  | setWatch (f : WatchFilter) : Taken s l ((s.setLink l { s.link l with watch := f }).reply l Command.setWatch .ok [])
  | takeOut (n : LineId) (h : s.canWrite (.line n) = true) : Taken s l (s.takeOut l n)
  | takeIn (n : LineId) (h : s.canWrite (.line n) = true) : Taken s l (s.takeIn l n)
  | takeEntry (n : LineId) (raw : RawEntry) (e : Entry) (he : checkEntry raw = some e)
      (h : s.canWrite (.line n) = true) : Taken s l (s.takeEntry l n e)
  | takeProfile (p : ProfileId) (q : Profile) (hq : profileRelated q = true)
      (h : s.canWrite (.profile p) = true) : Taken s l (s.takeProfile l p (clampProfile q))
  | takeSettings (g : GroupId) (x : GroupSettings) (h : s.canWrite (.group g) = true) :
      Taken s l (s.takeSettings l g x)
  | writeAcceptance (i : Fin 4) (e : Acceptance) : Taken s l (s.writeAcceptance l i e)
  | writeTimers (t : CallTimers) : Taken s l (s.writeTimers l (clampTimers t))
  | writeBearer (a b : Byte) : Taken s l (s.writeBearer l (clampBearer a b))
  | takeRestart : Taken s l (s.takeRestart l)

/-- What a command or event can do to the state `s` that it takes. -/
inductive Effect (s : State) : State → Prop
  | scans {t : State} (h : Scans s t) : Effect s t
  | coldStart (mainsOk batteryLow key : Bool) : Effect s (s.coldStart mainsOk batteryLow key)
  | endRead (ld : Load) (h : s.load = some ld) (rep : Option ReadReport) :
      Effect s (s.endRead (rep.bind (judgeRead (Item.ofNumber ld.read))))
  | takeLevel (i : Input) (level : Bool) : Effect s (s.takeLevel i level)
  | endDebounce (i : Input) : Effect s (s.endDebounce i)
  | endWrite (success : Bool) : Effect s (s.endWrite success)
  | receive (l : Link) (r : Receive) : Effect s (s.setReceive l r)
  | badFrame (l : Link) : Effect s (s.dropBadFrame l)
  | enterLost (c : Centre) : Effect s (s.enterLost c)
  | breakRecognised (l : Link) : Effect s ((s.setReceive l (.brk false)).onCentre l State.zeroRecovery)
  | breakLong (c : Centre) : Effect s ((s.setReceive c.link (.brk true)).enterLost c)
  | linkClear (l : Link) : Effect s ((s.setReceive l .hunt).linkClear l)
  | sent (l : Link) (m : Message) (frame : List Byte) (h : (s.link l).transmit = .sending m frame) :
      Effect s ((s.setLink l { s.link l with transmit := .idle }).afterTransmission l m)
  | refused (l : Link) {t : State} (h : Scans (s.arrive l) t) : Effect s t
  | keepalive (l : Link) : Effect s ((s.arrive l).takeKeepalive l)
  | command (l : Link) {t : State} (hw : (s.arrive l).window = none) (hl : (s.arrive l).load = none)
      (hn : (s.arrive l).isLost l = false) (h : Taken (s.arrive l) l t) : Effect s t

/-- What a frame with a command does on its link: nothing in a break; otherwise the frame's own effect, and then a
refusal, KEEPALIVE's reply or what the command can do when it is taken (R150, R151, R156). -/
inductive Commanded (s : State) (l : Link) : State → Prop
  | unheard (h : (s.link l).receive.inBreak = true) : Commanded s l s
  | refused (type : Byte) (code : ReplyCode) : Commanded s l ((s.arrive l).refuse l type code)
  | keepalive : Commanded s l ((s.arrive l).takeKeepalive l)
  | taken {t : State} (hw : (s.arrive l).window = none) (hl : (s.arrive l).load = none)
      (hn : (s.arrive l).isLost l = false) (h : Taken (s.arrive l) l t) : Commanded s l t

theorem Commanded.effect {s t : State} {l : Link} (h : Commanded s l t) : Effect s t := by
  cases h with
  | unheard _ => exact .scans (.refl s)
  | refused type code => exact .refused l ((Calls.refl _).refuse l type code).scans
  | keepalive => exact .keepalive l
  | taken hw hl hn h => exact .command l hw hl hn h

/-- An event whose effect calls alone. -/
theorem Effect.calls {s t : State} (h : Calls s t) : Effect s t := .scans h.scans

theorem Taken.calls {s t : State} {l : Link} (h : Calls s t) : Taken s l t := .scans h.scans

theorem Taken.refuse (s : State) (l : Link) (type : Byte) (code : ReplyCode) : Taken s l (s.refuse l type code) :=
  .calls ((Calls.refl s).refuse l type code)

theorem Taken.reply (s : State) (l : Link) (type : Byte) (code : ReplyCode) (fields : List Byte) :
    Taken s l (s.reply l type code fields) := .calls ((Calls.refl s).reply l type code fields)

/-- The commands that an end of break or a lack of rights does not refuse (R150). -/
theorem heldUp_eq_none {s : State} {l : Link} {type : Byte} (h : s.heldUp l type = none)
    (ht : type ≠ Command.keepalive) : s.window = none ∧ s.load = none ∧ s.isLost l = false := by
  unfold State.heldUp at h
  split at h
  · cases h
  · next hw =>
    split at h
    · cases h
    · next hl =>
      split at h
      · cases h
      · next hn => exact ⟨by simpa using hw, by simpa using hl, by simpa using hn⟩

/-- Every outcome of a command's checks: not received in a break, refused, or taken (R150, R151, R156). -/
theorem command_cases {α : Type} (s : State) (l : Link) (type : Byte) (right : Right) (read : Option α)
    (act : State → α → State) :
    ((s.link l).receive.inBreak = true ∧ s.command l type right read act = s) ∨
    (∃ code, s.command l type right read act = (s.arrive l).refuse l type code) ∨
    ∃ x, read = some x ∧ (s.arrive l).heldUp l type = none ∧ (s.arrive l).holds l right = true ∧
      s.command l type right read act = act (s.arrive l) x := by
  unfold State.command
  dsimp only
  split
  · exact .inl ⟨by assumption, rfl⟩
  · split
    · exact .inr (.inl ⟨_, rfl⟩)
    · split
      · split
        · exact .inr (.inr ⟨_, rfl, by assumption, by assumption, rfl⟩)
        · exact .inr (.inl ⟨_, rfl⟩)
      · exact .inr (.inl ⟨_, rfl⟩)

/-- A command has the effect of its frame and then what it can do when it is taken. -/
theorem commanded_command {α : Type} (s : State) (l : Link) (type : Byte) (right : Right) (read : Option α)
    (act : State → α → State) (ht : type ≠ Command.keepalive)
    (h : ∀ a x, read = some x → Taken a l (act a x)) : Commanded s l (s.command l type right read act) := by
  rcases command_cases s l type right read act with ⟨hb, e⟩ | ⟨code, e⟩ | ⟨x, hx, hh, _, e⟩
  · exact e.symm ▸ .unheard hb
  · exact e.symm ▸ .refused type code
  · obtain ⟨hw, hl, hn⟩ := heldUp_eq_none hh ht
    exact e.symm ▸ .taken hw hl hn (h _ x hx)

/-- A command of the CALLS right acts on calls, lines, channels and links alone. -/
theorem commanded_centreCommand {α : Type} (s : State) (l : Link) (type : Byte) (read : Option α)
    (act : State → Centre → α → State) (ht : type ≠ Command.keepalive)
    (h : ∀ a c x, Calls a (act a c x)) : Commanded s l (s.centreCommand l type read act) := by
  refine commanded_command s l type .calls read _ ht fun a x _ => .calls ?_
  unfold State.onCentre
  split
  · exact h a _ x
  · exact .refl a

theorem taken_withLine {a : State} {l : Link} (type b : Byte) {act : LineId → State}
    (h : ∀ n, Taken a l (act n)) : Taken a l (a.withLine l type b act) := by
  unfold State.withLine
  split
  · exact h _
  · exact .refuse a l type _

theorem taken_withFitted {a : State} {l : Link} (type : Byte) (n : LineId) {act : State}
    (h : Taken a l act) : Taken a l (a.withFitted l type n act) := by
  unfold State.withFitted
  split
  · exact .refuse a l type _
  · exact h

theorem taken_serviceIn (a : State) (l : Link) (n : LineId) : Taken a l (a.serviceIn l n) := by
  unfold State.serviceIn
  split
  case h_3 =>
    split
    · exact .takeIn n ‹_›
    · exact .refuse a l _ _
  all_goals exact .reply a l _ _ _

theorem taken_serviceOut (a : State) (l : Link) (n : LineId) : Taken a l (a.serviceOut l n) := by
  have hw : Taken a l (if a.canWrite (.line n) then a.takeOut l n else a.refuse l Command.setService .storeBusy) := by
    split
    · exact .takeOut n ‹_›
    · exact .refuse a l _ _
  unfold State.serviceOut
  split
  case h_3 => exact hw
  case h_4 => exact hw
  case h_5 => exact hw
  all_goals exact .reply a l _ _ _

theorem commanded_setService (s : State) (l : Link) (body : List Byte) : Commanded s l (s.setService l body) := by
  refine commanded_command s l _ _ _ _ (by decide) fun a x _ => taken_withLine _ _ fun n => ?_
  split
  · exact taken_serviceIn a l n
  · split
    · exact taken_serviceOut a l n
    · exact .refuse a l _ _

theorem taken_writeEntry (a : State) (l : Link) (n : LineId) {raw : RawEntry} {e : Entry}
    (he : checkEntry raw = some e) : Taken a l (a.writeEntry l n e) := by
  unfold State.writeEntry
  dsimp only
  split
  · exact .refuse a l _ _
  · split
    · exact .takeEntry n raw e he ‹_›
    · exact .refuse a l _ _
  · exact .refuse a l _ _

theorem taken_writeProfile (a : State) (l : Link) (p : ProfileId) (q : Profile) :
    Taken a l (a.writeProfile l p q) := by
  unfold State.writeProfile
  dsimp only
  split
  · exact .refuse a l _ _
  · split
    · exact .refuse a l _ _
    · split
      · next hq _ hw => exact .takeProfile p q (by simpa using hq) hw
      · exact .refuse a l _ _

theorem taken_writeSettings (a : State) (l : Link) (g : GroupId) (x : GroupSettings) :
    Taken a l (a.writeSettings l g x) := by
  unfold State.writeSettings
  split
  · exact .refuse a l _ _
  · split
    · exact .takeSettings g x ‹_›
    · exact .refuse a l _ _

theorem effect_endOrder (s : State) (g : GroupId) (x : Option (Code × Code)) : Effect s (s.endOrder g x) :=
  .scans ((Scans.refl s).endOrder g x)

theorem commanded_keepalive (s : State) (l : Link) (body : List Byte) :
    Commanded s l (s.command l Command.keepalive .none (readNone body) fun a _ => a.takeKeepalive l) := by
  rcases command_cases s l Command.keepalive .none (readNone body) fun a _ => a.takeKeepalive l with
    ⟨hb, e⟩ | ⟨code, e⟩ | ⟨_, _, _, _, e⟩
  · exact e.symm ▸ .unheard hb
  · exact e.symm ▸ .refused _ code
  · exact e.symm ▸ .keepalive

/-- What each command does on its link. -/
theorem exec_commanded {c : Instr} {k : LinkCommand} (hk : linkCommand c = some k) (s : State) :
    ∃ f, exec c s = s.taking f ∧ ∀ b, Commanded b k.link (f b) := by
  cases c <;> cases hk <;> dsimp only [exec, execKeepalive, execListCalls, execListAbandoned, execLineStatus,
    execReadDirectory, execReadProfile, execReadGroup, execSetWatch, execClaim, execAnswerNext, execHold,
    execRetrieve, execRelease, execTransfer, execRingPost, execCancelRing, execDismiss, execHandoverRequest,
    execResume, execSetServiceOut, execSetServiceIn, execTestLine, execWriteDirectory, execWriteProfile,
    execSetGroup, execSetAcceptance, execSetCallTimers, execSetBearer, execRestart]
  case keepalive l body => exact ⟨_, rfl, fun b => (commanded_keepalive b l body)⟩
  case listCalls l body => exact ⟨_, rfl, fun b => (commanded_command b l _ _ _ _ (by decide) fun a x _ => .listCalls x)⟩
  case listAbandoned l body => exact ⟨_, rfl, fun b => (commanded_command b l _ _ _ _ (by decide) fun a x _ => .reply a l _ _ _)⟩
  case lineStatus l body =>
    exact ⟨_, rfl, fun b => (commanded_command b l _ _ _ _ (by decide) fun a x _ =>
      taken_withLine _ _ fun n => .reply a l _ _ _)⟩
  case readDirectory l body =>
    exact ⟨_, rfl, fun b => (commanded_command b l _ _ _ _ (by decide) fun a x _ =>
      taken_withLine _ _ fun n => taken_withFitted _ n (.reply a l _ _ _))⟩
  case readProfile l body =>
    refine ⟨_, rfl, fun b => (commanded_command b l _ _ _ _ (by decide) fun a x _ => ?_)⟩
    split
    · exact .reply a l _ _ _
    · exact .refuse a l _ _
  case readGroup l body =>
    refine ⟨_, rfl, fun b => (commanded_command b l _ _ _ _ (by decide) fun a x _ => ?_)⟩
    split
    · exact .reply a l _ _ _
    · exact .refuse a l _ _
  case setWatch l body =>
    refine ⟨_, rfl, fun b => (commanded_command b l _ _ _ _ (by decide) fun a x _ => ?_)⟩
    split
    · exact .setWatch _
    · exact .refuse a l _ _
  case claim l body =>
    exact ⟨_, rfl, fun b => (commanded_centreCommand b l _ _ _ (by decide) fun a c x =>
      (Calls.refl a).withCall l _ x fun r => (Calls.refl a).claimRecord c r)⟩
  case answerNext l body =>
    exact ⟨_, rfl, fun b => (commanded_centreCommand b l _ _ _ (by decide) fun a c _ => (Calls.refl a).answerNext c)⟩
  case hold l body =>
    refine ⟨_, rfl, fun b => (commanded_centreCommand b l _ _ _ (by decide) fun a c x =>
      (Calls.refl a).withClaimed c _ x fun r => ?_)⟩
    split
    · exact (Calls.refl a).holdCall c r
    · exact (Calls.refl a).refuse l _ _
  case retrieve l body =>
    refine ⟨_, rfl, fun b => (commanded_centreCommand b l _ _ _ (by decide) fun a c x =>
      (Calls.refl a).withClaimed c _ x fun r => ?_)⟩
    split
    · split
      · exact (Calls.refl a).retrieveCall c r _
      · exact (Calls.refl a).refuse l _ _
    · exact (Calls.refl a).refuse l _ _
  case release l body =>
    refine ⟨_, rfl, fun b => (commanded_centreCommand b l _ _ _ (by decide) fun a c x =>
      (Calls.refl a).withClaimed c _ x fun r => ?_)⟩
    split
    · exact ((Calls.refl a).refuse l _ _).endCall r _ _
    · exact (Calls.refl a).refuse l _ _
  case transfer l body =>
    refine ⟨_, rfl, fun b => (commanded_centreCommand b l _ _ _ (by decide) fun a c x =>
      (Calls.refl a).withClaimed c _ x fun r => ?_)⟩
    split
    · exact (Calls.refl a).refuse l _ _
    · split
      · exact (Calls.refl a).refuse l _ _
      · exact (Calls.refl a).transferCall c r
  case ringPost l body =>
    refine ⟨_, rfl, fun b => (commanded_centreCommand b l _ _ _ (by decide) fun a c x => ?_)⟩
    unfold State.withLine
    split
    · exact (Calls.refl a).ringPost c _
    · exact (Calls.refl a).refuse l _ _
  case cancelRing l body =>
    refine ⟨_, rfl, fun b => (commanded_centreCommand b l _ _ _ (by decide) fun a c x => ?_)⟩
    unfold State.withLine
    split
    · exact (Calls.refl a).cancelRing c _
    · exact (Calls.refl a).refuse l _ _
  case dismiss l body =>
    exact ⟨_, rfl, fun b => (commanded_centreCommand b l _ _ _ (by decide) fun a c x => (Calls.refl a).dismiss c x)⟩
  case handoverRequest l body =>
    exact ⟨_, rfl, fun b => (commanded_centreCommand b l _ _ _ (by decide) fun a c _ => (Calls.refl a).handoverRequest c)⟩
  case resume l body =>
    exact ⟨_, rfl, fun b => (commanded_centreCommand b l _ _ _ (by decide) fun a c _ => (Calls.refl a).resumeDuty c)⟩
  case setServiceOut l body => exact ⟨_, rfl, fun b => (commanded_setService b l body)⟩
  case setServiceIn l body => exact ⟨_, rfl, fun b => (commanded_setService b l body)⟩
  case testLine l body =>
    refine ⟨_, rfl, fun b => (commanded_command b l _ _ _ _ (by decide) fun a x _ => taken_withLine _ _ fun n => ?_)⟩
    split
    · exact taken_withFitted _ n (.scans ((Scans.refl a).testLine l n _))
    · exact .refuse a l _ _
  case writeDirectory l body =>
    refine ⟨_, rfl, fun b => (commanded_command b l _ _ _ _ (by decide) fun a x _ => ?_)⟩
    split
    · next he => exact taken_writeEntry a l _ he
    · exact .refuse a l _ _
  case writeProfile l body =>
    refine ⟨_, rfl, fun b => (commanded_command b l _ _ _ _ (by decide) fun a x _ => ?_)⟩
    split
    · exact taken_writeProfile a l _ _
    · exact .refuse a l _ _
  case setGroup l body =>
    refine ⟨_, rfl, fun b => (commanded_command b l _ _ _ _ (by decide) fun a x _ => ?_)⟩
    split
    · exact taken_writeSettings a l _ _
    · exact .refuse a l _ _
  case setAcceptance l body =>
    refine ⟨_, rfl, fun b => (commanded_command b l _ _ _ _ (by decide) fun a x _ => ?_)⟩
    split
    · exact .writeAcceptance _ _
    · exact .refuse a l _ _
  case setCallTimers l body =>
    exact ⟨_, rfl, fun b => (commanded_command b l _ _ _ _ (by decide) fun a x _ => .writeTimers x)⟩
  case setBearer l body =>
    exact ⟨_, rfl, fun b => (commanded_command b l _ _ _ _ (by decide) fun a x _ => .writeBearer x.1 x.2)⟩
  case restart l body =>
    exact ⟨_, rfl, fun b => (commanded_command b l _ _ _ _ (by decide) fun a x _ => .takeRestart)⟩

/-- What each event does. -/
theorem exec_event_effect {c : Instr} (hk : linkCommand c = none) (s : State) :
    ∃ f, exec c s = s.taking f ∧ ∀ b, Effect b (f b) := by
  cases c <;> simp only [linkCommand, reduceCtorEq] at hk
  all_goals dsimp only [exec, execColdStart, execStoreReadCompletion, execStoreReadTimeout,
    execInputChange, execDebounceExpiry, execPassTimerExpiry, execOrderReady, execOrderReadyTimeout,
    execFixedSettleEnd, execProbeDelayExpiry, execParkTimerExpiry, execRingTimerExpiry, execIdentityBurst,
    execWindowTimerExpiry, execEscalationTimerExpiry, execOverdueTimerExpiry, execTransferTimerExpiry,
    execLongCallTimerExpiry, execDwellTimerExpiry, execTestTimeLimit, execHookSense,
    execStoreWriteCompletion, execStoreWriteTimeout, execFrameBad, execFrameTimerExpiry,
    execSilenceTimerExpiry, execBreakRecognised, execBreakLong, execBreakEnd, execTransmissionComplete,
    execUnknownCommand, execSyncByteReceived]
  case coldStart m x k => exact ⟨_, rfl, fun b => .coldStart m x k⟩
  case storeReadCompletion late rep =>
    refine ⟨_, rfl, fun b => ?_⟩
    split
    · next ld hl => exact .endRead ld hl (some rep)
    · exact .scans (.refl b)
  case storeReadTimeout =>
    refine ⟨_, rfl, fun b => ?_⟩
    cases hl : b.load with
    | none => simpa [State.endRead, hl] using Effect.scans (.refl b)
    | some ld => exact .endRead ld hl none
  case inputChange i x => exact ⟨_, rfl, fun b => .takeLevel i x⟩
  case debounceExpiry i => exact ⟨_, rfl, fun b => .endDebounce i⟩
  case passTimerExpiry g => exact ⟨_, rfl, fun b => .scans ((Scans.refl b).endPassTimer g)⟩
  case orderReady g late vc ic valid =>
    refine ⟨_, rfl, fun b => ?_⟩
    split
    · split
      · exact effect_endOrder b g _
      · exact .scans (.refl b)
    · exact .scans (.refl b)
  case orderReadyTimeout g =>
    refine ⟨_, rfl, fun b => ?_⟩
    split
    · split
      · exact effect_endOrder b g _
      · exact .scans (.refl b)
    · exact .scans (.refl b)
  case fixedSettleEnd g vc ic valid =>
    refine ⟨_, rfl, fun b => ?_⟩
    split
    · split
      · exact .scans (.refl b)
      · exact effect_endOrder b g _
    · exact .scans (.refl b)
  case probeDelayExpiry g => exact ⟨_, rfl, fun b => .scans ((Scans.refl b).endProbeDelay g)⟩
  case parkTimerExpiry n =>
    refine ⟨_, rfl, fun b => .calls ?_⟩
    split
    · exact ((Calls.refl b).setCondition n _).notifyLine n _
    · exact .refl b
  case ringTimerExpiry n =>
    refine ⟨_, rfl, fun b => .calls ?_⟩
    split
    · exact ((Calls.refl b).stopRing n _).notify _ _
    · exact .refl b
  case identityBurst n bytes heard =>
    refine ⟨_, rfl, fun b => .calls ?_⟩
    split
    · split
      · exact (Calls.refl b).endCapture n _
      · exact .refl b
    · exact .refl b
  case windowTimerExpiry n =>
    refine ⟨_, rfl, fun b => .calls ?_⟩
    split
    · exact (Calls.refl b).endCapture n _
    · exact .refl b
  case escalationTimerExpiry id => exact ⟨_, rfl, fun b => .calls ((Calls.refl b).atRecord id (Calls.refl b).endEscalation)⟩
  case overdueTimerExpiry id => exact ⟨_, rfl, fun b => .calls ((Calls.refl b).atRecord id (Calls.refl b).endOverdue)⟩
  case transferTimerExpiry id => exact ⟨_, rfl, fun b => .calls ((Calls.refl b).atRecord id (Calls.refl b).endTransferTimer)⟩
  case longCallTimerExpiry id => exact ⟨_, rfl, fun b => .calls ((Calls.refl b).atRecord id (Calls.refl b).endLongCallTimer)⟩
  case dwellTimerExpiry g => exact ⟨_, rfl, fun b => .scans ((Scans.refl b).endDwell g)⟩
  case testTimeLimit g => exact ⟨_, rfl, fun b => .scans ((Scans.refl b).endTest g _)⟩
  case hookSense n =>
    refine ⟨_, rfl, fun b => .scans ?_⟩
    split
    · split
      · exact (Scans.refl b).endTest n.group _
      · exact .refl b
    · exact .refl b
  case storeWriteCompletion late ok =>
    refine ⟨_, rfl, fun b => ?_⟩
    split
    · exact .scans (.refl b)
    · exact .endWrite ok
  case storeWriteTimeout => exact ⟨_, rfl, fun b => .endWrite false⟩
  case frameBad l bytes =>
    refine ⟨_, rfl, fun b => ?_⟩
    split
    · exact .badFrame l
    · exact .scans (.refl b)
  case frameTimerExpiry l =>
    refine ⟨_, rfl, fun b => ?_⟩
    split
    · exact .badFrame l
    · exact .scans (.refl b)
  case silenceTimerExpiry c =>
    refine ⟨_, rfl, fun b => ?_⟩
    split
    · exact .enterLost c
    · exact .scans (.refl b)
  case breakRecognised l =>
    refine ⟨_, rfl, fun b => ?_⟩
    split
    · exact .scans (.refl b)
    · exact .breakRecognised l
  case breakLong c =>
    refine ⟨_, rfl, fun b => ?_⟩
    split
    · exact .breakLong c
    · exact .scans (.refl b)
  case breakEnd l =>
    refine ⟨_, rfl, fun b => ?_⟩
    split
    · exact .receive l _
    · exact .linkClear l
    · exact .scans (.refl b)
  case transmissionComplete l =>
    refine ⟨_, rfl, fun b => ?_⟩
    split
    · next m f h => exact .sent l m f h
    · exact .scans (.refl b)
  case unknownCommand l type body =>
    refine ⟨_, rfl, fun b => ?_⟩
    split
    · exact .scans (.refl b)
    · next hn =>
      exact (commanded_command b l type _ _ _ (by rintro rfl; exact hn (by decide)) fun a x _ => .refuse a l _ _).effect
  case syncByteReceived l =>
    refine ⟨_, rfl, fun b => ?_⟩
    split
    · exact .receive l _
    · exact .scans (.refl b)
    · exact .scans (.refl b)

/-- Every command and event has one of these effects on the state that it takes. -/
theorem exec_effect (c : Instr) (s : State) : ∃ f, exec c s = s.taking f ∧ ∀ b, Effect b (f b) := by
  cases hk : linkCommand c with
  | some k =>
    obtain ⟨f, hf, h⟩ := exec_commanded hk s
    exact ⟨f, hf, fun b => (h b).effect⟩
  | none => exact exec_event_effect hk s

/-- Every step lets a millisecond pass or takes the front command. -/
theorem step_effect {s t : State} (h : step s = .next t) :
    t = s.idle ∨ ∃ rest, Effect { s with pending := rest, orders := [] } t := by
  cases hp : s.pending with
  | nil => exact .inl (Host.Outcome.next.inj (h.symm.trans (step_nil s hp)))
  | cons c rest =>
    obtain ⟨f, hf, he⟩ := exec_effect c { s with pending := rest }
    rw [step_cons s c rest hp, hf, State.taking_eq] at h
    exact .inr ⟨rest, Host.Outcome.next.inj h ▸ he _⟩

end Sys2Proof.Proofs

/-! PROOFS. Every step keeps the invariant of the links (R152 to R161). The state beside the links is followed as far
as `firm` keeps it. -/

namespace Sys2Proof.Proofs

open Sys2Proof Sys2Proof.Machine

/-- The state without what a link event can change: `still`, and the window, the ticks and the pending marks of the
load report as well. -/
def firm (s : State) : State :=
  { still s with
    window := none, tick := 0, subTick := 0
    reportPendingA := false, reportPendingB := false, reportPendingS := false }

section

variable {s t : State}

theorem Scans.firm (h : Scans s t) : Proofs.firm t = Proofs.firm s :=
  congrArg (fun u : State => { u with
    window := none, tick := 0, subTick := 0
    reportPendingA := false, reportPendingB := false, reportPendingS := false }) h.still

theorem Calls.firm (h : Calls s t) : Proofs.firm t = Proofs.firm s := h.scans.firm

@[simp] theorem firm_setLink (s : State) (l : Link) (k : LinkController) : firm (s.setLink l k) = firm s := by
  cases l <;> rfl

@[simp] theorem firm_setCentre (s : State) (c : Centre) (k : CentreControl) : firm (s.setCentre c k) = firm s := by
  cases c <;> rfl

@[simp] theorem firm_setReceive (s : State) (l : Link) (r : Receive) : firm (s.setReceive l r) = firm s :=
  firm_setLink s l _

/-! ### The warm restart -/

theorem Calls.clearRecords (h : Calls s t) : Calls s { t with records := [] } := h.of_eq rfl rfl rfl
theorem Calls.clearOverflow (h : Calls s t) : Calls s { t with overflow := [] } := h.of_eq rfl rfl rfl
theorem Calls.setCounter (h : Calls s t) (xs : List AbandonedEntry) (n : CallId) :
    Calls s { t with abandoned := xs, idCounter := n } := h.of_eq rfl rfl rfl
theorem Scans.clearTests (h : Scans s t) : Scans s { t with tests := .replicate 8 none } := h.of_eq rfl rfl rfl
theorem Scans.setGroups (h : Scans s t) (v : Vector GroupRecord 8) : Scans s { t with groups := v } := h.of_eq rfl rfl rfl
theorem Scans.restartLines (h : Scans s t) : Scans s t.restartLines := h.of_eq rfl rfl rfl
theorem Scans.restartReceivers (h : Scans s t) : Scans s t.restartReceivers := h.of_eq rfl rfl rfl

theorem Calls.restartRegister (h : Calls s t) : Calls s t.restartRegister := by
  have h1 := (h.each t.registerOrder fun hu r => hu.freeHeld r.channel).each (List.finRange 6) fun hu ch =>
    hu.freeChannel ch
  have h2 := fun xs => h1.clearRecords.each xs fun {u} hu r => hu.addAbandoned (abandonedOfRecord r u.tick)
  exact (((h2 _).clearOverflow).each _ fun hu e => hu.abandonOverflow e).setCounter _ _

theorem Scans.restartTests (h : Scans s t) : Scans s t.restartTests := by
  refine (h.each (List.finRange 8) (f := fun s g => match s.test g with
    | some t => s.restoreDrives t
    | none => s) fun {u} hu g => ?_).clearTests
  split
  · exact hu.calls ((Calls.refl u).restoreDrives _)
  · exact hu

theorem Scans.restartGroups (h : Scans s t) : Scans s t.restartGroups := by
  unfold State.restartGroups
  refine State.each_keeps (Scans s) _ (fun u g hu => ?_) _ _ (h.setGroups _)
  split
  · exact (hu.startPass g).arbitrate g
  · exact hu

/-- What a warm restart reaches before the links and the ticks is calls, lines, receivers, scanners and tests. -/
theorem scans_restart (s : State) :
    Scans s s.restartRegister.restartTests.restartLines.restartReceivers.restartGroups :=
  (Calls.refl s).restartRegister.scans.restartTests.restartLines.restartReceivers.restartGroups

theorem firm_restartLinks (s : State) : firm { s.restartLinks with tick := 0, subTick := 0 } = firm s := rfl

theorem firm_warmRestart (s : State) : firm s.warmRestart = firm s := by
  unfold State.warmRestart
  rw [firm_restartLinks]
  exact (scans_restart _).firm

/-- A warm restart leaves the links and the centres as after a cold start, RESYNC set (R166). -/
theorem invLinks_fresh {s : State} {clock : Nat} (hl : ∀ l, s.link l = .initial ∨ s.link l = .restarted)
    (hc : ∀ c, s.centre c = .initial clock) : InvLinks s := by
  refine (invLinks_iff s).2 ⟨fun l => ?_, fun c => ?_⟩
  · rcases hl l with h | h <;> rw [h] <;>
      simp [LinkController.Ordered, LinkController.restarted, LinkController.initial, Config.queueCapacity]
  · simp [CentreControl.Sound, State.QuietWhenLost, hc, CentreControl.initial, healthOf, Config.recoveryFrames]

theorem invLinks_warmRestart (s : State) : InvLinks s.warmRestart :=
  invLinks_fresh (fun l => .inr (by cases l <;> rfl)) (fun c => by cases c <;> rfl)

theorem invLinks_coldStart (s : State) (m b k : Bool) : InvLinks (s.coldStart m b k) :=
  invLinks_fresh (fun l => .inl (by cases l <;> rfl)) (fun c => by cases c <;> rfl)

/-! ### Health -/

theorem healthOf_lost (n : Nat) : healthOf n = .lost ↔ Config.lostScore ≤ n := by
  unfold healthOf
  simp only [Config.lostScore]
  have h96 : n < 96 → ¬ 256 ≤ n := by omega
  have h128 : n < 128 → ¬ 256 ≤ n := by omega
  split
  · next h => simp [h96 h]
  · split
    · next h => simp [h128 h]
    · by_cases h : n < 256
      · simp [h]
      · simp [h, Nat.le_of_not_lt h]

theorem Calls.invLinks (h : Calls s t) (hs : InvLinks s) : InvLinks t := h.wired.invLinks hs

/-- A score short of 256 keeps the links sound (R152). -/
theorem invLinks_takeScore (h : InvLinks s) (c : Centre) (n : Nat) (hn : n < Config.lostScore)
    (hl : (s.centre c).health ≠ .lost) : InvLinks (s.takeScore c n) := by
  obtain ⟨_, hc⟩ := (invLinks_iff s).1 h
  obtain ⟨-, -, hr, hr0, hsil⟩ := (hc c).1
  have hne : healthOf n ≠ .lost := fun e => absurd ((healthOf_lost n).1 e) (by omega)
  refine ((Calls.refl _).healthChanged c _).invLinks (invLinks_setCentre h c _ ⟨by exact hn.le, rfl, hr, ?_, ?_⟩ ?_)
  · exact fun _ => hr0 hl
  · exact ⟨fun e => absurd e hne, fun e => absurd (hsil.2 e) hl⟩
  · exact fun e => absurd e hne

theorem invLinks_startSilence (h : InvLinks s) (c : Centre) (hl : (s.centre c).health ≠ .lost) :
    InvLinks (s.startSilence c) := by
  obtain ⟨_, hc⟩ := (invLinks_iff s).1 h
  obtain ⟨h1, h2, h3, h4, -⟩ := (hc c).1
  exact invLinks_setCentre h c _ ⟨h1, h2, h3, h4, by simp [hl]⟩ fun e => absurd e hl

theorem invLinks_recover (h : InvLinks s) (c : Centre) : InvLinks (s.recover c) := by
  unfold State.recover
  refine ((Calls.refl _).healthChanged c _).invLinks ?_
  have h1 : InvLinks ((s.setCentre c { s.centre c with score := 0, health := .good, recovery := 0 }).startSilence c) := by
    rw [State.startSilence, State.setCentre_setCentre]
    refine invLinks_setCentre h c _ ?_ ?_
    · simp [CentreControl.Sound, healthOf, Config.recoveryFrames]
    · simp
  have h2 := (((invLinks_iff _).1 h1).1 c.link)
  exact invLinks_setLink h1 c.link _ h2 fun hq => ⟨hq.queue, hq.sending, hq.lost⟩

theorem invLinks_validFrame (h : InvLinks s) (c : Centre) : InvLinks (s.validFrame c) := by
  obtain ⟨_, hc⟩ := (invLinks_iff s).1 h
  obtain ⟨⟨h1, h2, h3, h4, h5⟩, hq⟩ := hc c
  unfold State.validFrame
  dsimp only
  split
  · next hl =>
    split
    · exact invLinks_recover h c
    · next hr =>
      exact invLinks_setCentre h c _ ⟨h1, h2, by exact Nat.lt_of_not_le hr, fun e => absurd hl e, h5⟩
        (quietWhenLost_iff s c |>.1 hq)
  · next hl =>
    refine invLinks_takeScore (invLinks_startSilence h c hl) c _ ?_ (by simpa [State.startSilence] using hl)
    have : ¬ Config.lostScore ≤ (s.centre c).score := fun e => hl (h2.trans ((healthOf_lost _).2 e))
    omega

/-- Everything waiting is dropped: the controller is in order and quiet (R154). -/
theorem emptied_ordered (k : LinkController) : k.emptied.Ordered := by
  simp [LinkController.Ordered, LinkController.emptied]

theorem emptied_quiet (k : LinkController) : Quiet k.emptied :=
  ⟨by simp [LinkController.emptied], by simp [LinkController.emptied, Transmit.message?], rfl⟩

theorem invLinks_enterLost (h : InvLinks s) (c : Centre) : InvLinks (s.enterLost c) := by
  unfold State.enterLost
  dsimp only
  split
  · exact h
  · split
    · exact invLinks_warmRestart _
    · refine ((Calls.refl _).lossOfLink c).invLinks ?_
      rw [show ∀ k, (s.setCentre c k).setLink c.link ((s.setCentre c k).link c.link).emptied =
          (s.setLink c.link (s.link c.link).emptied).setCentre c k from fun k => by cases c <;> rfl]
      refine invLinks_setCentre (invLinks_setLink h c.link _ (emptied_ordered _) fun _ => emptied_quiet _) c _ ?_ ?_
      · simp [CentreControl.Sound, Config.lostScore, Config.recoveryFrames, healthOf]
      · intro _
        simpa using emptied_quiet (s.link c.link)

theorem invLinks_zeroRecovery (h : InvLinks s) (c : Centre) :
    InvLinks (s.setCentre c { s.centre c with recovery := 0 }) := by
  obtain ⟨_, hc⟩ := (invLinks_iff s).1 h
  obtain ⟨⟨h1, h2, -, -, h5⟩, hq⟩ := hc c
  exact invLinks_setCentre h c _ ⟨h1, h2, by simp [Config.recoveryFrames], fun _ => rfl, h5⟩
    ((quietWhenLost_iff s c).1 hq)

theorem invLinks_badFrame (h : InvLinks s) (c : Centre) : InvLinks (s.badFrame c) := by
  unfold State.badFrame
  dsimp only
  split
  · exact invLinks_zeroRecovery h c
  · next hl =>
    split
    · exact invLinks_enterLost h c
    · next hn => exact invLinks_takeScore h c _ (by omega) hl

/-! ### The receiver and the transmitter -/

theorem invLinks_setReceive (h : InvLinks s) (l : Link) (r : Receive) : InvLinks (s.setReceive l r) :=
  invLinks_setLink h l _ (((invLinks_iff s).1 h).1 l) fun hq => ⟨hq.queue, hq.sending, hq.lost⟩

theorem invLinks_onCentre (h : InvLinks s) (l : Link) {f : State → Centre → State}
    (hf : ∀ c, InvLinks (f s c)) : InvLinks (s.onCentre l f) := by
  unfold State.onCentre
  split
  · exact hf _
  · exact h

theorem invLinks_deliverReport (h : InvLinks s) (l : Link) : InvLinks (s.deliverReport l) := by
  unfold State.deliverReport
  have h1 : InvLinks (s.setReportPending l false) :=
    invLinks_congr (by funext x; simp) (by funext x; simp) h
  split
  · dsimp only
    split
    · exact ((Calls.refl _).notify l _).invLinks h1
    · exact h1
  · exact h

theorem invLinks_arrive (h : InvLinks s) (l : Link) : InvLinks (s.arrive l) :=
  invLinks_deliverReport (invLinks_onCentre (invLinks_setReceive h l _) l
    (invLinks_validFrame (invLinks_setReceive h l _))) l

/-- The transmitter takes the next entry; the controller needs only its queue in order before. -/
theorem invLinks_pump {s : State} (h : InvLinks s) (l : Link) (k : LinkController) (ho : InOrder k)
    (hq : Quiet (s.link l) → Quiet k) (now : Tick) : InvLinks (s.setLink l (k.pump now)) :=
  invLinks_setLink h l _ (ho.pump now) fun q => (hq q).pump now

/-- The end of a transmission, on a link whose controller has its queue in order (R159). -/
theorem invLinks_afterTransmission {s : State} (h : InvLinks s) (l : Link) (k : LinkController) (ho : InOrder k)
    (hq : Quiet (s.link l) → Quiet k) (m : Message) : InvLinks ((s.setLink l k).afterTransmission l m) := by
  unfold State.afterTransmission
  split
  · exact invLinks_warmRestart _
  · rw [State.setLink_setLink]
    simpa using invLinks_pump h l k ho hq s.tick

theorem cut_inOrder {k : LinkController} (h : InOrder k) (f : CallId → Bool) : InOrder (k.cut f) := by
  unfold LinkController.cut
  have hi : InOrder { k with transmit := .idle } := { h with }
  split
  · exact h
  · dsimp only
    split
    · exact hi
    · split
      · exact hi.queue_sublist List.filter_sublist rfl (.refl _)
      · split
        · exact hi.noteDiscard _
        · exact hi

theorem cut_quiet {k : LinkController} (h : Quiet k) (f : CallId → Bool) : Quiet (k.cut f) := by
  unfold LinkController.cut
  split
  · exact h
  · next m _ ht =>
    have hm : m.offerId = none := offerId_of_reply (h.sending m (by simp [ht, Transmit.message?]))
    simp only [hm]
    exact ⟨h.queue, by simp [Transmit.message?], h.lost⟩

theorem cut_transmit (k : LinkController) (f : CallId → Bool) : (k.cut f).transmit = .idle := by
  unfold LinkController.cut
  split
  · assumption
  · dsimp only
    split
    · rfl
    · split
      · rfl
      · split
        · simp
        · rfl

theorem invLinks_linkClear (h : InvLinks s) (l : Link) : InvLinks (s.linkClear l) := by
  obtain ⟨hl, _⟩ := (invLinks_iff s).1 h
  have ho := cut_inOrder ((ordered_iff _).1 (hl l)).1 (s.offeredOn l)
  unfold State.linkClear
  dsimp only
  have hk : ∀ b, InOrder { (s.link l).cut (s.offeredOn l) with cleared := true, resync := b } := fun b =>
    { ho with }
  have hq : ∀ b, Quiet (s.link l) → Quiet { (s.link l).cut (s.offeredOn l) with cleared := true, resync := b } :=
    fun b q => { cut_quiet q _ with }
  split
  · exact invLinks_afterTransmission h l _ (hk _) (hq _) _
  · rw [State.setLink_setLink]
    simpa using invLinks_pump h l _ (hk _) (hq _) s.tick

/-! ### Loads, inputs, writes and settings -/

theorem Wired.calls {u : State} (h : Wired s t) (k : Calls t u) : Wired s u := h.trans k.wired
theorem Wired.scans {u : State} (h : Wired s t) (k : Scans t u) : Wired s u := h.trans k.wired
theorem Wired.same {u : State} (h : Wired s t) (ht : u.tick = t.tick) (hl : u.link = t.link)
    (hc : u.centre = t.centre) : Wired s u := h.trans (.of_eq ht hl hc)

theorem Wired.give (h : Wired s t) (o : Order) : Wired s (t.give o) := h.same rfl rfl rfl

theorem Wired.setEntry (h : Wired s t) (n : LineId) (e : Entry) : Wired s (t.setEntry n e) := h.same rfl rfl rfl

theorem Wired.setClassifier (h : Wired s t) (n : LineId) (k : Classifier) : Wired s (t.setClassifier n k) :=
  h.same rfl rfl rfl

theorem Wired.loadLine (h : Wired s t) (n : LineId) (e : Entry) : Wired s (t.loadLine n e) := by
  unfold State.loadLine
  dsimp only
  have h1 := ((h.setEntry n (correctedEntry (t.group n.group).fitted n e)).calls
    ((Calls.refl _).setCondition n ((t.setEntry n
      (correctedEntry (t.group n.group).fitted n e)).conditionFromDirectory n))).setClassifier n
  split
  · exact (h1 _).scans (((Scans.refl _).startPass _).arbitrate _)
  · exact h1 _

theorem Wired.loadItem (h : Wired s t) (i : Item) (c : ItemContent) : Wired s (t.loadItem i c) := by
  unfold State.loadItem
  split
  case h_6 => exact h.loadLine _ _
  case h_7 => exact h
  all_goals exact h.same rfl rfl rfl

theorem Wired.endRead (h : Wired s t) (good : Option ItemContent) : Wired s (t.endRead good) := by
  unfold State.endRead
  split
  · exact h
  · dsimp only
    split
    · exact (h.loadItem _ _).same rfl rfl rfl
    · exact (h.loadItem _ _).same rfl rfl rfl

theorem Wired.setInput (h : Wired s t) (i : Input) (k : InputState) : Wired s (t.setInput i k) :=
  h.same (by simp) (by funext x; simp) (by funext x; simp)

theorem Wired.formPower (h : Wired s t) : Wired s t.formPower := by
  unfold State.formPower
  dsimp only
  split
  · exact h
  · have h1 := fun p n => (h.same (u := { t with power := p }) rfl rfl rfl).calls ((Calls.refl _).notifyAll n)
    split
    · exact (h1 _ _).scans ((Scans.refl _).each _ fun hu g => hu.endTest g _)
    · exact h1 _ _

theorem Wired.endDebounce (h : Wired s t) (i : Input) : Wired s (t.endDebounce i) := by
  unfold State.endDebounce
  dsimp only
  split
  · exact h
  · split
    · exact h.setInput _ _
    · exact (h.setInput _ _).formPower
    · exact (h.setInput _ _).formPower

theorem Wired.startWriting (h : Wired s t) : Wired s t.startWriting := by
  obtain ⟨_, _, e⟩ := t.startWriting_spec
  exact h.same (by rw [e]) (by rw [e]; rfl) (by rw [e]; rfl)

theorem Wired.queueWrite (h : Wired s t) (i : Item) : Wired s (t.queueWrite i) := by
  obtain ⟨_, _, e⟩ := t.queueWrite_spec i
  exact h.same (by rw [e]) (by rw [e]; rfl) (by rw [e]; rfl)

theorem Wired.endWrite (h : Wired s t) (ok : Bool) : Wired s (t.endWrite ok) := by
  unfold State.endWrite
  split
  · next e rest _ =>
    split
    · have h1 := (h.same (u := { t with writes := rest }) rfl rfl rfl).startWriting
      have h2 : ∀ c, Wired s (({ t with writes := rest }.startWriting).setStored e.item c) := fun c =>
        h1.same rfl rfl rfl
      dsimp only
      split
      · exact h2 _
      · exact (h2 _).calls ((Calls.refl _).notifyAll _)
    · exact h
  · exact h

theorem Wired.reply (h : Wired s t) (l : Link) (type : Byte) (code : ReplyCode) (fields : List Byte) :
    Wired s (t.reply l type code fields) := h.calls ((Calls.refl t).reply l type code fields)

theorem Wired.each {α : Type} (h : Wired s t) (xs : List α) {f : State → α → State}
    (hf : ∀ {u : State}, Wired s u → ∀ x, Wired s (f u x)) : Wired s (t.each xs f) :=
  State.each_keeps (Wired s) f (fun _ x hu => hf hu x) t xs h

theorem Wired.refitLines (h : Wired s t) (g : GroupId) (f : Fin 9) : Wired s (t.refitLines g f) := by
  unfold State.refitLines
  dsimp only
  exact (h.each _ fun {u} hu n => hu.calls ((Calls.refl u).setCondition n _)).each _ fun {u} hu n =>
    (hu.setEntry n _).calls ((Calls.refl _).setCondition n _)

theorem Wired.takeSettings (h : Wired s t) (l : Link) (g : GroupId) (x : GroupSettings) :
    Wired s (t.takeSettings l g x) := by
  unfold State.takeSettings
  dsimp only
  refine (Wired.queueWrite ?_ _).reply l _ _ _
  have h1 := fun r => h.scans ((Scans.refl t).setGroup g r)
  split
  · exact h1 _
  · exact ((h1 _).refitLines g _).scans ((Scans.refl _).refit g _)

/-- What a taken command does short of its own link's marks and of the warm restart. -/
theorem Taken.wired {l : Link} (h : Taken s l t) :
    Wired s t ∨ (∃ start, t = s.takeListCalls l start) ∨
      (∃ f, t = (s.setLink l { s.link l with watch := f }).reply l Command.setWatch .ok []) ∨
      t = s.takeRestart l := by
  cases h with
  | scans h => exact .inl h.wired
  | listCalls start => exact .inr (.inl ⟨start, rfl⟩)
  | setWatch f => exact .inr (.inr (.inl ⟨f, rfl⟩))
  | takeOut n =>
    refine .inl (Wired.calls ?_ ((Calls.refl _).notifyCondition n))
    exact Wired.queueWrite (Wired.setEntry ((Wired.refl s).calls
      (((Calls.refl s).reply l Command.setService .ok []).enter n .outOfService)) n _) _
  | takeIn n =>
    refine .inl (Wired.calls ?_ (((Calls.refl _).enter n .idle).notifyCondition n))
    exact (Wired.queueWrite (Wired.setEntry ((Wired.refl s).calls
      ((Calls.refl s).reply l Command.setService .ok [])) n _) _).setClassifier n _
  | takeEntry n raw e =>
    refine .inl ((Wired.queueWrite ?_ _).reply l _ _ _)
    have h1 := fun e => (Wired.refl s).setEntry n e
    split
    · exact h1 _
    · exact (h1 _).setClassifier n _
  | takeProfile p q =>
    refine .inl ((Wired.queueWrite (Wired.each ?_ _ fun hu n => hu.setClassifier n _) _).reply l _ _ _)
    exact (Wired.refl s).same rfl rfl rfl
  | takeSettings g x => exact .inl ((Wired.refl s).takeSettings l g x)
  | writeAcceptance i e =>
    unfold State.writeAcceptance
    split
    · refine .inl ((Wired.queueWrite ?_ _).reply l _ _ _)
      exact (Wired.refl s).same rfl rfl rfl
    · exact .inl ((Wired.refl s).reply l _ _ _)
  | writeTimers x =>
    unfold State.writeTimers
    split
    · refine .inl ((Wired.queueWrite ?_ _).reply l _ _ _)
      exact (Wired.refl s).same rfl rfl rfl
    · exact .inl ((Wired.refl s).reply l _ _ _)
  | writeBearer a b =>
    unfold State.writeBearer
    split
    · refine .inl ((Wired.queueWrite ?_ _).reply l _ _ _)
      exact (Wired.refl s).same rfl rfl rfl
    · exact .inl ((Wired.refl s).reply l _ _ _)
  | takeRestart => exact .inr (.inr (.inr rfl))

/-! ### Every step -/

/-- Marks of a controller that the invariant does not read. -/
theorem invLinks_marks (h : InvLinks s) (l : Link) {k : LinkController} (hq : k.queue = (s.link l).queue)
    (ht : k.transmit = (s.link l).transmit) (hs : k.submissions = (s.link l).submissions)
    (ho : k.lostOffers = (s.link l).lostOffers) : InvLinks (s.setLink l k) := by
  have hl := ((invLinks_iff s).1 h).1 l
  refine invLinks_setLink h l k ?_ fun q => ⟨hq ▸ q.queue, ht ▸ q.sending, ho ▸ q.lost⟩
  unfold LinkController.Ordered at *
  rwa [hq, ht, hs, ho]

theorem Taken.invLinks {l : Link} (ht : Taken s l t) (h : InvLinks s) : InvLinks t := by
  rcases ht.wired with hw | ⟨start, rfl⟩ | ⟨f, rfl⟩ | rfl
  · exact hw.invLinks h
  · unfold State.takeListCalls
    refine ((Calls.refl _).reply l _ _ _).invLinks ?_
    split
    · exact invLinks_marks h l rfl rfl rfl rfl
    · exact h
  · exact ((Calls.refl _).reply l _ _ _).invLinks (invLinks_marks h l rfl rfl rfl rfl)
  · unfold State.takeRestart
    dsimp only
    split
    · exact invLinks_congr rfl rfl (((Calls.refl s).reply l Command.restart .ok []).invLinks h)
    · exact invLinks_warmRestart _

theorem Effect.invLinks (he : Effect s t) (h : InvLinks s) : InvLinks t := by
  cases he with
  | scans hs => exact hs.wired.invLinks h
  | coldStart m b k => exact invLinks_coldStart s m b k
  | endRead ld _ rep => exact ((Wired.refl s).endRead _).invLinks h
  | takeLevel i x => exact ((Wired.refl s).setInput i _).invLinks h
  | endDebounce i => exact ((Wired.refl s).endDebounce i).invLinks h
  | endWrite ok => exact ((Wired.refl s).endWrite ok).invLinks h
  | receive l r => exact invLinks_setReceive h l r
  | badFrame l =>
    exact invLinks_onCentre (invLinks_setReceive h l _) l (invLinks_badFrame (invLinks_setReceive h l _))
  | enterLost c => exact invLinks_enterLost h c
  | breakRecognised l =>
    refine invLinks_onCentre (invLinks_setReceive h l _) l fun c => ?_
    unfold State.zeroRecovery
    split
    · exact invLinks_zeroRecovery (invLinks_setReceive h l _) c
    · exact invLinks_setReceive h l _
  | breakLong c => exact invLinks_enterLost (invLinks_setReceive h _ _) c
  | linkClear l => exact invLinks_linkClear (invLinks_setReceive h l _) l
  | sent l m frame hm =>
    have hk := ((ordered_iff _).1 (((invLinks_iff s).1 h).1 l)).1
    exact invLinks_afterTransmission h l { s.link l with transmit := .idle } { hk with }
      (fun q => ⟨q.queue, by simp [Transmit.message?], q.lost⟩) m
  | refused l hs => exact hs.wired.invLinks (invLinks_arrive h l)
  | keepalive l =>
    exact ((Calls.refl _).reply l _ _ _).invLinks (invLinks_marks (invLinks_arrive h l) l rfl rfl rfl rfl)
  | command l _ _ _ ht => exact ht.invLinks (invLinks_arrive h l)

end

theorem idle_link (s : State) : s.idle.link = s.link := by
  unfold State.idle
  split <;> rfl

theorem idle_centre (s : State) : s.idle.centre = s.centre := by
  unfold State.idle
  split <;> rfl

/-- Settles O56: a step lets a millisecond pass or has one of the effects of `Effect`, and each keeps the links. -/
theorem stepKeepsLinks : Obligations.StepKeepsLinks := by
  intro s t h hs
  rcases step_effect hs with rfl | ⟨rest, he⟩
  · exact invLinks_congr (idle_link s) (idle_centre s) h
  · exact he.invLinks (invLinks_congr rfl rfl h)

end Sys2Proof.Proofs

/-! PROOFS. Every step keeps the store and the supply monitor (R18, R68, R74 to R76, R129, R168, R169). A link event,
a call, a scan or a test leaves `firm` alone, and the two invariants read nothing else. -/

namespace Sys2Proof.Proofs

open Sys2Proof Sys2Proof.Machine

section

variable {s t : State}

/-! ### What link events leave alone -/

theorem firm_onCentre (s : State) (l : Link) {f : State → Centre → State} (h : ∀ c, firm (f s c) = firm s) :
    firm (s.onCentre l f) = firm s := by
  unfold State.onCentre
  split
  · exact h _
  · rfl

theorem firm_healthChanged (s : State) (c : Centre) (k : Health) : firm (s.healthChanged c k) = firm s :=
  ((Calls.refl s).healthChanged c k).firm

theorem firm_takeScore (s : State) (c : Centre) (n : Nat) : firm (s.takeScore c n) = firm s :=
  (firm_healthChanged _ _ _).trans (firm_setCentre ..)

theorem firm_startSilence (s : State) (c : Centre) : firm (s.startSilence c) = firm s := firm_setCentre ..

theorem firm_recover (s : State) (c : Centre) : firm (s.recover c) = firm s := by
  unfold State.recover
  rw [firm_healthChanged, firm_setLink, firm_startSilence, firm_setCentre]

theorem firm_validFrame (s : State) (c : Centre) : firm (s.validFrame c) = firm s := by
  unfold State.validFrame
  dsimp only
  split
  · split
    · exact firm_recover s c
    · exact firm_setCentre ..
  · exact (firm_takeScore ..).trans (firm_startSilence s c)

theorem firm_window (s : State) (w : Option Link) : firm { s with window := w } = firm s := rfl

theorem firm_enterLost (s : State) (c : Centre) : firm (s.enterLost c) = firm s := by
  unfold State.enterLost
  dsimp only
  split
  · rfl
  · split
    · rw [firm_warmRestart, firm_setLink, firm_setCentre]
    · rw [((Calls.refl _).lossOfLink c).firm, firm_setLink, firm_setCentre]

theorem firm_badFrame (s : State) (c : Centre) : firm (s.badFrame c) = firm s := by
  unfold State.badFrame
  dsimp only
  split
  · exact firm_setCentre ..
  · split
    · exact firm_enterLost s c
    · exact firm_takeScore ..

theorem firm_zeroRecovery (s : State) (c : Centre) : firm (s.zeroRecovery c) = firm s := by
  unfold State.zeroRecovery
  split
  · exact firm_setCentre ..
  · rfl

theorem firm_deliverReport (s : State) (l : Link) : firm (s.deliverReport l) = firm s := by
  have h : firm (s.setReportPending l false) = firm s := by cases l <;> rfl
  unfold State.deliverReport
  split
  · dsimp only
    split
    · exact (((Calls.refl _).notify l _).firm).trans h
    · exact h
  · rfl

theorem firm_arrive (s : State) (l : Link) : firm (s.arrive l) = firm s := by
  unfold State.arrive
  rw [firm_deliverReport, firm_onCentre _ _ (firm_validFrame _), firm_setReceive]

theorem firm_afterTransmission (s : State) (l : Link) (m : Message) : firm (s.afterTransmission l m) = firm s := by
  unfold State.afterTransmission
  split
  · exact firm_warmRestart s
  · exact firm_setLink ..

theorem firm_linkClear (s : State) (l : Link) : firm (s.linkClear l) = firm s := by
  unfold State.linkClear
  dsimp only
  split
  · rw [firm_afterTransmission, firm_setLink]
  · rw [firm_setLink, firm_setLink]

/-! ### The effects that reach further -/

/-- What changes something that `firm` holds. -/
inductive Reach (s : State) : State → Prop
  | firm {t : State} (h : firm t = firm s) : Reach s t
  | coldStart (m b k : Bool) : Reach s (s.coldStart m b k)
  | endRead (ld : Load) (h : s.load = some ld) (rep : Option ReadReport) :
      Reach s (s.endRead (rep.bind (judgeRead (Item.ofNumber ld.read))))
  | takeLevel (i : Input) (level : Bool) : Reach s (s.takeLevel i level)
  | endDebounce (i : Input) : Reach s (s.endDebounce i)
  | endWrite (success : Bool) : Reach s (s.endWrite success)
  | command (l : Link) {t : State} (hl : (s.arrive l).load = none) (h : Taken (s.arrive l) l t) : Reach s t

theorem Effect.reach (h : Effect s t) : Reach s t := by
  cases h with
  | scans h => exact .firm h.firm
  | coldStart m b k => exact .coldStart m b k
  | endRead ld h rep => exact .endRead ld h rep
  | takeLevel i x => exact .takeLevel i x
  | endDebounce i => exact .endDebounce i
  | endWrite ok => exact .endWrite ok
  | receive l r => exact .firm (firm_setReceive s l r)
  | badFrame l => exact .firm ((firm_onCentre _ _ (firm_badFrame _)).trans (firm_setReceive ..))
  | enterLost c => exact .firm (firm_enterLost s c)
  | breakRecognised l => exact .firm ((firm_onCentre _ _ (firm_zeroRecovery _)).trans (firm_setReceive ..))
  | breakLong c => exact .firm ((firm_enterLost ..).trans (firm_setReceive ..))
  | linkClear l => exact .firm ((firm_linkClear ..).trans (firm_setReceive ..))
  | sent l m f _ => exact .firm ((firm_afterTransmission ..).trans (firm_setLink ..))
  | refused l h => exact .firm (h.firm.trans (firm_arrive s l))
  | keepalive l =>
    exact .firm ((((Calls.refl _).reply l _ _ _).firm.trans (firm_setLink ..)).trans (firm_arrive s l))
  | command l _ hl _ h => exact .command l hl h

/-! ### The two invariants read `firm` alone -/

theorem invStore_firm (h : firm t = firm s) (hs : InvStore s) : InvStore t := by
  have : InvStore (firm t) := h ▸ hs
  exact this

theorem invSupply_firm (h : firm t = firm s) (hs : InvSupply s) : InvSupply t := by
  have : InvSupply (firm t) := h ▸ hs
  exact this

/-- The write queue's part of the invariant of the store (R75, R76). -/
def WritesSound (ws : List WriteEntry) : Prop :=
  ws.length ≤ Config.writeCapacity ∧ (∀ e ∈ ws.head?, e.writing.isSome = true) ∧
  (∀ e ∈ ws.tail, e.writing = none) ∧ (ws.tail.map (·.item)).Nodup

/-- The working copies' part of it (R18, R68, R74, R129). -/
structure CopiesSound (s : State) : Prop where
  profile : ∀ p, profileRelated (s.profile p) = true ∧ clampProfile (s.profile p) = s.profile p
  timers : clampTimers s.timers = s.timers
  bearer : 1 ≤ s.bearer.limitA ∧ s.bearer.limitA ≤ 6 ∧ 1 ≤ s.bearer.limitB ∧ s.bearer.limitB ≤ 6
  label : ∀ n, (s.entry n).label.length ≤ 16 ∧ ∀ ch ∈ (s.entry n).label, 32 ≤ ch.toNat ∧ ch.toNat ≤ 126

theorem invStore_iff (s : State) : InvStore s ↔ WritesSound s.writes ∧ CopiesSound s :=
  ⟨fun ⟨a, b, c, d, e, f, g, h⟩ => ⟨⟨a, b, c, d⟩, e, f, g, h⟩,
   fun ⟨⟨a, b, c, d⟩, e, f, g, h⟩ => ⟨a, b, c, d, e, f, g, h⟩⟩

/-! ### The write queue -/

theorem startWriting_writes (s : State) :
    s.startWriting.writes = s.writes.modifyHead ({ · with writing := some (s.timer Config.writeTime) }) := by
  unfold State.startWriting
  split
  · next e rest h => rw [h]; rfl
  · next h => rw [h]; rfl

/-- The entries of a queue but its head, with a new head that is WRITING. -/
theorem writesSound_modifyHead {ws : List WriteEntry} {t : Timer} (hl : ws.length ≤ Config.writeCapacity)
    (hw : ∀ e ∈ ws, e.writing = none) (hn : (ws.map (·.item)).Nodup) :
    WritesSound (ws.modifyHead ({ · with writing := some t })) := by
  cases ws with
  | nil => simp [WritesSound]
  | cons e rest =>
    refine ⟨hl, by simp, fun x hx => hw x (List.mem_cons_of_mem _ hx), ?_⟩
    simp only [List.map_cons, List.nodup_cons] at hn
    exact hn.2

theorem waitsFor_iff (e : WriteEntry) (i : Item) : e.waitsFor i = true ↔ e.writing = none ∧ e.item = i := by
  simp [WriteEntry.waitsFor]

theorem writesSound_queueWrite (h : WritesSound s.writes) (i : Item) (hc : s.canWrite i = true) :
    WritesSound (s.queueWrite i).writes := by
  have hlen := s.queueWrite_length i hc h.1
  obtain ⟨_, hw, ht, hn⟩ := h
  unfold State.queueWrite at hlen ⊢
  dsimp only at hlen ⊢
  split at hlen
  · next ha =>
    rw [if_pos ha]
    have hwr : ∀ e : WriteEntry,
        (if e.waitsFor i then { e with content := s.content i } else e).writing = e.writing := by
      intro e; split <;> rfl
    have hit : ∀ e : WriteEntry,
        (if e.waitsFor i then { e with content := s.content i } else e).item = e.item := by
      intro e; split <;> rfl
    refine ⟨hlen, ?_, ?_, ?_⟩
    · intro e he
      obtain ⟨x, hx, rfl⟩ := Option.map_eq_some_iff.1 (List.head?_map ▸ he : _ = some e)
      exact (hwr x).symm ▸ hw x hx
    · intro e he
      obtain ⟨x, hx, rfl⟩ := List.mem_map.1 (List.map_tail ▸ he)
      exact (hwr x).symm ▸ ht x hx
    · rw [← List.map_tail, List.map_map]
      simpa [Function.comp_def, hit] using hn
  · next ha =>
    rw [if_neg ha]
    cases hws : s.writes with
    | nil => simp [State.startWriting, State.give, WritesSound, Config.writeCapacity]
    | cons e rest =>
      rw [hws] at hw ht hn ha hlen
      refine ⟨hlen, by simpa using hw, ?_, ?_⟩
      · intro x hx
        rcases List.mem_append.1 hx with hx | hx
        · exact ht x hx
        · simp_all
      · have hi : i ∉ rest.map (·.item) := by
          intro hm
          obtain ⟨x, hx, hxi⟩ := List.mem_map.1 hm
          exact ha (List.any_eq_true.2 ⟨x, List.mem_cons_of_mem _ hx, (waitsFor_iff x i).2 ⟨ht x hx, hxi⟩⟩)
        simpa [List.nodup_append] using And.intro hn hi

theorem startWriting_fields (s : State) : CopiesSound s.startWriting ↔ CopiesSound s := by
  obtain ⟨ws, o, h⟩ := s.startWriting_spec
  rw [h]
  exact ⟨fun ⟨a, b, c, d⟩ => ⟨a, b, c, d⟩, fun ⟨a, b, c, d⟩ => ⟨a, b, c, d⟩⟩

theorem invStore_queueWrite (h : InvStore s) (i : Item) (hc : s.canWrite i = true) : InvStore (s.queueWrite i) := by
  obtain ⟨hw, hp⟩ := (invStore_iff s).1 h
  refine (invStore_iff _).2 ⟨writesSound_queueWrite hw i hc, ?_⟩
  obtain ⟨ws, o, e⟩ := s.queueWrite_spec i
  rw [e]
  exact ⟨hp.profile, hp.timers, hp.bearer, hp.label⟩

theorem canWrite_congr {i : Item} (hw : t.writes = s.writes) (h : s.canWrite i = true) : t.canWrite i = true := by
  unfold State.canWrite at *
  rwa [hw]

theorem invStore_endWrite (h : InvStore s) (ok : Bool) : InvStore (s.endWrite ok) := by
  obtain ⟨⟨hl, hw, ht, hn⟩, hp⟩ := (invStore_iff s).1 h
  unfold State.endWrite
  split
  · next e rest hws =>
    rw [hws] at hl hw ht hn
    split
    · have h1 : ∀ c, InvStore (({ s with writes := rest }.startWriting).setStored e.item c) := fun c => by
        refine (invStore_iff _).2 ⟨?_, ?_⟩
        · show WritesSound (State.startWriting _).writes
          rw [startWriting_writes]
          exact writesSound_modifyHead (by simp at hl ⊢; omega) ht hn
        · have := (startWriting_fields { s with writes := rest }).2 ⟨hp.profile, hp.timers, hp.bearer, hp.label⟩
          exact ⟨this.profile, this.timers, this.bearer, this.label⟩
      dsimp only
      split
      · exact h1 _
      · exact invStore_firm ((Calls.refl _).notifyAll _).firm (h1 _)
    · exact h
  · exact h

/-! ### What a taken command writes -/

theorem clamp_clamp (lo hi v : Nat) : clamp lo hi (clamp lo hi v) = clamp lo hi v := by
  unfold clamp; omega

theorem clampProfile_clampProfile (p : Profile) : clampProfile (clampProfile p) = clampProfile p := by
  simp [clampProfile, clamp_clamp]

theorem clampTimers_clampTimers (t : CallTimers) : clampTimers (clampTimers t) = clampTimers t := by
  simp [clampTimers, clamp_clamp]

/-- The label of an entry that is checked: at most 16 characters, each printable (R68, R70). -/
theorem checkEntry_label {raw : RawEntry} {e : Entry} (h : checkEntry raw = some e) :
    e.label.length ≤ 16 ∧ ∀ ch ∈ e.label, 32 ≤ ch.toNat ∧ ch.toNat ≤ 126 := by
  simp only [checkEntry, Option.bind_eq_bind, Option.bind_eq_some_iff] at h
  obtain ⟨_, -, _, -, _, -, _, -, _, -, _, -, _, -, h⟩ := h
  split at h
  · next hr =>
    obtain ⟨-, -, -, hl, hc⟩ := hr
    obtain rfl := Option.some.inj h
    refine ⟨by simpa using hl, fun ch hch => ?_⟩
    obtain ⟨c, hm, rfl⟩ := List.mem_map.1 hch
    have := hc c hm
    simp only [byte, BitVec.toNat_ofNat]
    omega
  · cases h

theorem copies_setEntry (h : CopiesSound s) (n : LineId) (e : Entry)
    (he : e.label.length ≤ 16 ∧ ∀ ch ∈ e.label, 32 ≤ ch.toNat ∧ ch.toNat ≤ 126) : CopiesSound (s.setEntry n e) := by
  refine ⟨by simpa using h.profile, by simpa using h.timers, by simpa using h.bearer, fun m => ?_⟩
  rw [State.setEntry_entry]
  split
  · exact he
  · exact h.label m

theorem invStore_setEntry (h : InvStore s) (n : LineId) (e : Entry)
    (he : e.label.length ≤ 16 ∧ ∀ ch ∈ e.label, 32 ≤ ch.toNat ∧ ch.toNat ≤ 126) : InvStore (s.setEntry n e) :=
  let ⟨hw, hp⟩ := (invStore_iff s).1 h
  (invStore_iff _).2 ⟨by simpa using hw, copies_setEntry hp n e he⟩

theorem invStore_setService (h : InvStore s) (n : LineId) (b : Bool) :
    InvStore (s.setEntry n { s.entry n with inService := b }) :=
  invStore_setEntry h n _ (((invStore_iff s).1 h).2.label n)

theorem invStore_setProfile (h : InvStore s) (p : ProfileId) (q : Profile) (hr : profileRelated q = true)
    (hc : clampProfile q = q) : InvStore (s.setProfile p q) := by
  obtain ⟨hw, hp⟩ := (invStore_iff s).1 h
  refine (invStore_iff _).2 ⟨by simpa using hw, fun x => ?_, by simpa using hp.timers, by simpa using hp.bearer,
    by simpa using hp.label⟩
  rw [State.setProfile_profile]
  split
  · exact ⟨hr, hc⟩
  · exact hp.profile x

theorem invStore_setTimers (h : InvStore s) (t : CallTimers) (ht : clampTimers t = t) :
    InvStore { s with timers := t } :=
  let ⟨hw, hp⟩ := (invStore_iff s).1 h
  (invStore_iff _).2 ⟨hw, hp.profile, ht, hp.bearer, hp.label⟩

theorem invStore_setBearer (h : InvStore s) (b : Bearer)
    (hb : 1 ≤ b.limitA ∧ b.limitA ≤ 6 ∧ 1 ≤ b.limitB ∧ b.limitB ≤ 6) : InvStore { s with bearer := b } :=
  let ⟨hw, hp⟩ := (invStore_iff s).1 h
  (invStore_iff _).2 ⟨hw, hp.profile, hp.timers, hb, hp.label⟩

theorem clamp_bounds {lo hi : Nat} (h : lo ≤ hi) (v : Nat) : lo ≤ clamp lo hi v ∧ clamp lo hi v ≤ hi := by
  unfold clamp; omega

theorem clampBearer_bounds (a b : Byte) : 1 ≤ (clampBearer a b).limitA ∧ (clampBearer a b).limitA ≤ 6 ∧
    1 ≤ (clampBearer a b).limitB ∧ (clampBearer a b).limitB ≤ 6 := by
  have h := fun v => clamp_bounds (show 1 ≤ 6 by omega) v
  exact ⟨(h _).1, (h _).2, (h _).1, (h _).2⟩

theorem Scans.invStore (h : Scans s t) (hs : InvStore s) : InvStore t := invStore_firm h.firm hs
theorem Calls.invStore (h : Calls s t) (hs : InvStore s) : InvStore t := h.scans.invStore hs

theorem invStore_refitLines (h : InvStore s) (g : GroupId) (f : Fin 9) : InvStore (s.refitLines g f) := by
  unfold State.refitLines
  dsimp only
  refine State.each_keeps InvStore _ (fun u n hu => ?_) _ _
    (State.each_keeps InvStore _ (fun u n hu => ?_) _ _ h)
  · exact ((Calls.refl _).setCondition n _).invStore (invStore_setService hu n false)
  · exact ((Calls.refl u).setCondition n _).invStore hu

theorem refitLines_writes (s : State) (g : GroupId) (f : Fin 9) : (s.refitLines g f).writes = s.writes := by
  unfold State.refitLines
  dsimp only
  refine State.each_keeps (fun u => u.writes = s.writes) _ (fun u n hu => ?_) _ _
    (State.each_keeps (fun u => u.writes = s.writes) _ (fun u n hu => ?_) _ _ rfl)
  · exact hu
  · exact hu

theorem writes_of_firm (h : firm t = firm s) : t.writes = s.writes :=
  (congrArg State.writes h :)

theorem retrack_scans (s : State) (n : LineId) : Scans s (s.retrack n) := (Scans.refl s).setClassifier n _

theorem Taken.invStore {l : Link} (ht : Taken s l t) (h : InvStore s) : InvStore t := by
  have hreply := fun {u : State} (type : Byte) (code : ReplyCode) (fs : List Byte) (hu : InvStore u) =>
    ((Calls.refl u).reply l type code fs).invStore hu
  cases ht with
  | scans hs => exact hs.invStore h
  | listCalls start =>
    unfold State.takeListCalls
    refine hreply _ _ _ ?_
    split
    · exact invStore_firm (firm_setLink ..) h
    · exact h
  | setWatch f => exact hreply _ _ _ (invStore_firm (firm_setLink ..) h)
  | takeOut n hc =>
    have h1 := ((Calls.refl s).reply l Command.setService .ok []).enter n .outOfService
    refine ((Calls.refl _).notifyCondition n).invStore (invStore_queueWrite (invStore_setService (h1.invStore h) n false) _ ?_)
    exact canWrite_congr (by simpa using writes_of_firm h1.firm) hc
  | takeIn n hc =>
    have h1 := (Calls.refl s).reply l Command.setService .ok []
    have h2 := invStore_queueWrite (invStore_setService (h1.invStore h) n true) (.line n)
      (canWrite_congr (by simpa using writes_of_firm h1.firm) hc)
    exact ((((Scans.refl _).setClassifier n _).calls ((Calls.refl _).enter n .idle)).calls
      ((Calls.refl _).notifyCondition n)).invStore h2
  | takeEntry n raw e he hc =>
    refine hreply _ _ _ (invStore_queueWrite ?_ _ (canWrite_congr ?_ hc))
    · have hl := checkEntry_label he
      have h1 := invStore_setEntry h n { e with inService := (s.entry n).inService, defaulted := false } hl
      split
      · exact h1
      · exact (retrack_scans _ n).invStore h1
    · split <;> rfl
  | takeProfile p q hq hc =>
    have h1 := invStore_setProfile h p (clampProfile q) hq (clampProfile_clampProfile q)
    have h2 := (Scans.refl (s.setProfile p (clampProfile q))).each
      ((List.finRange 64).filter fun n => ((s.setProfile p (clampProfile q)).entry n).profile = p)
      (f := State.retrack) fun hu n => hu.trans (retrack_scans _ n)
    refine hreply _ _ _ (invStore_queueWrite (h2.invStore h1) _ (canWrite_congr ?_ hc))
    exact (writes_of_firm h2.firm).trans rfl
  | takeSettings g x hc =>
    have h1 := (Scans.refl s).setGroup g { s.group g with settle := x.settle, pathCheck := x.pathCheck }
    refine hreply _ _ _ ?_
    dsimp only
    split
    · exact invStore_queueWrite (h1.invStore h) _ (canWrite_congr (writes_of_firm h1.firm) hc)
    · have h2 := fun u : State => (Scans.refl (u.refitLines g x.fitted)).refit g x.fitted
      refine invStore_queueWrite ((h2 _).invStore (invStore_refitLines (h1.invStore h) g _)) _ (canWrite_congr ?_ hc)
      rw [writes_of_firm (h2 _).firm, refitLines_writes]
      rfl
  | writeAcceptance i e =>
    unfold State.writeAcceptance
    split
    · next hc =>
      exact hreply _ _ _ (invStore_queueWrite (s := { s with acceptance := s.acceptance.set i e }) h _ hc)
    · exact hreply _ _ _ h
  | writeTimers x =>
    unfold State.writeTimers
    split
    · next hc => exact hreply _ _ _ (invStore_queueWrite (invStore_setTimers h _ (clampTimers_clampTimers x)) _ hc)
    · exact hreply _ _ _ h
  | writeBearer a b =>
    unfold State.writeBearer
    split
    · next hc => exact hreply _ _ _ (invStore_queueWrite (invStore_setBearer h _ (clampBearer_bounds a b)) _ hc)
    · exact hreply _ _ _ h
  | takeRestart =>
    have h1 := ((Calls.refl s).reply l Command.restart .ok []).firm
    unfold State.takeRestart
    dsimp only
    split
    · exact invStore_firm h1 h
    · exact invStore_firm ((firm_warmRestart _).trans h1) h

/-! ### The reads of a load -/

/-- What a good read or a default of an item may hold. -/
def ContentSound : ItemContent → Prop
  | .timers t => clampTimers t = t
  | .bearer b => 1 ≤ b.limitA ∧ b.limitA ≤ 6 ∧ 1 ≤ b.limitB ∧ b.limitB ≤ 6
  | .profile p => profileRelated p = true ∧ clampProfile p = p
  | .line e => e.label.length ≤ 16 ∧ ∀ ch ∈ e.label, 32 ≤ ch.toNat ∧ ch.toNat ≤ 126
  | .acceptance _ | .group _ _ _ => True

theorem contentSound_default (i : Item) : ContentSound (defaultContent i) := by
  cases i <;> simp [defaultContent, ContentSound, defaultTimers, defaultBearer, clampTimers, clamp, defaultProfile,
    clampProfile, profileRelated, defaultEntry]

theorem contentSound_checkItem {i : Item} {raw : RawItem} {c : ItemContent} (h : checkItem i raw = some c) :
    ContentSound c := by
  unfold checkItem at h
  split at h
  · simp only [Option.bind_eq_bind, Option.bind_eq_some_iff] at h
    obtain ⟨_, -, _, -, _, -, _, -, h⟩ := h
    obtain rfl := Option.some.inj h
    trivial
  · split at h
    · obtain rfl := Option.some.inj h
      assumption
    · cases h
  · split at h
    · obtain rfl := Option.some.inj h
      assumption
    · cases h
  · split at h
    · next hp =>
      obtain rfl := Option.some.inj h
      simpa [ContentSound] using hp
    · cases h
  · simp only [Option.bind_eq_bind, Option.bind_eq_some_iff] at h
    obtain ⟨_, -, _, -, h⟩ := h
    split at h
    · obtain rfl := Option.some.inj h
      trivial
    · cases h
  · obtain ⟨e, he, rfl⟩ := Option.map_eq_some_iff.1 h
    exact checkEntry_label he
  · cases h

theorem contentSound_read (i : Item) (rep : Option ReadReport) :
    ContentSound ((rep.bind (judgeRead i)).getD (defaultContent i)) := by
  cases h : rep.bind (judgeRead i) with
  | none => exact contentSound_default i
  | some c =>
    obtain ⟨r, -, hr⟩ := Option.bind_eq_some_iff.1 h
    unfold judgeRead at hr
    split at hr
    · exact contentSound_checkItem hr
    · cases hr

theorem invStore_loadLine (h : InvStore s) (n : LineId) (e : Entry) (he : ContentSound (.line e)) :
    InvStore (s.loadLine n e) := by
  unfold State.loadLine
  dsimp only
  have h1 : InvStore (s.setEntry n (correctedEntry (s.group n.group).fitted n e)) := by
    refine invStore_setEntry h n _ ?_
    unfold correctedEntry
    split <;> exact he
  have h2 := fun k => (((Scans.refl _).calls ((Calls.refl _).setCondition n k)).setClassifier n
    (.reset ((((s.setEntry n (correctedEntry (s.group n.group).fitted n e)).setCondition n k).profileOf n).term))).invStore h1
  split
  · exact (((Scans.refl _).startPass _).arbitrate _).invStore (h2 _)
  · exact h2 _

theorem invStore_loadItem (h : InvStore s) (i : Item) (c : ItemContent) (hc : ContentSound c) :
    InvStore (s.loadItem i c) := by
  unfold State.loadItem
  split
  · exact h
  · exact invStore_setTimers h _ hc
  · exact invStore_setBearer h _ hc
  · exact invStore_setProfile h _ _ hc.1 hc.2
  · exact ((Scans.refl s).setGroup _ _).invStore h
  · exact invStore_loadLine h _ _ hc
  · exact h

theorem invStore_endRead (h : InvStore s) {ld : Load} (hl : s.load = some ld) (rep : Option ReadReport) :
    InvStore (s.endRead (rep.bind (judgeRead (Item.ofNumber ld.read)))) := by
  have h1 := invStore_loadItem h (Item.ofNumber ld.read) _ (contentSound_read (Item.ofNumber ld.read) rep)
  unfold State.endRead
  rw [hl]
  dsimp only
  split
  · exact h1
  · exact h1

theorem invStore_coldStart (s : State) (m b k : Bool) : InvStore (s.coldStart m b k) := by
  refine (invStore_iff _).2 ⟨by simp [State.coldStart, State.initial, WritesSound],
    fun p => ?_, ?_, ?_, fun n => ?_⟩
  · have : (s.coldStart m b k).profile p = defaultProfile := by
      simp [State.coldStart, State.initial, State.profile]
    rw [this]
    exact contentSound_default (.profile p)
  · exact contentSound_default .timers
  · exact contentSound_default .bearer
  · have : ((s.coldStart m b k).entry n).label = [] := by
      simp [State.coldStart, State.initial, State.entry, defaultEntry]
    simp [this]

/-! ### The supply monitor -/

theorem invSupply_setInput (h : InvSupply s) (i : Input) (k : InputState) (hk : k.Sound)
    (ht : k.taken = (s.input i).taken) : InvSupply (s.setInput i k) := by
  obtain ⟨h1, h2, h3, h4⟩ := h
  cases i with
  | mainsOk => exact ⟨hk, h2, h3, h4.trans (congrArg (powerOf · s.batteryLow.taken) ht.symm)⟩
  | batteryLow => exact ⟨h1, hk, h3, h4.trans (congrArg (powerOf s.mainsOk.taken ·) ht.symm)⟩
  | key => exact ⟨h1, h2, hk, h4⟩

theorem input_sound (h : InvSupply s) (i : Input) : (s.input i).Sound := by
  obtain ⟨h1, h2, h3, -⟩ := h
  cases i <;> assumption

theorem invSupply_takeLevel (h : InvSupply s) (i : Input) (x : Bool) : InvSupply (s.takeLevel i x) := by
  have hi := input_sound h i
  unfold State.takeLevel
  refine invSupply_setInput h i _ ?_ rfl
  unfold InputState.Sound at hi ⊢
  dsimp only
  split
  · next e => simp [e]
  · next e => split <;> simp [e]

/-- The power state formed afresh agrees with the taken values, which stay (R169). -/
theorem invSupply_formPower (h1 : s.mainsOk.Sound) (h2 : s.batteryLow.Sound) (h3 : s.key.Sound) :
    InvSupply s.formPower := by
  have hnew : InvSupply { s with power := powerOf s.mainsOk.taken s.batteryLow.taken } := ⟨h1, h2, h3, rfl⟩
  unfold State.formPower
  dsimp only
  split
  · next e => exact ⟨h1, h2, h3, e.symm⟩
  · split
    · exact invSupply_firm (((Calls.refl _).notifyAll _).scans.each _ fun hu g => hu.endTest g _).firm hnew
    · exact invSupply_firm ((Calls.refl _).notifyAll _).firm hnew

theorem invSupply_endDebounce (h : InvSupply s) (i : Input) : InvSupply (s.endDebounce i) := by
  have hk : ∀ k : InputState, InputState.Sound { k with taken := k.level, debounce := none } := fun k => by
    simp [InputState.Sound]
  obtain ⟨h1, h2, h3, h4⟩ := h
  unfold State.endDebounce
  dsimp only
  split
  · exact ⟨h1, h2, h3, h4⟩
  · cases i with
    | key => exact ⟨h1, h2, hk _, h4⟩
    | mainsOk => exact invSupply_formPower (hk _) h2 h3
    | batteryLow => exact invSupply_formPower h1 (hk _) h3

theorem invSupply_coldStart (s : State) (m b k : Bool) : InvSupply (s.coldStart m b k) := by
  refine ⟨?_, ?_, ?_, rfl⟩ <;> simp [State.coldStart, State.initial, InputState.initial, InputState.Sound]

end

/-- The state without what a link command can change. -/
def fixed (s : State) : State :=
  { still s with
    window := none, tick := 0, subTick := 0, entries := .replicate 64 defaultEntry
    profiles := .replicate 4 defaultProfile, acceptance := .replicate 4 defaultAcceptance, timers := defaultTimers
    bearer := defaultBearer, writes := [] }

/-- The inputs, the power state and the commands that wait. -/
def supply (s : State) : InputState × InputState × InputState × PowerState × List Instr :=
  (s.mainsOk, s.batteryLow, s.key, s.power, s.pending)

section

variable {s t : State}

theorem Scans.fixed (h : Scans s t) : Proofs.fixed t = Proofs.fixed s :=
  congrArg (fun u : State => { u with
    window := none, tick := 0, subTick := 0, entries := .replicate 64 defaultEntry
    profiles := .replicate 4 defaultProfile, acceptance := .replicate 4 defaultAcceptance, timers := defaultTimers
    bearer := defaultBearer, writes := [] }) h.still

theorem Calls.fixed (h : Calls s t) : Proofs.fixed t = Proofs.fixed s := h.scans.fixed

theorem fixed_setLink (s : State) (l : Link) (k : LinkController) : fixed (s.setLink l k) = fixed s := by
  cases l <;> rfl

theorem fixed_queueWrite (s : State) (i : Item) : fixed (s.queueWrite i) = fixed s := by
  obtain ⟨ws, o, e⟩ := s.queueWrite_spec i
  rw [e]
  rfl

theorem fixed_restartLinks (s : State) : fixed { s.restartLinks with tick := 0, subTick := 0 } = fixed s := rfl

theorem fixed_warmRestart (s : State) : fixed s.warmRestart = fixed s := by
  unfold State.warmRestart
  rw [fixed_restartLinks]
  exact (scans_restart _).fixed

theorem fixed_refitLines (s : State) (g : GroupId) (f : Fin 9) : fixed (s.refitLines g f) = fixed s := by
  unfold State.refitLines
  dsimp only
  refine State.each_keeps (fun u => fixed u = fixed s) _ (fun u n hu => ?_) _ _
    (State.each_keeps (fun u => fixed u = fixed s) _ (fun u n hu => ?_) _ _ rfl)
  · exact hu
  · exact hu

/-- What no link command touches. -/
theorem Taken.fixed {l : Link} (ht : Taken s l t) : Proofs.fixed t = Proofs.fixed s := by
  have hreply := fun (u : State) (type : Byte) (code : ReplyCode) (fs : List Byte) =>
    ((Calls.refl u).reply l type code fs).fixed
  cases ht with
  | scans hs => exact hs.fixed
  | listCalls start =>
    unfold State.takeListCalls
    dsimp only
    rw [hreply]
    split
    · exact fixed_setLink ..
    · rfl
  | setWatch f => exact (hreply ..).trans (fixed_setLink ..)
  | takeOut n _ =>
    refine (((Calls.refl _).notifyCondition n).fixed.trans (fixed_queueWrite ..)).trans ?_
    exact (((Calls.refl s).reply l Command.setService .ok []).enter n .outOfService).fixed
  | takeIn n _ =>
    refine ((((Scans.refl _).setClassifier n _).calls ((Calls.refl _).enter n .idle)).calls
      ((Calls.refl _).notifyCondition n)).fixed.trans ((fixed_queueWrite ..).trans ?_)
    exact ((Calls.refl s).reply l Command.setService .ok []).fixed
  | takeEntry n raw e _ _ =>
    refine (hreply ..).trans ((fixed_queueWrite ..).trans ?_)
    split <;> rfl
  | takeProfile p q _ _ =>
    refine (hreply ..).trans ((fixed_queueWrite ..).trans ?_)
    exact ((Scans.refl (s.setProfile p (clampProfile q))).each _ fun hu n => hu.trans (retrack_scans _ n)).fixed
  | takeSettings g x _ =>
    refine (hreply ..).trans ((fixed_queueWrite ..).trans ?_)
    split
    · rfl
    · exact ((Scans.refl _).refit g x.fitted).fixed.trans (fixed_refitLines ..)
  | writeAcceptance i e =>
    unfold State.writeAcceptance
    split
    · exact (hreply ..).trans (fixed_queueWrite ..)
    · exact hreply ..
  | writeTimers x =>
    unfold State.writeTimers
    split
    · exact (hreply ..).trans (fixed_queueWrite ..)
    · exact hreply ..
  | writeBearer a b =>
    unfold State.writeBearer
    split
    · exact (hreply ..).trans (fixed_queueWrite ..)
    · exact hreply ..
  | takeRestart =>
    have h1 := ((Calls.refl s).reply l Command.restart .ok []).fixed
    unfold State.takeRestart
    dsimp only
    split
    · exact h1
    · exact (fixed_warmRestart _).trans h1

theorem Taken.supply {l : Link} (ht : Taken s l t) : Proofs.supply t = Proofs.supply s :=
  (congrArg Proofs.supply ht.fixed :)

theorem supply_of_firm (h : firm t = firm s) : supply t = supply s := (congrArg supply h :)

theorem Scans.supply (h : Scans s t) : Proofs.supply t = Proofs.supply s := supply_of_firm h.firm
theorem Calls.supply (h : Calls s t) : Proofs.supply t = Proofs.supply s := supply_of_firm h.firm

theorem invSupply_congr (h : supply t = supply s) (hs : InvSupply s) : InvSupply t := by
  obtain ⟨h1, h2, h3, h4, -⟩ : _ ∧ _ ∧ _ ∧ _ ∧ _ := by simpa [supply] using h
  unfold InvSupply
  rwa [h1, h2, h3, h4]

theorem pending_of_supply (h : supply t = supply s) : t.pending = s.pending := congrArg (·.2.2.2.2) h

theorem supply_loadItem (s : State) (i : Item) (c : ItemContent) : supply (s.loadItem i c) = supply s := by
  unfold State.loadItem
  split
  case h_6 =>
    unfold State.loadLine
    dsimp only
    split
    · exact (((Scans.refl _).startPass _).arbitrate _).supply
    · rfl
  all_goals rfl

theorem supply_endRead (s : State) (good : Option ItemContent) : supply (s.endRead good) = supply s := by
  unfold State.endRead
  split
  · rfl
  · dsimp only
    split <;> exact supply_loadItem ..

theorem supply_endWrite (s : State) (ok : Bool) : supply (s.endWrite ok) = supply s := by
  unfold State.endWrite
  split
  · next e rest _ =>
    split
    · have h1 : ∀ c, supply (({ s with writes := rest }.startWriting).setStored e.item c) = supply s := fun c => by
        obtain ⟨ws, o, h⟩ := State.startWriting_spec { s with writes := rest }
        rw [h]
        rfl
      dsimp only
      split
      · exact h1 _
      · exact ((Calls.refl _).notifyAll _).supply.trans (h1 _)
    · rfl
  · rfl

theorem pending_formPower (s : State) : s.formPower.pending = s.pending := by
  unfold State.formPower
  dsimp only
  split
  · rfl
  · split
    · exact (pending_of_supply (((Calls.refl _).notifyAll _).scans.each _ fun hu g => hu.endTest g _).supply).trans rfl
    · exact (pending_of_supply ((Calls.refl _).notifyAll _).supply).trans rfl

/-- Every effect leaves the commands that wait. -/
theorem Reach.pending (he : Reach s t) : t.pending = s.pending := by
  cases he with
  | firm hf => exact pending_of_supply (supply_of_firm hf)
  | coldStart m b k => rfl
  | endRead ld hl rep => exact pending_of_supply (supply_endRead ..)
  | takeLevel i x => cases i <;> rfl
  | endDebounce i =>
    unfold State.endDebounce
    dsimp only
    split
    · rfl
    · cases i with
      | key => rfl
      | mainsOk => exact pending_formPower _
      | batteryLow => exact pending_formPower _
  | endWrite ok => exact pending_of_supply (supply_endWrite ..)
  | command l _ ht => exact pending_of_supply (ht.supply.trans (supply_of_firm (firm_arrive s l)))

/-- Every effect keeps the invariants of the store and of the supply monitor. -/
theorem Reach.invStore_invSupply (he : Reach s t) (h : InvStore s ∧ InvSupply s) : InvStore t ∧ InvSupply t := by
  cases he with
  | firm hf => exact ⟨invStore_firm hf h.1, invSupply_firm hf h.2⟩
  | coldStart m b k => exact ⟨invStore_coldStart s m b k, invSupply_coldStart s m b k⟩
  | endRead ld hl rep => exact ⟨invStore_endRead h.1 hl rep, invSupply_congr (supply_endRead ..) h.2⟩
  | takeLevel i x =>
    refine ⟨?_, invSupply_takeLevel h.2 i x⟩
    cases i <;> exact h.1
  | endDebounce i => 
    refine ⟨?_, invSupply_endDebounce h.2 i⟩
    have hp : ∀ u : State, InvStore u → InvStore u.formPower := fun u hu => by
      unfold State.formPower
      dsimp only
      split
      · exact hu
      · have h1 : ∀ p, InvStore { u with power := p } := fun p => hu
        split
        · exact (((Calls.refl _).notifyAll _).scans.each _ fun hv g => hv.endTest g _).invStore (h1 _)
        · exact ((Calls.refl _).notifyAll _).invStore (h1 _)
    unfold State.endDebounce
    dsimp only
    split
    · exact h.1
    · cases i with
      | key => exact h.1
      | mainsOk => exact hp _ h.1
      | batteryLow => exact hp _ h.1
  | endWrite ok => exact ⟨invStore_endWrite h.1 ok, invSupply_congr (supply_endWrite ..) h.2⟩
  | command l _ ht =>
    have ha := firm_arrive s l
    exact ⟨ht.invStore (invStore_firm ha h.1), invSupply_congr ht.supply (invSupply_firm ha h.2)⟩

end

theorem idle_invStore_invSupply {s : State} (h : InvStore s ∧ InvSupply s) :
    InvStore s.idle ∧ InvSupply s.idle := by
  unfold State.idle
  split <;> exact h

/-- Settles O57: by the effects of a step, none of which breaks the write queue, a working copy or an input. -/
theorem stepKeepsStoreAndSupply : Obligations.StepKeepsStoreAndSupply := by
  intro s t hw hp hs
  rcases step_effect hs with rfl | ⟨rest, he⟩
  · exact idle_invStore_invSupply ⟨hw, hp⟩
  · exact he.reach.invStore_invSupply ⟨hw, hp⟩

/-- Settles O3: every meaning answers a next state, and each of its effects leaves the commands that wait. -/
theorem everyCommandCompletes : Obligations.EveryCommandCompletes := by
  intro c s
  obtain ⟨f, hf, he⟩ := exec_effect c s
  exact ⟨f { s with orders := [] }, hf, (he _).reach.pending⟩

end Sys2Proof.Proofs

/-! PROOFS. The step, the taking of a command and its checks (R149 to R151, R156), and the commands that need no
right (R69, R99 to R101, R163, R164, R167). -/

namespace Sys2Proof.Proofs

open Sys2Proof Sys2Proof.Machine

/-- Settles O1, by the definition of a step. -/
theorem stepTakesFrontCommand : Obligations.StepTakesFrontCommand := fun s c rest h => step_cons s c rest h

/-- Settles O2, by the two cases of the tick. -/
theorem idleStepPassesTime : Obligations.IdleStepPassesTime := by
  intro s h
  refine ⟨s.idle, step_nil s h, ?_⟩
  unfold State.idle
  split
  · next hlt => exact ⟨rfl, fun _ => ⟨rfl, rfl⟩, fun h9 => by omega⟩
  · next hge => exact ⟨rfl, fun h9 => by omega, fun _ => ⟨rfl, rfl⟩⟩

/-! ### A command's meaning is its checks and its effect -/

/-- A command that `admits` lets through acts on the state that its frame leaves. -/
theorem taking_command {α : Type} {s : State} {l : Link} {type : Byte} {right : Right}
    (h : s.admits l type right) (x : α) (act : State → α → State) :
    (s.taking fun b => b.command l type right (some x) act) = .next (act (s.heard l) x) := by
  rw [State.taking_eq, s.command_admitted l type right x act h]

/-- The same for a command that only a centre link may give. -/
theorem taking_centreCommand {α : Type} {s : State} {c : Centre} {type : Byte}
    (h : s.admits c.link type .calls) (x : α) (act : State → Centre → α → State) :
    (s.taking fun b => b.centreCommand c.link type (some x) act) = .next (act (s.heard c.link) c x) := by
  refine (taking_command h x _).trans ?_
  cases c <;> rfl

theorem receive_fresh (s : State) (l : Link) :
    (State.link { s with orders := [] } l).receive = (s.link l).receive := by cases l <;> rfl

section

variable {α : Type} {s : State} {l : Link} {type : Byte} {right : Right} {read : Option α}
  {act : State → α → State}

theorem taking_inBreak (h : (s.link l).receive.inBreak = true) :
    (s.taking fun b => b.command l type right read act) = .next { s with orders := [] } := by
  rw [State.taking_eq, State.command_inBreak]
  rwa [receive_fresh]

theorem taking_heldUp (hb : (s.link l).receive.inBreak = false) {code : ReplyCode}
    (hh : (s.heard l).heldUp l type = some code) :
    (s.taking fun b => b.command l type right read act) = .next ((s.heard l).answered l type code []) := by
  rw [State.taking_eq, State.command_heldUp _ l type right read act (by rwa [receive_fresh]) code hh]
  rfl

theorem taking_notPermitted (hb : (s.link l).receive.inBreak = false) (hh : (s.heard l).heldUp l type = none)
    (hr : (s.heard l).holds l right = false) :
    (s.taking fun b => b.command l type right read act) = .next ((s.heard l).answered l type .notPermitted []) := by
  rw [State.taking_eq, State.command_notPermitted _ l type right read act (by rwa [receive_fresh]) hh hr]
  rfl

theorem taking_badLength (h : s.admits l type right) :
    (s.taking fun b => b.command l type right (none : Option α) act) =
      .next ((s.heard l).answered l type .badLength []) := by
  obtain ⟨hb, hh, hr⟩ := h
  rw [State.taking_eq, State.command_badLength _ l type right act (by rwa [receive_fresh]) hh hr]
  rfl

end

/-! ### The lengths of bodies -/

theorem readNone_eq_none {b : List Byte} (h : b.length ≠ 0) : readNone b = none := by
  unfold readNone
  split
  · exact absurd rfl h
  · rfl

theorem readByte_eq_none {b : List Byte} (h : b.length ≠ 1) : readByte b = none := by
  unfold readByte
  split
  · exact absurd rfl h
  · rfl

theorem readBytes2_eq_none {b : List Byte} (h : b.length ≠ 2) : readBytes2 b = none := by
  unfold readBytes2
  split
  · exact absurd rfl h
  · rfl

theorem readBytes4_eq_none {b : List Byte} (h : b.length ≠ 4) : readBytes4 b = none := by
  unfold readBytes4
  split
  · exact absurd rfl h
  · rfl

theorem readAcceptance_eq_none {b : List Byte} (h : b.length ≠ 8) : readAcceptance b = none := by
  unfold readAcceptance
  split
  · exact absurd rfl h
  · rfl

theorem readCallTimers_eq_none {b : List Byte} (h : b.length ≠ 10) : readCallTimers b = none := by
  unfold readCallTimers
  split
  · exact absurd rfl h
  · rfl

theorem readWriteProfile_eq_none {b : List Byte} (h : b.length ≠ 20) : readWriteProfile b = none := by
  unfold readWriteProfile
  split
  · exact absurd rfl h
  · rfl

theorem readWatch_eq_none {b : List Byte} (h : b.length < 2 ∨ b.length ≠ 2 + 5 * (b.getD 1 0).toNat) :
    readWatch b = none := by
  unfold readWatch
  split
  · split
    · simp at h; omega
    · rfl
  · rfl

theorem readWriteDirectory_eq_none {b : List Byte} (h : b.length < 13 ∨ b.length ≠ 13 + (b.getD 12 0).toNat) :
    readWriteDirectory b = none := by
  unfold readWriteDirectory
  split
  · split
    · simp at h; omega
    · rfl
  · rfl

/-- A body that the three layouts of O5 do not fit. -/
abbrev WrongLength (type : Byte) (body : List Byte) : Prop :=
  (∃ n ∈ fixedLength type, body.length ≠ n) ∨
  (type = Command.setWatch ∧ (body.length < 2 ∨ body.length ≠ 2 + 5 * (body.getD 1 0).toNat)) ∨
  (type = Command.writeDirectory ∧ (body.length < 13 ∨ body.length ≠ 13 + (body.getD 12 0).toNat))

/-- The TYPEs of a fixed length have no other layout. -/
theorem length_of_fixed {type : Byte} {body : List Byte} {n : Nat} (h : WrongLength type body)
    (hn : fixedLength type = some n) : body.length ≠ n := by
  rcases h with ⟨m, hm, h⟩ | ⟨rfl, -⟩ | ⟨rfl, -⟩
  · rw [hn] at hm
    exact Option.some.inj hm ▸ h
  · exact absurd hn (by decide +revert)
  · exact absurd hn (by decide +revert)

theorem length_of_setWatch {body : List Byte} (h : WrongLength Command.setWatch body) :
    body.length < 2 ∨ body.length ≠ 2 + 5 * (body.getD 1 0).toNat := by
  rcases h with ⟨m, hm, -⟩ | ⟨-, h⟩ | ⟨h, -⟩
  · exact absurd hm (by simp [show fixedLength Command.setWatch = none by decide])
  · exact h
  · exact absurd h (by decide)

theorem length_of_writeDirectory {body : List Byte} (h : WrongLength Command.writeDirectory body) :
    body.length < 13 ∨ body.length ≠ 13 + (body.getD 12 0).toNat := by
  rcases h with ⟨m, hm, -⟩ | ⟨h, -⟩ | ⟨-, h⟩
  · exact absurd hm (by simp [show fixedLength Command.writeDirectory = none by decide])
  · exact absurd h (by decide)
  · exact h

/-- Every command row is taken through the checks of its TYPE and right, and reads nothing from a body of a wrong
length (R150). -/
theorem exec_eq_command {c : Instr} {k : LinkCommand} (h : linkCommand c = some k) :
    ∃ (α : Type) (read : Option α) (act : State → α → State),
      (∀ s, exec c s = s.taking fun b => b.command k.link k.type k.right read act) ∧
      (WrongLength k.type k.body → read = none) := by
  cases c
  case keepalive | answerNext | handoverRequest | resume | restart =>
    cases h
    exact ⟨_, _, _, fun _ => rfl, fun w => readNone_eq_none (length_of_fixed w rfl)⟩
  case listCalls | listAbandoned | lineStatus | readDirectory | readProfile | readGroup | claim | hold | retrieve |
      release | transfer | ringPost | cancelRing | dismiss =>
    cases h
    exact ⟨_, _, _, fun _ => rfl, fun w => readByte_eq_none (length_of_fixed w rfl)⟩
  case setServiceOut | setServiceIn | testLine | setBearer =>
    cases h
    exact ⟨_, _, _, fun _ => rfl, fun w => readBytes2_eq_none (length_of_fixed w rfl)⟩
  case setGroup =>
    cases h
    exact ⟨_, _, _, fun _ => rfl, fun w => readBytes4_eq_none (length_of_fixed w rfl)⟩
  case setAcceptance =>
    cases h
    exact ⟨_, _, _, fun _ => rfl, fun w => readAcceptance_eq_none (length_of_fixed w rfl)⟩
  case setCallTimers =>
    cases h
    exact ⟨_, _, _, fun _ => rfl, fun w => readCallTimers_eq_none (length_of_fixed w rfl)⟩
  case writeProfile =>
    cases h
    exact ⟨_, _, _, fun _ => rfl, fun w => readWriteProfile_eq_none (length_of_fixed w rfl)⟩
  case setWatch =>
    cases h
    exact ⟨_, _, _, fun _ => rfl, fun w => readWatch_eq_none (length_of_setWatch w)⟩
  case writeDirectory =>
    cases h
    exact ⟨_, _, _, fun _ => rfl, fun w => readWriteDirectory_eq_none (length_of_writeDirectory w)⟩
  all_goals cases h

/-- Settles O4: each check of `command` in its order. -/
theorem commandChecksBeforeTaking : Obligations.CommandChecksBeforeTaking := by
  intro s c k hk
  obtain ⟨α, read, act, he, -⟩ := exec_eq_command hk
  rw [he]
  refine ⟨taking_inBreak, fun hb => ?_⟩
  refine ⟨fun hw => taking_heldUp hb ?_, fun hw hn hl => taking_heldUp hb ?_,
    fun hw hn hl hlost => taking_heldUp hb ?_, fun hw hl hs hr => taking_notPermitted hb ?_ ?_⟩
  · simp [State.heldUp, hw]
  · simp [State.heldUp, hw, hn, hl]
  · simp [State.heldUp, hw, hn, hl, hlost]
  · simp only [hs] at hw hl ⊢
    simp [State.heldUp, hw, hl, State.isLost, Link.centre?]
  · rcases hr with hr | ⟨hr | hr, hkey⟩ <;> simp_all [State.holds]

/-- Settles O5: a body of a wrong length reads as nothing. -/
theorem wrongLengthRefused : Obligations.WrongLengthRefused := by
  intro s c k hk ha hlen
  obtain ⟨α, read, act, he, hread⟩ := exec_eq_command hk
  rw [he, hread hlen]
  exact taking_badLength ha

/-! ### The receiver and the transmitter (R149, R156, R159) -/

/-- Settles O10, by the three states of the receiver. -/
theorem receiverFollowsSyncAndBreaks : Obligations.ReceiverFollowsSyncAndBreaks := by
  intro s l
  refine ⟨fun h => ?_, fun h => ?_, fun h => ?_⟩
  · dsimp only [exec, execSyncByteReceived, State.taking_eq]
    rw [receive_fresh, h]
    cases l <;> rfl
  · dsimp only [exec, execSyncByteReceived, State.taking_eq]
    rw [receive_fresh]
    cases hr : (s.link l).receive with
    | hunt => exact absurd hr h
    | frame _ => rfl
    | brk _ => rfl
  · dsimp only [exec, execBreakRecognised, State.taking_eq]
    rw [receive_fresh, h]
    cases l <;> rfl

/-- A message other than RESTART's reply, or on a link without the window, lets the transmitter go on (R159). -/
theorem afterTransmission_of_ne {s : State} {l : Link} {m : Message}
    (h : s.window = some l → m ≠ restartReply) : s.afterTransmission l m = s.setLink l ((s.link l).pump s.tick) :=
  if_neg fun ⟨hw, hm⟩ => h hw hm

/-- Settles O12: the transmitter goes IDLE and takes the next entry. -/
theorem transmissionCompleteTakesNext : Obligations.TransmissionCompleteTakesNext := by
  intro s l m frame hm hw
  have he : exec (.transmissionComplete l) s = .next ({ s with orders := [] }.setLink l
      (({ s.link l with transmit := .idle } : LinkController).pump s.tick)) := by
    dsimp only [exec, execTransmissionComplete, State.taking_eq]
    rw [show (State.link { s with orders := [] } l).transmit = .sending m frame by rw [← hm]; cases l <;> rfl]
    dsimp only
    rw [afterTransmission_of_ne]
    · cases l <;> rfl
    · intro h
      exact absurd (by cases l <;> exact h) hw
  rw [he]
  refine ⟨fun hq => ?_, fun e he => ?_⟩
  · simp [LinkController.pump, hq]
  · cases hq : (s.link l).queue with
    | nil => simp [hq] at he
    | cons x rest =>
      obtain rfl : x = e := by simpa [hq] using he
      simp [LinkController.pump, hq]

end Sys2Proof.Proofs

/-! PROOFS. The commands that need no right (R69, R99 to R101, R163, R164, R167). -/

namespace Sys2Proof.Proofs

open Sys2Proof Sys2Proof.Machine

theorem flagBit_zero (b : Bool) : flagBit b 0 = if b then 1#8 else 0#8 := by cases b <;> rfl

theorem flagBit_one (b : Bool) : flagBit b 1 = if b then 2#8 else 0#8 := by cases b <;> rfl

theorem flagBit_two (b : Bool) : flagBit b 2 = if b then 4#8 else 0#8 := by cases b <;> rfl

/-- Settles O13: the fields are taken before CLEARED is cleared. -/
theorem keepaliveReportsState : Obligations.KeepaliveReportsState := by
  intro s l h
  refine (taking_command h () fun b _ => b.takeKeepalive l).trans (congrArg _ ?_)
  rw [State.takeKeepalive, State.reply_eq]
  congr 1
  simp only [State.keepaliveFields, keepaliveFlags, flagBit_zero, flagBit_one]
  cases l <;> rfl

/-- Settles O14: both replies carry a page of six. -/
theorem listsAnswerPages : Obligations.ListsAnswerPages := by
  intro s l start
  refine ⟨fun h => ?_, fun h => ?_⟩
  · refine (taking_command h start fun b x => b.takeListCalls l x).trans (congrArg _ ?_)
    rw [State.takeListCalls, State.reply_eq]
    rfl
  · refine (taking_command h start fun b x => b.reply l Command.listAbandoned .ok (b.listAbandonedFields x)).trans
      (congrArg _ ?_)
    rw [State.reply_eq, State.listAbandonedFields, flagBit_zero]
    rfl

/-! ### Items that a byte names -/

theorem lineOfNat_eq_none {k : Nat} (h : 64 ≤ k) : lineOfNat k = none := dif_neg (by omega)
theorem profileOfNat_eq_none {k : Nat} (h : 4 ≤ k) : profileOfNat k = none := dif_neg (by omega)
theorem groupOfNat_eq_none {k : Nat} (h : 8 ≤ k) : groupOfNat k = none := dif_neg (by omega)

section

variable {a : State} {l : Link} {type b : Byte}

theorem withLine_some {act : LineId → State} {n : LineId} (h : lineOfNat b.toNat = some n) :
    a.withLine l type b act = act n := by
  rw [State.withLine, h]

theorem withLine_none {act : LineId → State} (h : 64 ≤ b.toNat) :
    a.withLine l type b act = a.answered l type .badValue [] := by
  rw [State.withLine, lineOfNat_eq_none h, State.refuse_eq]

theorem withFitted_of_ne {n : LineId} {act : State} (h : (a.line n).condition ≠ .notFitted) :
    a.withFitted l type n act = act := if_neg h

theorem withFitted_of_eq {n : LineId} {act : State} (h : (a.line n).condition = .notFitted) :
    a.withFitted l type n act = a.answered l type .lineNotFitted [] := by
  rw [State.withFitted, if_pos h, State.refuse_eq]

end

/-- The bytes of LINE_STATUS, field by field (R17, R33, R167). -/
theorem lineStatusFields_eq (a : State) (n : LineId) :
    a.lineStatusFields n =
      [byte (a.line n).condition.code] ++
        (match (a.line n).condition with
          | .fault f => [1#8, byte f.code]
          | _ => [0#8, 0#8]) ++
        [match a.recordOfLine n with
          | some r => BitVec.ofFin r.id
          | none => 0#8,
         byte (a.line n).tone.code] ++
        (match (a.line n).condition with
          | .ringing ringTimer c _ => [1#8, byte (centreCode c), 1#8] ++ bytes4 (ringTimer.due - a.clock)
          | _ => .replicate 7 0#8) ++
        (match (a.line n).condition with
          | .parked _ _ parkTick =>
            let ms := 10 * (a.tick - parkTick).toNat
            1#8 :: bytes4 (if ms < 2 ^ 32 then ms else (Config.longPark ms).toNat)
          | _ => .replicate 5 0#8) ++
        [byte (a.classifier n).confirmed.code] ++
        (match (a.classifier n).candidate with
          | some c => [1#8, byte c.code]
          | none => [0#8, 0#8]) ++
        [byte (a.classifier n).count] ++ bytes2 (a.classifier n).rTrack ++
        (match (a.classifier n).rLast with
          | some r => 1#8 :: bytes2 r
          | none => [0#8, 0#8, 0#8]) ++
        bytes2 (a.classifier n).marginal ++ [if (a.classifier n).leaky then 1#8 else 0#8] := by
  unfold State.lineStatusFields Classifier.fields soleFlag
  rw [flagBit_zero]
  dsimp only
  have hf : optionalField 1 ((a.line n).condition.faultKind.map fun k => [byte k.code]) =
      (match (a.line n).condition with
        | .fault f => [1#8, byte f.code]
        | _ => [0#8, 0#8]) := by cases (a.line n).condition <;> rfl
  have hr : ringFields (a.line n).condition a.clock =
      (match (a.line n).condition with
        | .ringing ringTimer c _ => [1#8, byte (centreCode c), 1#8] ++ bytes4 (ringTimer.due - a.clock)
        | _ => .replicate 7 0#8) := by cases (a.line n).condition <;> rfl
  have hp : parkField (a.line n).condition a.tick =
      (match (a.line n).condition with
        | .parked _ _ parkTick =>
          let ms := 10 * (a.tick - parkTick).toNat
          1#8 :: bytes4 (if ms < 2 ^ 32 then ms else (Config.longPark ms).toNat)
        | _ => .replicate 5 0#8) := by cases (a.line n).condition <;> rfl
  have hc : optionalField 1 ((a.classifier n).candidate.map fun c => [byte c.code]) =
      (match (a.classifier n).candidate with
        | some c => [1#8, byte c.code]
        | none => [0#8, 0#8]) := by cases (a.classifier n).candidate <;> rfl
  have hl : optionalField 2 ((a.classifier n).rLast.map bytes2) =
      (match (a.classifier n).rLast with
        | some r => 1#8 :: bytes2 r
        | none => [0#8, 0#8, 0#8]) := by cases (a.classifier n).rLast <;> rfl
  have hi : callIdByte (a.lineCallId n) =
      (match a.recordOfLine n with
        | some r => BitVec.ofFin r.id
        | none => 0#8) := by
    unfold State.lineCallId
    cases a.recordOfLine n <;> rfl
  rw [hf, hr, hp, hc, hl, hi]
  simp only [List.append_assoc]

/-- Settles O15: each read replies with the bytes of its item. -/
theorem readsAnswerItems : Obligations.ReadsAnswerItems := by
  intro s l b
  dsimp only
  refine ⟨fun h => ?_, fun h => ?_, fun h => ?_, fun h => ?_⟩
  · have he := taking_command h b fun a b => a.withLine l Command.lineStatus b fun n =>
      a.reply l Command.lineStatus .ok (a.lineStatusFields n)
    refine ⟨fun n hn => he.trans (congrArg _ ?_), fun hb => he.trans (congrArg _ (withLine_none hb))⟩
    rw [withLine_some hn, State.reply_eq]
    exact congrArg _ (lineStatusFields_eq _ n)
  · have he := taking_command h b fun a b => a.withLine l Command.readDirectory b fun n =>
      a.withFitted l Command.readDirectory n (a.reply l Command.readDirectory .ok (a.entryFields n))
    refine ⟨fun n hn => ⟨fun hf => he.trans (congrArg _ ?_), fun hf => he.trans (congrArg _ ?_)⟩,
      fun hb => he.trans (congrArg _ (withLine_none hb))⟩
    · rw [withLine_some hn, withFitted_of_ne hf, State.reply_eq]
      rfl
    · rw [withLine_some hn, withFitted_of_eq hf]
  · refine ⟨fun p hp => (taking_command h b _).trans (congrArg _ ?_),
      fun hb => (taking_command h b _).trans (congrArg _ ?_)⟩
    · rw [hp]
      dsimp only
      rw [State.reply_eq, State.profileFields, flagBit_two]
      rfl
    · rw [profileOfNat_eq_none hb]
      exact State.refuse_eq ..
  · refine ⟨fun g hg => (taking_command h b _).trans (congrArg _ ?_),
      fun hb => (taking_command h b _).trans (congrArg _ ?_)⟩
    · rw [hg]
      dsimp only
      rw [State.reply_eq]
      congr 1
      simp only [State.groupFields, GroupRecord.settings, soleFlag, flagBit_zero]
      cases ((s.heard l).group g).vf <;> rfl
    · rw [groupOfNat_eq_none hb]
      exact State.refuse_eq ..

/-! ### The watch filter (R164) -/

theorem holds_iff (r : WatchRange) (e : Entry) :
    r.holds e = true ↔ e.sect = r.sect ∧ r.low.toNat ≤ e.marker.toNat ∧ e.marker.toNat ≤ r.high.toNat := by
  simp [WatchRange.holds, BitVec.le_def, and_assoc]

/-- Settles O16: the filter's three modes, and SET_WATCH by the check of its values. -/
theorem setWatchSetsFilter : Obligations.SetWatchSetsFilter := by
  refine ⟨fun f e => ?_, fun s l body mode ranges h hread => ?_⟩
  · dsimp only
    simp only [← holds_iff]
    refine ⟨fun hm => ?_, fun hm => ?_, fun hm => ?_⟩ <;> simp [WatchFilter.passes, hm]
  · have he : ∀ t, (match checkWatch mode ranges with
        | some f => ((s.heard l).setLink l { (s.heard l).link l with watch := f }).reply l Command.setWatch .ok []
        | none => (s.heard l).refuse l Command.setWatch .badValue) = t →
        exec (.setWatch l body) s = .next t := fun t ht => by
      show (s.taking fun b => b.command l Command.setWatch .none (readWatch body) _) = _
      rw [hread]
      exact (taking_command h (mode, ranges) _).trans (congrArg _ ht)
    dsimp only
    refine ⟨fun m hm hlen hr => he _ ?_, fun hbad => he _ ?_⟩
    · have hc : checkWatch mode ranges = some { mode := m, ranges := ranges } := by
        rw [checkWatch, hm]
        exact if_pos ⟨hlen, fun r hr' => BitVec.le_def.2 (hr r hr')⟩
      rw [hc]
      exact State.reply_eq ..
    · have hc : checkWatch mode ranges = none := by
        unfold checkWatch
        split
        · next m hm =>
          refine if_neg fun ⟨hlen, hr⟩ => ?_
          rcases hbad with hb | hb | ⟨r, hmem, hb⟩
          · unfold watchOfNat at hm
            split at hm <;> simp_all
          · omega
          · have := BitVec.le_def.1 (hr r hmem)
            omega
        · rfl
      rw [hc]
      exact State.refuse_eq ..

end Sys2Proof.Proofs

/-! PROOFS. The rules of lines, channels and records as equations (R41, R81 to R83, R126 to R134), and the commands
of the CALLS right that act on one call or one line (R42 to R45, R96, R98, R111 to R117). -/

namespace Sys2Proof.Proofs

open Sys2Proof Sys2Proof.Machine

section

variable (s : State)

/-! ### Messages as updates of one controller -/

/-- The controller of a link after a notice placed for it (R157). -/
def hearing (s : State) (l : Link) (n : Notice) : LinkController :=
  if s.isLost l then s.link l else ((s.link l).enqueue (.notice n) false).pump s.tick

theorem informed_eq (l : Link) (n : Notice) : s.informed l n = s.setLink l (hearing s l n) := by
  unfold State.informed hearing
  split
  · exact (s.setLink_self l).symm
  · rfl

theorem informed_link (l : Link) (n : Notice) : (s.informed l n).link l = hearing s l n := by
  rw [informed_eq, State.setLink_link, if_pos rfl]

/-- The controller of a link after a leave (R161). -/
def leaving (s : State) (c : Centre) (id : CallId) (n : Option Notice) : LinkController :=
  (s.link c.link).leave id (if s.isLost c.link then none else n) s.tick

theorem leave_eq (c : Centre) (id : CallId) (n : Option Notice) :
    s.leave c id n = s.setLink c.link (leaving s c id n) := rfl

/-! ### Tones -/

/-- The tone a line has by its condition and its record (R41). -/
abbrev toneOf (s : State) (n : LineId) : Tone := toneFor (s.line n).condition (s.recordOfLine n)

/-- The order of a tone, when it is a change (R41). -/
def toned (s : State) (n : LineId) (t : Tone) : List Order := if (s.line n).tone = t then [] else [.tone n t]

theorem retone_eq (n : LineId) :
    s.retone n = { s with
      lines := s.lines.set n { s.line n with tone := toneOf s n }
      orders := s.orders ++ toned s n (toneOf s n) } := by
  unfold State.retone toned
  dsimp only
  split
  · next h =>
    rw [if_pos h.symm, List.append_nil]
    have hl : s.lines.set n { s.line n with tone := toneOf s n } = s.lines := by
      rw [show toneOf s n = (s.line n).tone from h]
      exact Vector.set_getElem_self n.isLt
    rw [hl]
  · next h => rw [if_neg (Ne.symm h)]; rfl

theorem enter_eq (n : LineId) (k : Condition) :
    s.enter n k = { s with
      lines := s.lines.set n { condition := k, tone := toneFor k (s.recordOfLine n) }
      orders := s.orders ++ toned s n (toneFor k (s.recordOfLine n)) } := by
  rw [State.enter, retone_eq]
  simp [State.setCondition, State.setLine, State.line, State.recordOfLine, toneOf, toned]
  rfl

/-! ### Channels -/

theorem freeChannel_connected {ch : ChannelId} {n : LineId} {c : Centre} {id : CallId}
    (h : s.channel ch = .connected n c id) :
    s.freeChannel ch = { s with channels := s.channels.set ch .free, orders := s.orders ++ [.breakPoint ch n] } := by
  rw [State.freeChannel, h]
  rfl

theorem freeChannel_reserved {ch : ChannelId} {n : LineId} {c : Centre} (h : s.channel ch = .reserved n c) :
    s.freeChannel ch = { s with channels := s.channels.set ch .free } := by
  rw [State.freeChannel, h]
  rfl

variable {s}

theorem lowestFree_eq {ch : ChannelId} (hf : s.channel ch = .free)
    (hl : ∀ k : ChannelId, k.val < ch.val → s.channel k ≠ .free) : s.lowestFree = some ch := by
  unfold State.lowestFree
  refine List.find?_eq_some_iff_append.2 ⟨by simpa using hf, (List.finRange 6).take ch.val,
    (List.finRange 6).drop (ch.val + 1), ?_, fun k hk => ?_⟩
  · have : (List.finRange 6).drop ch.val = ch :: (List.finRange 6).drop (ch.val + 1) := by
      rw [List.drop_eq_getElem_cons (by simp)]
      simp
    rw [← this, List.take_append_drop]
  · obtain ⟨i, hi, rfl⟩ := List.mem_take_iff_getElem.1 hk
    simpa using hl _ (by simp at hi ⊢; omega)

/-- With both counts below their limits the lowest FREE channel is granted (R130). -/
theorem grantedChannel_eq {c : Centre} {ch : ChannelId} (hc : s.channelsInUse < cabinetLimit s.power)
    (hb : s.channelsRouted c < s.bearer.limit c) (hf : s.channel ch = .free)
    (hl : ∀ k : ChannelId, k.val < ch.val → s.channel k ≠ .free) : s.grantedChannel c = some ch := by
  rw [State.grantedChannel, if_pos ⟨hc, hb⟩, lowestFree_eq hf hl]

/-! ### Records found after an update -/

variable (s)

theorem recordById_updRecord (id x : CallId) {f : CallRecord → CallRecord} (hf : ∀ r, (f r).id = r.id) :
    (s.updRecord id f).recordById x = (s.recordById x).map fun r => if r.id = id then f r else r := by
  unfold State.recordById State.updRecord
  rw [List.find?_map]
  congr 2
  funext r
  by_cases h : r.id = id <;> simp [h, hf]

theorem recordOfLine_updRecord (id : CallId) (n : LineId) {f : CallRecord → CallRecord}
    (hf : ∀ r, (f r).line = r.line) :
    (s.updRecord id f).recordOfLine n = (s.recordOfLine n).map fun r => if r.id = id then f r else r := by
  unfold State.recordOfLine State.updRecord
  rw [List.find?_map]
  congr 2
  funext r
  by_cases h : r.id = id <;> simp [h, hf]

/-! ### The lookup of a call (R98, R114) -/

variable {s}

section

variable {l : Link} {type id : Byte} {act : CallRecord → State}

theorem withCall_zero : s.withCall l type 0 act = s.answered l type .noSuchCall [] := by
  simp [State.withCall, State.lookup, State.refuse_eq]

theorem withCall_none (h0 : id ≠ 0) (h : s.recordById id.toFin = none) :
    s.withCall l type id act =
      if s.abandoned.any fun e => e.id = id.toFin then s.answered l type .abandoned []
      else s.answered l type .noSuchCall [] := by
  unfold State.withCall State.lookup
  rw [if_neg h0, h]
  by_cases ha : s.abandoned.any (fun e => decide (e.id = id.toFin)) = true
  · rw [if_pos ha]
    simp only [ha, if_true]
    exact s.refuse_eq ..
  · rw [if_neg ha]
    simp only [ha]
    exact s.refuse_eq ..

theorem withCall_some {r : CallRecord} (h0 : id ≠ 0) (h : s.recordById id.toFin = some r) :
    s.withCall l type id act = act r := by
  unfold State.withCall State.lookup
  rw [if_neg h0, h]

theorem withClaimed_refused {c : Centre} {code : ReplyCode} (h : s.claimedRefusal c id = some code) :
    s.withClaimed c type id act = s.answered c.link type code [] := by
  unfold State.claimedRefusal at h
  unfold State.withClaimed
  split at h
  · next h0 =>
    obtain rfl := Option.some.inj h
    rw [h0, withCall_zero]
  · next h0 =>
    split at h
    · next r hr =>
      rw [withCall_some h0 hr]
      split at h
      · cases h
      · next hc =>
        obtain rfl := Option.some.inj h
        rw [if_neg hc, State.refuse_eq]
    · next hr =>
      rw [withCall_none h0 hr]
      split at h
      · next ha =>
        obtain rfl := Option.some.inj h
        rw [if_pos ha]
      · next ha =>
        obtain rfl := Option.some.inj h
        rw [if_neg ha]

theorem withClaimed_some {c : Centre} {r : CallRecord} (h0 : id ≠ 0) (h : s.recordById id.toFin = some r)
    (hc : r.claimant = some c) : s.withClaimed c type id act = act r := by
  rw [State.withClaimed, withCall_some h0 h, if_pos hc]

end

end

/-! ### CLAIM and ANSWER_NEXT (R111 to R113) -/

/-- Settles O18, by the order of the checks. -/
theorem claimRefusals : Obligations.ClaimRefusals := by
  intro s c id h
  have he' : ∀ t, (s.heard c.link).withCall c.link Command.claim id
      (fun r => (s.heard c.link).claimRecord c r) = t → exec (.claim c.link [id]) s = .next t := fun t ht =>
    (taking_centreCommand h id _).trans (congrArg _ ht)
  refine ⟨fun h0 => he' _ (h0 ▸ withCall_zero), fun h0 hn => ?_, fun r hr h0 => ?_⟩
  · have := he' _ (withCall_none h0 hn)
    rw [this]
    split <;> rfl
  · have hc := fun t (ht : (s.heard c.link).claimRecord c r = t) => he' t ((withCall_some h0 hr).trans ht)
    refine ⟨fun hd => hc _ ?_, fun hd => ⟨fun hcl => hc _ ?_, fun hcl => hc _ ?_, fun hcl ho => hc _ ?_,
      fun hcl ho hl => hc _ ?_⟩⟩
    · simp [State.claimRecord, hd, State.refuse_eq]
    · simp [State.claimRecord, hd, hcl, State.refuse_eq]
    · cases c <;> simp [State.claimRecord, hd, hcl, State.reply_eq, Centre.partner, centreCode, byte]
    · simp [State.claimRecord, hd, hcl, ho, State.refuse_eq]
    · simp [State.claimRecord, hd, hcl, ho, State.refuse_eq, State.grantedChannel_none hl]

/-- The controller of the claimant after its reply and its own leave (R112). -/
def claimantLink (s : State) (r : CallRecord) (c : Centre) (type : Byte) (fields : List Byte) : LinkController :=
  ((s.answered c.link type .ok fields).link c.link).leave r.id none s.tick

/-- The controller of the partner after CALL_TAKEN, when it is owed one (R112). -/
def partnerLink (s : State) (r : CallRecord) (c : Centre) : LinkController :=
  if r.offered.has c.partner then leaving s c.partner r.id (some (.callTaken r.id r.line c))
  else if r.origin = some c.partner then hearing s c.partner.link (.callTaken r.id r.line c)
  else s.link c.partner.link

/-- The long-call timer that a claim starts (R117). -/
def longTimer (s : State) : Timer := s.timerFromTick (s.timers.longCall * 1000)

/-- A taken claim before the line's tone is worked out (R111, R112). -/
def claimTaken (s : State) (r : CallRecord) (c : Centre) (ch : ChannelId) (type : Byte) (fields : List Byte) :
    State :=
  { (s.setLink c.partner.link (partnerLink s r c)).setLink c.link (claimantLink s r c type fields) with
    records := s.records.map fun q => if q.id = r.id then q.claimed c ch s.tick (longTimer s) else q
    channels := s.channels.set ch (.connected r.line c r.id)
    orders := s.orders ++ [.makePoint ch r.line c] }

theorem notifyOrigin_none {s : State} {r : CallRecord} {n : Notice} (h : r.origin = none) :
    s.notifyOrigin r n = s := by
  rw [State.notifyOrigin, h]

/-- A transfer origin that is not offered the call is told (R90, R92, R112). -/
theorem notifyOrigin_some {s : State} {r : CallRecord} {n : Notice} {o : Centre} (h : r.origin = some o) :
    s.notifyOrigin r n = if r.offered.has o then s else s.informed o.link n := by
  rw [State.notifyOrigin, h]
  dsimp only
  cases r.offered.has o with
  | true => rfl
  | false =>
    rw [State.notify_eq]
    cases hl : s.isLost o.link <;> simp [State.informed, hl]

theorem eq_or_eq_partner (c d : Centre) : d = c ∨ d = c.partner := by cases c <;> cases d <;> simp [Centre.partner]

theorem partner_ne (c : Centre) : c.partner ≠ c := by cases c <;> decide

/-- CALL_TAKEN goes to the partner alone, and the claimant leaves the offered set (R112, R161). -/
theorem tellTaken_eq (s : State) (r : CallRecord) (c : Centre) :
    s.tellTaken r c =
      (s.setLink c.partner.link (partnerLink s r c)).setLink c.link
        ((s.link c.link).leave r.id none s.tick) := by
  have hleave : ∀ k, (s.setLink c.partner.link k).leave c r.id none =
      (s.setLink c.partner.link k).setLink c.link ((s.link c.link).leave r.id none s.tick) := fun k => by
    cases c <;> simp [State.leave, Centre.link, Centre.partner]
  have htold : (if r.origin = some c then (if r.offered.has c.partner then
        s.leave c.partner r.id (some (.callTaken r.id r.line c)) else s)
      else (if r.offered.has c.partner then
        s.leave c.partner r.id (some (.callTaken r.id r.line c)) else s).notifyOrigin r (.callTaken r.id r.line c)) =
      s.setLink c.partner.link (partnerLink s r c) := by
    unfold partnerLink
    cases ho : r.offered.has c.partner with
    | true =>
      rw [if_pos rfl, if_pos rfl, ← leave_eq]
      split
      · rfl
      · next hn =>
        cases hr : r.origin with
        | none => exact notifyOrigin_none hr
        | some o =>
          obtain rfl := (eq_or_eq_partner c o).resolve_left fun e => hn (e ▸ hr)
          rw [notifyOrigin_some hr, ho]
          rfl
    | false =>
      simp only [Bool.false_eq_true, if_false]
      cases hr : r.origin with
      | none => simp [notifyOrigin_none hr]
      | some o =>
        rcases eq_or_eq_partner c o with rfl | rfl
        · simp [(partner_ne o).symm]
        · simp [partner_ne, notifyOrigin_some hr, ho, informed_eq]
  exact (congrArg (State.leave · c r.id none) htold).trans (hleave _)

theorem takeClaim_eq (s : State) (r : CallRecord) (c : Centre) (ch : ChannelId) (type : Byte)
    (fields : List Byte) : s.takeClaim r c ch type fields = (claimTaken s r c ch type fields).retone r.line := by
  unfold State.takeClaim
  dsimp only
  rw [tellTaken_eq, State.reply_eq]
  cases c <;> rfl

section

variable (s : State) (r : CallRecord) (c : Centre) (ch : ChannelId) (type : Byte) (fields : List Byte)

theorem takeClaim_frame : s.takeClaim r c ch type fields =
    { s with
      records := (s.takeClaim r c ch type fields).records, channels := (s.takeClaim r c ch type fields).channels
      lines := (s.takeClaim r c ch type fields).lines, orders := (s.takeClaim r c ch type fields).orders
      linkA := (s.takeClaim r c ch type fields).linkA, linkB := (s.takeClaim r c ch type fields).linkB } := by
  rw [takeClaim_eq, retone_eq]
  cases c <;> rfl

theorem takeClaim_records : (s.takeClaim r c ch type fields).records =
    s.records.map fun q => if q.id = r.id then q.claimed c ch s.tick (longTimer s) else q := by
  rw [takeClaim_eq, retone_eq]
  cases c <;> rfl

theorem takeClaim_channels : (s.takeClaim r c ch type fields).channels =
    s.channels.set ch (.connected r.line c r.id) := by
  rw [takeClaim_eq, retone_eq]
  cases c <;> rfl

theorem takeClaim_line_ne {n : LineId} (h : n ≠ r.line) : (s.takeClaim r c ch type fields).line n = s.line n := by
  rw [takeClaim_eq, retone_eq]
  have hl : (claimTaken s r c ch type fields).lines = s.lines := by cases c <;> rfl
  have hne : r.line.val ≠ n.val := fun e => h (Fin.ext e.symm)
  simp only [State.line, hl, Fin.getElem_fin]
  rw [Vector.getElem_set_ne _ _ hne]

theorem takeClaim_link : (s.takeClaim r c ch type fields).link c.link = claimantLink s r c type fields := by
  rw [takeClaim_eq, retone_eq]
  cases c <;> rfl

theorem takeClaim_link_partner : (s.takeClaim r c ch type fields).link c.partner.link =
    if r.offered.has c.partner then
      (s.link c.partner.link).leave r.id
        (if s.isLost c.partner.link then none else some (.callTaken r.id r.line c)) s.tick
    else if r.origin = some c.partner then
      (s.informed c.partner.link (.callTaken r.id r.line c)).link c.partner.link
    else s.link c.partner.link := by
  rw [takeClaim_eq, retone_eq, informed_link]
  cases c <;> rfl

variable {s r}

/-- The line of a call that is claimed is IN_CALL without a tone (R41). -/
theorem takeClaim_lines (hr : s.recordOfLine r.line = some r) (hi : (s.line r.line).condition = .inCall) :
    (s.takeClaim r c ch type fields).lines = s.lines.set r.line { condition := .inCall, tone := .none } ∧
    (s.takeClaim r c ch type fields).orders =
      s.orders ++ [.makePoint ch r.line c] ++ toned s r.line .none := by
  have hl : (claimTaken s r c ch type fields).line r.line = s.line r.line := by cases c <;> rfl
  have hq : (claimTaken s r c ch type fields).recordOfLine r.line = some (r.claimed c ch s.tick (longTimer s)) := by
    have := recordOfLine_updRecord s r.id r.line (f := (·.claimed c ch s.tick (longTimer s))) fun _ => rfl
    rw [hr, Option.map_some, if_pos rfl] at this
    exact .trans (by cases c <;> rfl) this
  have ht : toneOf (claimTaken s r c ch type fields) r.line = .none := by
    rw [toneOf, hl, hi, hq]
    rfl
  have hu : { s.line r.line with tone := Tone.none } = { condition := .inCall, tone := Tone.none } := by rw [← hi]
  rw [takeClaim_eq, retone_eq, ht, hl, hu]
  constructor
  · cases c <;> rfl
  · unfold toned
    rw [hl]
    cases c <;> rfl

end

/-- Settles O17: the checks pass, and the claim is taken on the lowest free channel. -/
theorem claimConnectsCall : Obligations.ClaimConnectsCall := by
  intro s c id r ch h h0 a hr hl hi hc ho hd hcab hbear hf hlow
  have he : exec (.claim c.link [id]) s = .next (a.takeClaim r c ch Command.claim [byte ch.val]) := by
    refine (taking_centreCommand h id _).trans (congrArg _ ((withCall_some h0 hr).trans ?_))
    simp [State.claimRecord, hd, hc, ho, grantedChannel_eq hcab hbear hf hlow, a]
  obtain ⟨hlines, horders⟩ := takeClaim_lines c ch Command.claim [byte ch.val] hl hi
  exact ⟨_, he, takeClaim_frame .., takeClaim_records .., takeClaim_channels .., hlines, horders,
    takeClaim_link .., takeClaim_link_partner ..⟩

theorem find?_eq_getElem {α : Type} {xs : List α} {p : α → Bool} (k : Fin xs.length) (hk : p xs[k] = true)
    (hj : ∀ j : Fin xs.length, j.val < k.val → p xs[j] = false) : xs.find? p = some xs[k] := by
  refine List.find?_eq_some_iff_getElem.2 ⟨hk, k.val, k.isLt, rfl, fun j hlt => ?_⟩
  simpa using hj ⟨j, hlt.trans k.isLt⟩ hlt

/-- Settles O19: the first offered call in register order is claimed as CLAIM claims it. -/
theorem answerNextClaimsFirst : Obligations.AnswerNextClaimsFirst := by
  intro s c h a no
  have he : ∀ t, a.answerNext c = t → exec (.answerNext c.link []) s = .next t := fun t ht =>
    (taking_centreCommand h () _).trans (congrArg _ ht)
  refine ⟨fun hd => he _ ?_, fun hd hn => he _ ?_, fun k hd hk hj => ?_⟩
  · simp [State.answerNext, hd, State.refuse_eq]
  · have hf : a.firstOffered c = none := by
      refine List.find?_eq_none.2 fun r hr => ?_
      simp [hn r ((mem_registerOrder a r).1 hr)]
    simp [State.answerNext, hd, hf, State.refuse_eq]
  · have hf : a.firstOffered c = some a.registerOrder[k] := find?_eq_getElem k hk hj
    refine ⟨fun hl => he _ ?_, fun ch hcab hbear hfree hlow => ?_⟩
    · simp [State.answerNext, hd, hf, State.grantedChannel_none hl, State.refuse_eq]
    · refine ⟨_, he _ (by simp [State.answerNext, hd, hf, grantedChannel_eq hcab hbear hfree hlow]; rfl),
        takeClaim_frame .., takeClaim_records .., takeClaim_channels .., fun n hn => takeClaim_line_ne _ _ _ _ _ _ hn,
        fun hl hi => takeClaim_lines _ _ _ _ hl hi, takeClaim_link .., takeClaim_link_partner ..⟩

end Sys2Proof.Proofs

/-! PROOFS. The commands of the CALLS right that act on one line, one abandoned entry or one claimed call (R42 to
R45, R96, R114, R115). -/

namespace Sys2Proof.Proofs

open Sys2Proof Sys2Proof.Machine

/-! ### DISMISS (R96) -/

theorem filter_ne_self_iff (xs : List AbandonedEntry) (id : CallId) :
    (xs.filter fun e => e.id ≠ id) = xs ↔ xs.any (fun e => decide (e.id = id)) = false := by
  simp [List.filter_eq_self]

theorem recordById_isSome_iff (s : State) (id : CallId) :
    (s.recordById id).isSome = true ↔ ∃ r ∈ s.records, r.id = id := by
  simp [State.recordById]

/-- Settles O24, by the order of the checks. -/
theorem dismissRemovesEntry : Obligations.DismissRemovesEntry := by
  intro s c id h a kept
  have he : ∀ t, a.dismiss c id = t → exec (.dismiss c.link [id]) s = .next t := fun t ht =>
    (taking_centreCommand h id _).trans (congrArg _ ht)
  refine ⟨fun h0 => he _ ?_, fun h0 hk => he _ ?_, fun h0 hk hr => he _ ?_, fun h0 hk hr => he _ ?_⟩
  · simp [State.dismiss, h0, State.refuse_eq]
  · have ha : a.abandoned.any (fun e => decide (e.id = id.toFin)) = true := by
      simpa using mt (filter_ne_self_iff a.abandoned id.toFin).2 hk
    simp only [State.dismiss, h0, ha, if_true, if_false]
    exact State.reply_eq ..
  · have ha := (filter_ne_self_iff a.abandoned id.toFin).1 hk
    simp only [State.dismiss, h0, ha, (recordById_isSome_iff a _).2 hr, if_true, if_false, Bool.false_eq_true]
    exact State.refuse_eq ..
  · have ha := (filter_ne_self_iff a.abandoned id.toFin).1 hk
    have hn : ¬ (a.recordById id.toFin).isSome = true := by
      rw [recordById_isSome_iff]
      exact fun ⟨r, hm, e⟩ => hr r hm e
    simp only [State.dismiss, h0, ha, hn, if_false, Bool.false_eq_true]
    exact State.refuse_eq ..

/-! ### Rings (R42 to R45) -/

theorem toned_of_eq {s : State} {n : LineId} {t : Tone} (h : (s.line n).tone = t) : toned s n t = [] := if_pos h

/-- A line without a tone enters a condition that has none (R41). -/
theorem enter_toneless {s : State} {n : LineId} {k : Condition} (ht : (s.line n).tone = .none)
    (hk : toneFor k (s.recordOfLine n) = .none) :
    s.enter n k = { s with lines := s.lines.set n { condition := k, tone := .none } } := by
  rw [enter_eq, hk, toned_of_eq ht, List.append_nil]

/-- A ring ends on a line without a tone: the signal stops, the channel is free and the line IDLE (R44, R45). -/
theorem stopRing_eq {s : State} {n : LineId} {c : Centre} {ch : ChannelId} (ht : (s.line n).tone = .none)
    (hc : s.channel ch = .reserved n c) :
    s.stopRing n ch = { s with
      channels := s.channels.set ch .free, lines := s.lines.set n { condition := .idle, tone := .none }
      orders := s.orders ++ [.ring n false] } := by
  rw [State.stopRing, freeChannel_reserved (s.give (.ring n false)) hc]
  refine (enter_toneless ?_ rfl).trans rfl
  exact ht

theorem ring?_eq_some {k : Condition} {c : Centre} {ch : ChannelId} (h : k.ring? = some (c, ch)) :
    ∃ t, k = .ringing t c ch := by
  cases k <;> simp_all [Condition.ring?]

/-- A line that is rung, for an idle line without a tone (R42). -/
theorem ringLine_eq {a : State} {n : LineId} (c : Centre) (ch : ChannelId) (ht : (a.line n).tone = .none) :
    a.ringLine c n ch =
      State.answered { a with
        channels := a.channels.set ch (.reserved n c)
        lines := a.lines.set n { condition := .ringing (a.timer (a.timers.ring * 1000)) c ch, tone := .none }
        orders := a.orders ++ [Order.ring n true] } c.link Command.ringPost .ok [byte ch.val] := by
  have he : ∀ k, toneFor k (a.recordOfLine n) = .none → (a.setChannel ch (.reserved n c)).enter n k = _ :=
    fun k hk => enter_toneless (s := a.setChannel ch (.reserved n c)) ht hk
  rw [State.ringLine, State.reply_eq, he _ rfl]
  rfl

/-- Settles O23, by the condition of the line. -/
theorem ringsStartAndEnd : Obligations.RingsStartAndEnd := by
  intro s c b n ch a u
  refine ⟨fun h => ?_, fun h => ?_, fun h hn hu hp hcab hbear hf hlow => ?_, fun h hn hu ht hch => ?_,
    fun hu ht hch => ?_⟩
  · have he : ∀ t, a.withLine c.link Command.ringPost b (fun n => a.ringPost c n) = t →
        exec (.ringPost c.link [b]) s = .next t := fun t ht => (taking_centreCommand h b _).trans (congrArg _ ht)
    intro no
    refine ⟨fun hb => he _ (withLine_none hb), fun hn => ?_⟩
    have hl := fun t (ht : a.ringPost c n = t) => he t ((withLine_some hn).trans ht)
    refine ⟨fun hu => hl _ ?_, fun r hr hu => hl _ ?_, fun hu hi hc => hl _ ?_, fun hu hp => hl _ ?_,
      fun hu hp hfull => hl _ ?_⟩
    · simp [State.ringPost, show (a.line n).condition = _ from hu, State.refuse_eq]
    · have hr' : a.recordOfLine n = some r := hr
      simp [State.ringPost, show (a.line n).condition = _ from hu, State.refuseBusy, State.busyId, hr',
        State.reply_eq, callIdByte]
    · unfold State.ringPost
      dsimp only
      split
      · exact absurd ‹_› hu
      · exact absurd ‹_› hi
      · have : a.busyId n = 0 := by
          unfold State.busyId
          split
          · exact absurd ‹_› hc
          · rfl
        rw [State.refuseBusy, this]
        exact State.reply_eq ..
    · simp [State.ringPost, show (a.line n).condition = _ from hu, hp, State.refuse_eq]
    · simp [State.ringPost, show (a.line n).condition = _ from hu, hp, State.refuse_eq,
        State.grantedChannel_none hfull]
  · have he : ∀ t, a.withLine c.link Command.cancelRing b (fun n => a.cancelRing c n) = t →
        exec (.cancelRing c.link [b]) s = .next t := fun t ht => (taking_centreCommand h b _).trans (congrArg _ ht)
    intro no
    refine ⟨fun hb => he _ (withLine_none hb), fun hn => ?_⟩
    have hl := fun t (ht : a.cancelRing c n = t) => he t ((withLine_some hn).trans ht)
    refine ⟨fun hu => hl _ ?_, fun hu hr => hl _ ?_, fun x hx hxc => hl _ ?_⟩
    · simp [State.cancelRing, show (a.line n).condition = _ from hu, State.refuse_eq]
    · unfold State.cancelRing
      dsimp only
      split
      · exact absurd ‹_› hu
      · next heq =>
        rw [show u.condition = _ from heq] at hr
        cases hr
      · exact State.refuse_eq ..
    · obtain ⟨t, ht⟩ := ring?_eq_some (c := x.1) (ch := x.2) hx
      have hne : ¬ x.1 = c := by rw [hxc]; exact partner_ne c
      simp [State.cancelRing, show (a.line n).condition = _ from ht, hne, State.refuse_eq]
  · refine (taking_centreCommand h b _).trans (congrArg _ ((withLine_some hn).trans ?_))
    have hg : a.grantedChannel c = some ch := grantedChannel_eq hcab hbear hf hlow
    have hi : (a.line n).condition = .idle := by rw [hu]
    have : a.ringPost c n = a.ringLine c n ch := by
      simp [State.ringPost, hi, show a.power ≠ _ from hp, hg]
    exact this.trans (ringLine_eq c ch (by rw [hu]))
  · refine (taking_centreCommand h b _).trans (congrArg _ ((withLine_some hn).trans ?_))
    obtain ⟨t, ht'⟩ := ring?_eq_some hu
    have : a.cancelRing c n = (a.stopRing n ch).reply c.link Command.cancelRing .ok [] := by
      simp [State.cancelRing, ht']
    refine this.trans ?_
    rw [stopRing_eq ht hch, State.reply_eq]
  · obtain ⟨t, ht'⟩ := ring?_eq_some hu
    have ht'' : (State.line { s with orders := [] } n).condition = .ringing t c ch := ht'
    dsimp only [exec, execRingTimerExpiry, State.taking_eq]
    rw [ht'']
    dsimp only
    rw [stopRing_eq (s := { s with orders := [] }) ht hch, State.notify_eq]
    rfl

/-! ### HOLD and RETRIEVE (R114, R115) -/

theorem freeHeld_connected {s : State} {ch : ChannelId} {n : LineId} {c : Centre} {id : CallId}
    (h : s.channel ch = .connected n c id) :
    s.freeHeld (some ch) =
      { s with channels := s.channels.set ch .free, orders := s.orders ++ [.breakPoint ch n] } :=
  freeChannel_connected s h

/-- The tone of an IN_CALL line whose record has changed (R41). -/
theorem retone_inCall {s : State} {r q : CallRecord} {t : Tone} (hi : (s.line r.line).condition = .inCall)
    (hq : s.recordOfLine r.line = some q) (ht : toneFor .inCall (some q) = t) :
    s.retone r.line = { s with
      lines := s.lines.set r.line { condition := .inCall, tone := t }
      orders := s.orders ++ toned s r.line t } := by
  have ht' : toneOf s r.line = t := by rw [toneOf, hi, hq, ht]
  rw [retone_eq, ht', ← hi]

theorem holdCall_eq {a : State} {c : Centre} {r : CallRecord} {ch : ChannelId} (hl : a.recordOfLine r.line = some r)
    (hi : (a.line r.line).condition = .inCall) (hch : r.channel = some ch)
    (hc : a.channel ch = .connected r.line c r.id) :
    a.holdCall c r =
      { (a.answered c.link Command.hold .ok []) with
        records := a.records.map fun q => if q.id = r.id then { q with state := .held, channel := none } else q
        channels := a.channels.set ch .free
        lines := a.lines.set r.line { condition := .inCall, tone := .hold }
        orders := a.orders ++ [.breakPoint ch r.line] ++ toned a r.line .hold } := by
  have hq := recordOfLine_updRecord a r.id r.line (f := fun q => { q with state := .held, channel := none })
    fun _ => rfl
  rw [hl, Option.map_some, if_pos rfl] at hq
  unfold State.holdCall
  rw [hch, freeHeld_connected hc]
  dsimp only
  rw [State.reply_eq, retone_inCall (r := r) (q := { r with state := .held, channel := none }) (t := .hold)
    (by cases c <;> exact hi) (.trans (by cases c <;> rfl) hq) rfl]
  cases c <;> rfl

/-- A record made CONNECTED again on a channel (R115). -/
def retrieved (ch : ChannelId) (told : Bool) (q : CallRecord) : CallRecord :=
  { q with state := .connected, channel := some ch, longCall := q.longCall || told, longWaits := q.longWaits && !told }

theorem tellLongCall_eq {s : State} {r : CallRecord} {c : Centre} (hc : r.claimant = some c) :
    s.tellLongCall r =
      (s.updRecord r.id fun r => { r with longCall := true, longWaits := false }).informed c.link
        (.longCall r.id r.line ((s.tick - r.connect.getD r.arrival).toNat / 100)) := by
  rw [State.tellLongCall, hc]
  exact State.notify_eq ..

theorem retrieveCall_eq {a : State} {c : Centre} {r : CallRecord} (ch : ChannelId)
    (hl : a.recordOfLine r.line = some r) (hi : (a.line r.line).condition = .inCall) (hc : r.claimant = some c) :
    a.retrieveCall c r ch =
      let told : Bool := r.longWaits && !r.longCall
      let b := a.answered c.link Command.retrieve .ok [byte ch.val]
      let b := if told then b.informed c.link (.longCall r.id r.line
          ((a.tick - r.connect.getD r.arrival).toNat / 100)) else b
      { b with
        records := a.records.map fun q => if q.id = r.id then retrieved ch told q else q
        channels := a.channels.set ch (.connected r.line c r.id)
        lines := a.lines.set r.line { condition := .inCall, tone := .none }
        orders := a.orders ++ [.makePoint ch r.line c] ++ toned a r.line .none } := by
  have hq := recordOfLine_updRecord a r.id r.line
    (f := fun q => { q with state := .connected, channel := some ch }) fun _ => rfl
  rw [hl, Option.map_some, if_pos rfl] at hq
  unfold State.retrieveCall
  dsimp only
  rw [State.reply_eq, retone_inCall (r := r) (q := { r with state := .connected, channel := some ch }) (t := .none)
    (by cases c <;> exact hi) (.trans (by cases c <;> rfl) hq) rfl]
  cases hw : r.longWaits && !r.longCall with
  | false =>
    have hid : ∀ q, retrieved ch false q = { q with state := .connected, channel := some ch } := by
      simp [retrieved]
    simp only [Bool.false_eq_true, if_false, hid]
    cases c <;> rfl
  | true =>
    have hm : (a.records.map fun q => if q.id = r.id then retrieved ch true q else q) =
        ((a.updRecord r.id fun q => { q with state := .connected, channel := some ch }).updRecord r.id
          fun r => { r with longCall := true, longWaits := false }).records := by
      simp only [State.updRecord, List.map_map]
      refine List.map_congr_left fun q _ => ?_
      by_cases h : q.id = r.id <;> simp [retrieved, h]
    simp only [if_true, hm]
    rw [tellLongCall_eq hc, informed_eq, informed_eq]
    cases c <;> rfl

/-- Settles O20, by the lookup of the call and its state. -/
theorem holdAndRetrieve : Obligations.HoldAndRetrieve := by
  intro s c id r ch a known stands
  have hhold : s.admits c.link Command.hold .calls → ∀ t, a.withClaimed c Command.hold id (fun r =>
      if r.state = .connected then a.holdCall c r else a.refuse c.link Command.hold .wrongState) = t →
      exec (.hold c.link [id]) s = .next t := fun h t ht => (taking_centreCommand h id _).trans (congrArg _ ht)
  have hret : s.admits c.link Command.retrieve .calls → ∀ t, a.withClaimed c Command.retrieve id (fun r =>
      if r.state = .held then
        match a.grantedChannel c with
        | some ch => a.retrieveCall c r ch
        | none => a.refuse c.link Command.retrieve .noChannel
      else a.refuse c.link Command.retrieve .wrongState) = t →
      exec (.retrieve c.link [id]) s = .next t := fun h t ht => (taking_centreCommand h id _).trans (congrArg _ ht)
  refine ⟨fun h => ⟨fun code hc => hhold h _ (withClaimed_refused hc), fun ⟨h0, hr, hc⟩ hs => hhold h _ ?_⟩,
    fun h => ⟨fun code hc => hret h _ (withClaimed_refused hc), fun ⟨h0, hr, hc⟩ hs => hret h _ ?_,
      fun ⟨h0, hr, hc⟩ hs hfull => hret h _ ?_⟩,
    fun h ⟨⟨h0, hr, hc⟩, hl, hi⟩ hs hch hcon => ?_,
    fun h ⟨⟨h0, hr, hc⟩, hl, hi⟩ hs hcab hbear hf hlow => ?_⟩
  · rw [withClaimed_some h0 hr hc, if_neg hs, State.refuse_eq]
  · rw [withClaimed_some h0 hr hc, if_neg hs, State.refuse_eq]
  · rw [withClaimed_some h0 hr hc, if_pos hs, State.grantedChannel_none hfull]
    exact State.refuse_eq ..
  · refine ⟨_, hhold h _ ((withClaimed_some h0 hr hc).trans ((if_pos hs).trans (holdCall_eq hl hi hch hcon))), ?_⟩
    exact ⟨rfl, rfl, rfl, rfl, rfl⟩
  · intro told b b'
    have he : (match a.grantedChannel c with
        | some ch => a.retrieveCall c r ch
        | none => a.refuse c.link Command.retrieve .noChannel) = a.retrieveCall c r ch := by
      rw [grantedChannel_eq hcab hbear hf hlow]
    refine ⟨_, hret h _ ((withClaimed_some h0 hr hc).trans ((if_pos hs).trans
      (he.trans (retrieveCall_eq ch hl hi hc)))), ?_⟩
    exact ⟨rfl, rfl, rfl, rfl, rfl⟩

end Sys2Proof.Proofs

/-! PROOFS. The store's write completions, the classifier's arithmetic, resolution, and the start of the part (R22,
R26, R28, R29, R60 to R66, R75, R76, R170). -/

namespace Sys2Proof.Proofs

open Sys2Proof Sys2Proof.Machine

/-! ### Store writes (R75, R76) -/

/-- Settles O52, by the entry that is WRITING and what stands behind it. -/
theorem storeWriteEndsHandOnNext : Obligations.StoreWriteEndsHandOnNext := by
  intro s w hw hwriting stored next
  obtain ⟨rest, hs⟩ : ∃ rest, s.writes = w :: rest := by
    cases h : s.writes with
    | nil => simp [h] at hw
    | cons x rest => simp only [h, List.head?_cons, Option.some.injEq] at hw; exact ⟨rest, by rw [hw]⟩
  have ended (success : Bool) : { s with orders := [] }.endWrite success =
      if success then next (some w.content) else (next none).announced (.storeFault w.item) := by
    simp only [State.endWrite, hs, hwriting, if_true]
    cases rest <;> cases success <;> simp [State.startWriting, next, stored, hs, ← State.notifyAll_eq] <;> rfl
  exact ⟨fun _ => rfl, congrArg _ (ended true), congrArg _ (ended false), congrArg _ (ended false)⟩

/-! ### Resistance, tracking and debounce (R22, R26, R28, R29) -/

theorem resistance_eq (vc ic : Code) (h : ic.toNat ≠ 0) :
    resistance vc ic = min ((1000 * vc.toNat + ic.toNat / 2) / ic.toNat) 65535 := by
  simp [resistance, h, Config.noCurrent]

/-- The quotient with half the divisor added is the nearest whole, an exact half going up. -/
theorem nearest_div (v i : Nat) (h : i ≠ 0) :
    2 * ((1000 * v + i / 2) / i) * i ≤ 2000 * v + i ∧ 2000 * v + i < 2 * ((1000 * v + i / 2) / i + 1) * i := by
  have hd := Nat.div_add_mod (1000 * v + i / 2) i
  have hm := Nat.mod_lt (1000 * v + i / 2) (Nat.pos_of_ne_zero h)
  generalize (1000 * v + i / 2) / i = q at *
  have h1 : 2 * q * i = 2 * (i * q) := by ring
  have h2 : 2 * (q + 1) * i = 2 * (i * q) + 2 * i := by ring
  omega

theorem tracked_up {p : Profile} {track r : Nat} (hl : 2000 ≤ track) (h : track ≤ r) :
    tracked p track r = min (track + (r - track) / 8) p.idleHi := by
  have hd : ((r : Int) - track).tdiv 8 = ((r - track) / 8 : Nat) := by
    rw [← Int.ofNat_sub h]; rfl
  simp only [tracked, hd, Config.trackFloor]
  omega

theorem tracked_down {p : Profile} {track r : Nat} (hu : track ≤ p.idleHi) (h2 : 2000 ≤ p.idleHi) (h : r ≤ track) :
    tracked p track r = max (track - (track - r) / 8) 2000 := by
  have hd : ((r : Int) - track).tdiv 8 = -((track - r) / 8 : Nat) := by
    rw [← neg_sub, ← Int.ofNat_sub h, Int.neg_tdiv]; rfl
  simp only [tracked, hd, Config.trackFloor]
  omega

/-- Settles O43, by the quotient's remainder and by the direction the tracked resistance moves. -/
theorem resistanceMeasuredAndTracked : Obligations.ResistanceMeasuredAndTracked := by
  refine ⟨?_, ?_⟩
  · intro vc ic r v i
    by_cases h : i = 0
    · have hr : r = 65535 := by simp [r, resistance, i, h, Config.noCurrent]
      exact ⟨hr.le, fun _ => hr, fun hi => (hi h).elim, fun hi => (hi h).elim, fun hi => (hi h).elim⟩
    · have hr : r = min ((1000 * v + i / 2) / i) 65535 := resistance_eq vc ic h
      obtain ⟨hlow, hhigh⟩ := nearest_div v i h
      refine ⟨by omega, fun hi => (h hi).elim, fun _ hlt => ?_, fun _ => ⟨fun he => ?_, fun hle => ?_⟩, fun _ => hr⟩
      · rw [show r = (1000 * v + i / 2) / i by omega]
        exact ⟨hlow, hhigh⟩
      · exact (Nat.mul_le_mul_right i (by omega)).trans hlow
      · have := Nat.lt_of_mul_lt_mul_right (hle.trans_lt hhigh)
        omega
  · intro p track r h2 hl hu t
    rcases Nat.le_total track r with h | h
    · have ht : t = min (track + (r - track) / 8) p.idleHi := tracked_up hl h
      refine ⟨by omega, by omega, fun _ => ⟨by omega, ht⟩, fun h' => ?_, fun _ _ => by omega⟩
      have htd : t = max (track - (track - r) / 8) 2000 := tracked_down hu h2 h'
      exact ⟨by omega, htd⟩
    · have ht : t = max (track - (track - r) / 8) 2000 := tracked_down hu h2 h
      refine ⟨by omega, by omega, fun h' => ?_, fun _ => ⟨by omega, ht⟩, fun _ _ => by omega⟩
      have htu : t = min (track + (r - track) / 8) p.idleHi := tracked_up hl h'
      exact ⟨by omega, htu⟩

theorem debounceLine_none {s : State} {n : LineId} {raw : RawClass}
    (h : confirmed? (s.profileOf n) (debounce (s.classifier n) raw) = none) :
    s.debounceLine n raw = s.setClassifier n (debounce (s.classifier n) raw) := by
  simp only [State.debounceLine, h]

theorem debounceLine_some {s : State} {n : LineId} {raw : RawClass} {c : LoopClass}
    (h : confirmed? (s.profileOf n) (debounce (s.classifier n) raw) = some c) :
    s.debounceLine n raw = (s.setClassifier n
      { debounce (s.classifier n) raw with confirmed := c, candidate := none, count := 0 }).classChange n c := by
  simp only [State.debounceLine, h]

/-- Settles O45, by the raw class and how its candidate stands. -/
theorem debounceConfirmsClass : Obligations.DebounceConfirmsClass := by
  intro s n raw k p
  refine ⟨fun hraw hk => ?_, fun c hc => ⟨fun hck => ?_, ?_⟩⟩
  · have hd : debounce k raw = { k with marginal := min (k.marginal + 1) 65535 } := by
      simp [debounce, hraw, RawClass.class?]
    have hn : confirmed? p (debounce k raw) = none := by
      rw [hd]
      cases hkc : k.candidate with
      | none => simp [confirmed?]
      | some c => simpa [confirmed?, hkc] using hk c hkc
    exact (debounceLine_none hn).trans (by rw [hd])
  · have hd : debounce k raw = { k with candidate := none, count := 0 } := by
      simp [debounce, Option.mem_def.1 hc, hck]
    exact (debounceLine_none (by rw [hd]; rfl)).trans (by rw [hd])
  · intro hck count
    have hd : debounce k raw = { k with candidate := some c, count := count } := by
      simp only [debounce, Option.mem_def.1 hc, hck, if_false, count]
      split <;> simp_all
    have hcon : confirmed? p (debounce k raw) = if confirmCount p c ≤ count then some c else none := by
      rw [hd]; rfl
    refine ⟨fun hlt => ?_, fun hle => ?_⟩
    · rw [if_neg (by omega)] at hcon
      exact (debounceLine_none hcon).trans (by rw [hd])
    · rw [if_pos hle] at hcon
      exact (debounceLine_some hcon).trans (by rw [hd])

/-! ### Resolution (R60 to R66) -/

theorem acceptanceHit_eq_some {table : Vector Acceptance 4} {i : Ident} {k : Fin 4} (h : table[k].hit i = true)
    (hj : ∀ j : Fin 4, j.val < k.val → table[j].hit i = false) : acceptanceHit table i = some k := by
  refine (find?_eq_getElem (xs := List.finRange 4) (p := fun j => table[j].hit i) ⟨k, by simp⟩ (by simpa using h)
    fun j hlt => ?_).trans (by simp)
  simpa using hj ⟨j, by simpa using j.isLt⟩ hlt

theorem acceptanceHit_eq_none {table : Vector Acceptance 4} {i : Ident} (h : ∀ k : Fin 4, table[k].hit i = false) :
    acceptanceHit table i = none := by
  simpa [acceptanceHit] using h

theorem burst_identity_toNat (b : Burst) : b.identity.toNat = b.sect.toNat * 65536 + b.marker.toNat := by
  have hs := b.sect.isLt
  have hm := b.marker.isLt
  simp only [Burst.identity, BitVec.toNat_ofNat]
  omega

theorem identityCheck_cases (expected : Option Ident) (i : Ident) :
    identityCheck expected i = .matched ∨ identityCheck expected i = .mismatch ∨
      identityCheck expected i = .notExpected := by
  unfold identityCheck
  split <;> [split <;> simp; simp]

/-- Settles O49, by the burst's category code and the line's naming mode. -/
theorem resolutionPlacesCall : Obligations.ResolutionPlacesCall := by
  intro r table e b q lost i hits own
  have hlost : locationFor e .notReceived .notReceived = own := by
    cases hm : e.naming <;> simp [locationFor, hm, own, directoryLocation]
  have hown (x : CheckResult) (h1 : x ≠ .matched) (h2 : x ≠ .mismatch) (h3 : x ≠ .notExpected) :
      locationFor e (.received b) x = own := by
    cases hm : e.naming <;> cases x <;> simp_all [locationFor, own, directoryLocation]
  refine ⟨?_, burst_identity_toNat b, rfl, rfl, fun k hb hk hj => ?_, fun hb hk => ?_, fun hb => ?_⟩
  · simp only [lost, CallRecord.resolved, categoryAndCheck, hlost]
  · have hc : categoryAndCheck table e.expected (.received b) = (.service, .serviceAccepted k) := by
      have ha : acceptanceHit table b.identity = some k := acceptanceHit_eq_some hk hj
      simp [categoryAndCheck, hb, ha]
    simp [q, CallRecord.resolved, hc, hown]
  · have hc : categoryAndCheck table e.expected (.received b) = (.emergency, .serviceRefused) := by
      have ha : acceptanceHit table b.identity = none := acceptanceHit_eq_none hk
      simp [categoryAndCheck, hb, ha]
    simp [q, CallRecord.resolved, hc, hown]
  · have hc : categoryAndCheck table e.expected (.received b) =
        (if b.code = 1#2 then .breakdown else .emergency, identityCheck e.expected i) := by
      simp only [categoryAndCheck, hb, if_false]
      split <;> rfl
    have hcheck : identityCheck e.expected i = match e.expected with
        | some x => if x = i then .matched else .mismatch
        | none => .notExpected := by
      cases e.expected with
      | none => rfl
      | some x => exact if_congr eq_comm rfl rfl
    have hq : q.check = identityCheck e.expected i := by simp [q, CallRecord.resolved, hc]
    have hl : q.location = some (locationFor e (.received b) (identityCheck e.expected i)) := by
      simp [q, CallRecord.resolved, hc]
    refine ⟨by simp [q, CallRecord.resolved, hc], hq.trans hcheck, fun hm => ?_, fun hm => ?_, fun hm => ?_⟩
    · rw [hl]; simp [locationFor, hm, own, directoryLocation]
    · rw [hl, hq]
      rcases identityCheck_cases e.expected i with hx | hx | hx <;>
        simp only [hx, locationFor, hm, reduceCtorEq, if_true, if_false] <;> rfl
    · rw [hl, hq]
      rcases identityCheck_cases e.expected i with hx | hx | hx <;>
        simp only [hx, locationFor, hm, reduceCtorEq, if_true, if_false] <;> rfl

/-! ### The start of the part (R165, R170) -/

/-- Settles O35: each clause reads a field of the cold start's state. -/
theorem coldStartValues : Obligations.ColdStartValues := by
  intro s mainsOk batteryLow key
  have none_written (h : ∀ w ∈ s.writes.head?, w.writing.isSome = false) : s.storedAtPowerLoss = s.stored := by
    unfold State.storedAtPowerLoss
    split
    · next e _ hw => simp [h e (by simp [hw])]
    · rfl
  have one_written (w : WriteEntry) (hw : w ∈ s.writes.head?) (h : w.writing.isSome = true) :
      s.storedAtPowerLoss = s.stored.set w.item.index none := by
    unfold State.storedAtPowerLoss
    split
    · next e _ hs =>
      obtain rfl : e = w := by simpa [hs] using hw
      simp [h]
    · next hs => simp [hs] at hw
  refine ⟨_, rfl, rfl, rfl, rfl, rfl, rfl, rfl, ⟨_, rfl, rfl⟩, rfl, rfl, fun g => ?_, fun n => ⟨?_, ?_, ?_, ?_⟩,
    fun p => ?_, rfl, rfl, fun i => ?_, rfl, rfl, rfl, rfl, rfl, fun ch => ?_, fun g => ⟨?_, ?_⟩, rfl, fun i hi => ?_,
    fun w hw h => ?_, fun l => by cases l <;> rfl, fun c => by cases c <;> exact ⟨rfl, rfl, rfl, rfl⟩⟩
  · exact Vector.getElem_replicate ..
  · exact Vector.getElem_replicate ..
  · exact Vector.getElem_replicate ..
  · exact congrArg Entry.inService (Vector.getElem_replicate ..)
  · exact congrArg Classifier.confirmed (Vector.getElem_replicate ..)
  · exact Vector.getElem_replicate ..
  · exact congrArg Acceptance.enable (Vector.getElem_replicate ..)
  · exact Vector.getElem_replicate ..
  · exact Vector.getElem_replicate ..
  · exact congrArg Receiver.listening (Vector.getElem_replicate ..)
  · show s.storedAtPowerLoss[i] = s.stored[i]
    by_cases h : ∀ w ∈ s.writes.head?, w.writing.isSome = false
    · rw [none_written h]
    · push Not at h
      obtain ⟨w, hw, h⟩ := h
      have h' : w.writing.isSome = true := by simpa [Option.isSome_iff_ne_none] using h
      rw [one_written w hw h']
      exact Vector.getElem_set_ne _ _ fun e => hi w hw h' (Fin.ext e)
  · show s.storedAtPowerLoss[w.item.index] = none
    rw [one_written w hw h]
    exact Vector.getElem_set_self _

/-- Settles O55, block by block. -/
theorem resetMeetsInvariant : Obligations.ResetMeetsInvariant := by
  have queues : ∀ l : Link, (State.reset.link l).Ordered := by
    intro l; unfold LinkController.Ordered; cases l <;> decide +kernel
  have scores : State.reset.centreA.Sound ∧ State.reset.centreB.Sound ∧ State.reset.QuietWhenLost .a ∧
      State.reset.QuietWhenLost .b := by
    unfold CentreControl.Sound State.QuietWhenLost; decide +kernel
  have duty : InvDuty State.reset := by unfold InvDuty; decide +kernel
  have store : InvStore State.reset := by unfold InvStore; decide +kernel
  have supply : InvSupply State.reset := by unfold InvSupply InputState.Sound; decide +kernel
  have load : InvLoad State.reset := by unfold InvLoad State.loading State.unread; decide +kernel
  have sound : ∀ g, (State.reset.group g).Sound := by unfold GroupRecord.Sound; decide +kernel
  have live : ∀ g, (State.reset.group g).Live := by unfold GroupRecord.Live; decide +kernel
  have tests : ∀ g, State.reset.PortSound g ∧ State.reset.TestSound g := by
    unfold State.PortSound State.TestSound; decide +kernel
  have scan : InvScan State.reset := by
    refine ⟨fun g => ⟨sound g, live g, tests g⟩, ?_⟩
    unfold State.loading; decide +kernel
  have ids : InvIds State.reset := by unfold InvIds; decide +kernel
  have calls : InvCalls State.reset := by unfold InvCalls CallRecord.Sound; decide +kernel
  have free : ∀ ch, State.reset.channel ch = .free := by decide +kernel
  have channels : InvChannels State.reset := by
    refine ⟨fun ch => ?_, by decide +kernel⟩
    unfold State.ChannelSound
    rw [free ch]
    trivial
  have captures : InvCaptures State.reset := by unfold InvCaptures; decide +kernel
  have lines : InvLines State.reset := by unfold InvLines State.unread; decide +kernel
  have classifiers : InvClassifiers State.reset := by
    unfold InvClassifiers Classifier.Sound State.unread; decide +kernel
  exact ⟨⟨queues .a, queues .b, queues .s, scores⟩, duty, store, supply, load, scan, ids, calls, channels, captures,
    lines, classifiers⟩

end Sys2Proof.Proofs

/-! PROOFS. What a full queue, a merge, a leave and a link clear do to a link controller; RESTART's window and the
load report (R80, R156 to R161, R165). -/

namespace Sys2Proof.Proofs

open Sys2Proof Sys2Proof.Machine

/-! ### One queue (R157 to R161) -/

theorem offerWaits_eq_false {q : List QueueEntry} {id : CallId} (h : ¬ ∃ e ∈ q, e.msg.offerId = some id) :
    offerWaits q id = false := by
  rw [Bool.eq_false_iff, Ne, offerWaits_iff]; exact h

/-- An offer's id leaves the lost-offer set when the offer is submitted (R160). -/
def lostAfter (k : LinkController) (m : Message) : List CallId :=
  match m.offerId with
  | some id => k.lostOffers.erase id
  | none => k.lostOffers

theorem enqueue_of_not_waits {k : LinkController} {m : Message} (followUp : Bool)
    (h : ∀ id ∈ m.offerId, ¬ ∃ e ∈ k.queue, e.msg.offerId = some id) :
    k.enqueue m followUp = { k with lostOffers := lostAfter k m }.place m followUp := by
  unfold LinkController.enqueue lostAfter
  cases hm : m.offerId with
  | none => rfl
  | some id => simp [offerWaits_eq_false (h id hm)]

theorem enqueue_of_waits {k : LinkController} {m : Message} {id : CallId} (followUp : Bool)
    (hm : m.offerId = some id) (h : ∃ e ∈ k.queue, e.msg.offerId = some id) :
    k.enqueue m followUp =
      { k with
        queue := k.queue.map fun e => if e.msg.offerId = some id then { e with msg := m } else e
        lostOffers := k.lostOffers.erase id } := by
  simp [LinkController.enqueue, hm, (offerWaits_iff _ _).2 h, mergeOffer, Message.offers]

theorem place_of_room {k : LinkController} (m : Message) (followUp : Bool) (h : k.queue.length < 8) :
    k.place m followUp =
      { k with
        queue := insertEntry { msg := m, time := k.submissions, followUp := followUp } k.queue
        submissions := k.submissions + 1 } := by
  simp [LinkController.place, Config.queueCapacity, h]

theorem place_of_full {k : LinkController} (m : Message) (followUp : Bool) {last : QueueEntry}
    (h : 8 ≤ k.queue.length) (hl : k.queue.getLast? = some last) :
    k.place m followUp =
      if m.cls < last.msg.cls then
        { k with
          queue := insertEntry { msg := m, time := k.submissions, followUp := followUp } k.queue.dropLast
          submissions := k.submissions + 1, resync := true }.noteDiscard last.msg
      else { k with submissions := k.submissions + 1, resync := true }.noteDiscard m := by
  simp [LinkController.place, Config.queueCapacity, h.not_gt, hl]

theorem leave_of_standing {k : LinkController} {id : CallId} (follow : Option Notice) (now : Tick)
    (h : (∃ e ∈ k.queue, e.msg.offerId = some id) ∨ id ∈ k.lostOffers) :
    k.leave id follow now =
      { k with
        queue := k.queue.filter fun e => e.msg.offerId ≠ some id
        lostOffers := k.lostOffers.erase id } := by
  have hc : (offerWaits k.queue id || decide (id ∈ k.lostOffers)) = true := by
    simpa [offerWaits_iff] using h
  simp [LinkController.leave, hc, Message.offers]

theorem leave_of_gone {k : LinkController} {id : CallId} (follow : Option Notice) (now : Tick)
    (h : ¬ ∃ e ∈ k.queue, e.msg.offerId = some id) (hl : id ∉ k.lostOffers) :
    k.leave id follow now =
      match follow with
      | some n => (k.enqueue (.notice n) true).pump now
      | none => k := by
  simp [LinkController.leave, offerWaits_eq_false h, hl] <;> rfl

/-- A discard changes the lost-offer set alone, and that for an offer alone (R158, R161). -/
theorem noteDiscard_spec {k t : LinkController} {m : Message} (ht : t = k.noteDiscard m) :
    ∃ lost, t = { k with lostOffers := lost } ∧ (∀ id ∈ m.offerId, id ∈ t.lostOffers) ∧
      (m.offerId = none → t = k) := by
  subst ht
  unfold LinkController.noteDiscard
  cases hm : m.offerId with
  | none => exact ⟨_, rfl, by simp, fun _ => rfl⟩
  | some id =>
    by_cases h : id ∈ k.lostOffers
    · exact ⟨k.lostOffers, by simp [h], by simp [h], by simp⟩
    · exact ⟨_, if_neg h, by simp [h], by simp⟩

/-- An entry newer than every other is erased again by the time that it alone carries. -/
theorem insertEntry_erase {e : QueueEntry} {q : List QueueEntry} (h : e ∉ q) : (insertEntry e q).erase e = q := by
  induction q with
  | nil => simp [insertEntry]
  | cons x rest ih =>
    obtain ⟨hx, hr⟩ : e ≠ x ∧ e ∉ rest := by simpa using h
    unfold insertEntry
    split
    · rw [List.erase_cons_tail (by simpa using hx.symm), ih hr]
    · simp

theorem pump_of_busy {k : LinkController} (now : Tick) (h : k.transmit ≠ .idle) : k.pump now = k := by
  rcases pump_cases k now with ⟨h', -⟩ | ⟨_, _, hi, -⟩
  · exact h'
  · exact (h hi).elim

/-- Settles O54, by room in the queue, the offer that waits and the last entry's class. -/
theorem fullQueueDiscardsLast : Obligations.FullQueueDiscardsLast := by
  intro k m followUp now waits entry lost inOrder t
  have hlost : lost = lostAfter k m := rfl
  refine ⟨?_, fun hroom hno => ?_, fun id hm hw hl => ?_, fun id => ⟨fun hw hl follow => ?_, fun hw hl follow => ?_,
    fun hw hl => ⟨leave_of_gone none now hw hl, fun n => leave_of_gone (some n) now hw hl⟩⟩, fun last ho hfull hlast hno => ?_⟩
  · cases m with
    | reply => rfl
    | notice n => cases n <;> rfl
  · have ht : t = { k with
        queue := insertEntry entry k.queue, submissions := k.submissions + 1, lostOffers := lost } :=
      (enqueue_of_not_waits followUp hno).trans (place_of_room m followUp hroom)
    refine ⟨by rw [ht, insertEntry_eq], fun ho => ?_, fun hi hq => ?_, fun hi => pump_of_busy now (by rw [ht]; exact hi)⟩
    · obtain ⟨-, hp, hn, -⟩ := ho
      rw [ht]
      exact insertEntry_ordered entry k.queue hp hn
    · rw [ht, hq]
      simp [insertEntry, LinkController.pump, hi, entry]
  · exact (enqueue_of_waits followUp hm hw).trans (by rw [List.erase_of_not_mem hl])
  · exact (leave_of_standing follow now (.inl hw)).trans (by rw [List.erase_of_not_mem hl])
  · refine (leave_of_standing follow now (.inr hl)).trans ?_
    rw [List.filter_eq_self.2 fun e he => by simpa using fun h => hw ⟨e, he, h⟩]
  · obtain ⟨-, hp, hn, -⟩ := ho
    have ht := (enqueue_of_not_waits followUp hno).trans
      (place_of_full (k := { k with lostOffers := lostAfter k m }) m followUp hfull.ge hlast)
    change t = _ at ht
    have hlen : k.queue.dropLast.length = 7 := by simp [hfull]
    have hnew : entry ∉ k.queue.dropLast := fun h => (hn _ (List.mem_of_mem_dropLast h)).ne rfl
    split at ht
    · next hlt =>
      obtain ⟨xs, hx, hin, hout⟩ := noteDiscard_spec ht
      have hq : t.queue = insertEntry entry k.queue.dropLast := congrArg LinkController.queue hx
      refine ⟨by rw [hx], by rw [hq, insertEntry_length, hlen], by rw [hx], by rw [hx], by rw [hx], by rw [hx],
        fun _ => ⟨⟨entry, ?_, rfl, ?_⟩, ?_, hin, fun h => congrArg LinkController.lostOffers (hout h)⟩, fun h => by omega⟩
      · rw [hq, mem_insertEntry]; exact .inl rfl
      · rw [hq, insertEntry_erase hnew]
      · rw [hq]
        exact insertEntry_ordered entry _ (hp.sublist (List.dropLast_sublist _)) fun x hx =>
          hn x (List.mem_of_mem_dropLast hx)
    · next hge =>
      obtain ⟨xs, hx, hin, hout⟩ := noteDiscard_spec ht
      refine ⟨by rw [hx], (congrArg (·.queue.length) hx).trans hfull, by rw [hx], by rw [hx], by rw [hx], by rw [hx], fun h => by omega,
        fun _ => ⟨by rw [hx], hin, fun h => ?_⟩⟩
      exact (congrArg LinkController.lostOffers (hout h)).trans (by simp [lostAfter, h])

/-! ### BREAK_END (R156, R161) -/

theorem cut_of_idle {k : LinkController} (f : CallId → Bool) (h : k.transmit = .idle) : k.cut f = k := by
  simp [LinkController.cut, h]

theorem cut_of_message {k : LinkController} (f : CallId → Bool) {m : Message} (h : k.transmit.message? = some m)
    (hm : m.offerId = none) : k.cut f = { k with transmit := .idle } := by
  cases ht : k.transmit with
  | idle => simp [ht, Transmit.message?] at h
  | sending x fr =>
    obtain rfl : x = m := by simpa [ht, Transmit.message?] using h
    simp [LinkController.cut, ht, hm]

/-- A CALL_OFFER that is cut takes its waiting follow-up with it, or enters the lost-offer set while its record is
still offered (R161). -/
theorem cut_of_offer {k : LinkController} (f : CallId → Bool) {m : Message} {id : CallId}
    (h : k.transmit.message? = some m) (hm : m.offerId = some id) :
    k.cut f =
      if k.queue.any fun e => e.followUp && e.msg.followUpId = some id then
        { k with
          transmit := .idle
          queue := k.queue.filter fun e => !(e.followUp && e.msg.followUpId = some id) }
      else if f id then { k with transmit := .idle }.noteDiscard m
      else { k with transmit := .idle } := by
  cases ht : k.transmit with
  | idle => simp [ht, Transmit.message?] at h
  | sending x fr =>
    obtain rfl : x = m := by simpa [ht, Transmit.message?] using h
    simp only [LinkController.cut, ht, hm]

/-- A link clear on a link where the transmission, if any, is not the reply that opens the window (R156). -/
theorem linkClear_eq {s : State} {l : Link}
    (h : s.window = some l → (s.link l).transmit.message? ≠ some restartReply) :
    s.linkClear l = s.setLink l
      ({ (s.link l).cut (s.offeredOn l) with
          cleared := true
          resync := (s.link l).resync || (s.link l).transmit.message?.any fun (m : Message) => !m.isReply }.pump s.tick) := by
  unfold State.linkClear
  simp only
  cases hm : (s.link l).transmit.message? with
  | none => cases l <;> simp
  | some m =>
    have hw : ¬ (s.window = some l ∧ m = restartReply) := fun ⟨hw, e⟩ => h hw (hm.trans (congrArg some e))
    cases l <;> simp_all [State.afterTransmission]

theorem exec_breakEnd (s : State) (l : Link) :
    exec (.breakEnd l) s = .next
      (match (s.link l).receive with
        | .brk true => { s with orders := [] }.setReceive l .hunt
        | .brk false => ({ s with orders := [] }.setReceive l .hunt).linkClear l
        | _ => { s with orders := [] }) := by
  cases l <;> rfl

/-- Settles O11, by what the transmitter holds when the break ends. -/
theorem breakEndClearsLink : Obligations.BreakEndClearsLink := by
  refine ⟨fun k m followUp id follow now hw hl =>
    ⟨fun hm => enqueue_of_waits followUp hm hw, leave_of_standing follow now (.inl hw)⟩,
    fun s l => ⟨fun hr => ?_, fun hr hwin => ?_⟩⟩
  · simp only [exec_breakEnd, hr]
    cases l <;> rfl
  · have he : exec (.breakEnd l) s =
        .next (({ s with orders := [] }.setReceive l .hunt).linkClear l) := by
      simp only [exec_breakEnd, hr]
    intro k cut
    have hlink : State.link ({ s with orders := [] }.setReceive l .hunt) l = { k with receive := .hunt } := by
      cases l <;> rfl
    have hcut : exec (.breakEnd l) s = .next ({ s with orders := [] }.setLink l
        ({ { k with receive := .hunt }.cut (s.offeredOn l) with
            cleared := true
            resync := k.resync || k.transmit.message?.any fun (m : Message) => !m.isReply }.pump s.tick)) := by
      have hw : State.window ({ s with orders := [] }.setReceive l .hunt) = some l →
          (State.link ({ s with orders := [] }.setReceive l .hunt) l).transmit.message? ≠ some restartReply := by
        rw [hlink]; intro hw; exact hwin (by cases l <;> exact hw)
      rw [he, linkClear_eq hw, hlink]
      cases l <;> rfl
    refine ⟨fun hi => hcut.trans ?_, fun m hm => ⟨fun hr => hcut.trans ?_, fun hr hn => hcut.trans ?_, fun id hid =>
      ⟨fun hf => hcut.trans ?_, fun hf ho hl => hcut.trans ?_⟩⟩⟩
    · rw [cut_of_idle (k := { k with receive := .hunt }) _ hi]
      simp [cut, hi, Transmit.message?]
    · have hn : m.offerId = none := by cases m <;> simp_all [Message.isReply, Message.offerId]
      rw [cut_of_message (k := { k with receive := .hunt }) _ hm hn]
      simp [cut, Option.mem_def.1 hm, hr]
    · rw [cut_of_message (k := { k with receive := .hunt }) _ hm hn]
      simp [cut, Option.mem_def.1 hm, hr]
    all_goals
      have hr : m.isReply = false := by cases m <;> simp_all [Message.isReply, Message.offerId]
      rw [cut_of_offer (k := { k with receive := .hunt }) _ hm hid]
    · rw [if_pos hf]
      simp [cut, Option.mem_def.1 hm, hr]
    · rw [if_neg (by simpa using hf), if_pos ho]
      simp [cut, Option.mem_def.1 hm, hr, LinkController.noteDiscard, Option.mem_def.1 hid, hl]

/-! ### RESTART (R158, R165) -/

/-- The reply of RESTART stays with its link when the transmitter takes an entry. -/
theorem holdsRestartReply_pump {k : LinkController} (now : Tick) (h : ∃ e ∈ k.queue, e.msg = restartReply) :
    (k.pump now).holdsRestartReply = true := by
  unfold LinkController.holdsRestartReply
  obtain ⟨e, he, hm⟩ := h
  rcases pump_cases k now with ⟨hp, -⟩ | ⟨x, rest, -, hq, hp⟩
  · rw [hp, Bool.or_eq_true]
    exact .inl (List.any_eq_true.2 ⟨e, he, decide_eq_true hm⟩)
  · rw [hp]
    rw [hq, List.mem_cons] at he
    rcases he with rfl | he
    · simp [hm]
    · rw [Bool.or_eq_true]
      exact .inl (List.any_eq_true.2 ⟨e, he, decide_eq_true hm⟩)

/-- A reply enters a queue with room, and one that ends in a notice (R158). -/
theorem mem_enqueue_restartReply {k : LinkController}
    (h : k.queue.length < 8 ∨ ∃ x ∈ k.queue.getLast?, 0 < x.msg.cls) :
    ∃ e ∈ (k.enqueue restartReply false).queue, e.msg = restartReply := by
  have he : k.enqueue restartReply false = k.place restartReply false := rfl
  rw [he]
  by_cases hroom : k.queue.length < 8
  · rw [place_of_room _ _ hroom]
    exact ⟨_, (mem_insertEntry ..).2 (.inl rfl), rfl⟩
  · obtain ⟨x, hx, hc⟩ := h.resolve_left hroom
    obtain ⟨_, hd, -, -⟩ := noteDiscard_spec ((place_of_full restartReply false (by omega) hx).trans (if_pos hc))
    rw [hd]
    exact ⟨_, (mem_insertEntry ..).2 (.inl rfl), rfl⟩

/-- Settles O33: the reply is still the link's, so the window stays open. -/
theorem restartOpensWindow : Obligations.RestartOpensWindow := by
  intro s l h a hq
  refine (taking_command h () _).trans (congrArg _ ?_)
  have hl : (State.link { (a.answered l Command.restart .ok []) with window := some l } l).holdsRestartReply = true := by
    have := holdsRestartReply_pump a.tick (mem_enqueue_restartReply hq)
    cases l <;> exact this
  simp only [State.takeRestart, State.reply_eq]
  exact if_pos hl

/-! ### The load report (R80) -/

theorem reportPending_of_fixed {s t : State} (h : fixed t = fixed s) :
    t.report = s.report ∧ t.reportPending = s.reportPending := by
  have hr := congrArg State.report h
  have ha := congrArg State.reportPendingA h
  have hb := congrArg State.reportPendingB h
  have hs := congrArg State.reportPendingS h
  refine ⟨hr, funext fun l => ?_⟩
  cases l
  · exact ha
  · exact hb
  · exact hs

/-- What a command's frame and the command leave of the load report: what the frame leaves. -/
theorem Commanded.fixed {s t : State} {l : Link} (h : Commanded s l t) (hb : (s.link l).receive.inBreak = false) :
    Proofs.fixed t = Proofs.fixed (s.arrive l) := by
  cases h with
  | unheard h => rw [h] at hb; cases hb
  | refused type code => exact ((Calls.refl _).refuse l type code).fixed
  | keepalive => exact ((Calls.refl _).reply l _ _ _).fixed.trans (fixed_setLink ..)
  | taken hw hl hn h => exact h.fixed

/-- A valid frame sets its link's health and flags, and the calls follow (R152, R153, R155). -/
theorem validFrame_calls (s : State) (c : Centre) :
    ∃ k j, Calls ((s.setCentre c k).setLink c.link j) (s.validFrame c) := by
  have one (k : CentreControl) : Calls ((s.setCentre c k).setLink c.link (s.link c.link)) (s.setCentre c k) := by
    have he : (s.setCentre c k).setLink c.link (s.link c.link) = s.setCentre c k := by cases c <;> rfl
    rw [he]
    exact .refl _
  unfold State.validFrame State.recover State.takeScore State.startSilence
  simp only [State.setCentre_setCentre]
  split
  · split
    · exact ⟨_, _, (Calls.refl _).healthChanged c .lost⟩
    · exact ⟨_, _, one _⟩
  · exact ⟨_, _, (one _).healthChanged _ _⟩

theorem fixed_setCentre (s : State) (c : Centre) (k : CentreControl) : fixed (s.setCentre c k) = fixed s := by
  cases c <;> rfl

theorem fixed_validFrame (s : State) (c : Centre) : fixed (s.validFrame c) = fixed s := by
  obtain ⟨k, j, h⟩ := validFrame_calls s c
  rw [h.fixed, fixed_setLink, fixed_setCentre]

/-- What a frame leaves alone, its effect on health and the load report included. -/
def steady (s : State) : State :=
  { calm s with reportPendingA := false, reportPendingB := false, reportPendingS := false }

theorem Calls.steady {s t : State} (h : Calls s t) : Proofs.steady t = Proofs.steady s :=
  congrArg (fun u : State => { u with reportPendingA := false, reportPendingB := false, reportPendingS := false }) h.calm

theorem steady_setLink (s : State) (l : Link) (k : LinkController) : steady (s.setLink l k) = steady s := by
  cases l <;> rfl

theorem steady_validFrame (s : State) (c : Centre) : steady (s.validFrame c) = steady s := by
  obtain ⟨k, j, h⟩ := validFrame_calls s c
  rw [h.steady, steady_setLink]
  cases c <;> rfl

theorem steady_deliverReport (s : State) (l : Link) : steady (s.deliverReport l) = steady s := by
  have h : steady (s.setReportPending l false) = steady s := by cases l <;> rfl
  unfold State.deliverReport
  split
  · dsimp only
    split
    · exact ((Calls.refl _).notify l _).steady.trans h
    · exact h
  · rfl

theorem steady_arrive (s : State) (l : Link) : steady (s.arrive l) = steady s := by
  refine (steady_deliverReport ..).trans (Eq.trans ?_ (steady_setLink s l { s.link l with receive := .hunt }))
  unfold State.onCentre
  split
  · exact steady_validFrame ..
  · rfl

theorem steady_heard (s : State) (l : Link) : steady (s.heard l) = steady s := steady_arrive { s with orders := [] } l

theorem heard_window (s : State) (l : Link) : (s.heard l).window = s.window := by
  have := congrArg State.window (steady_heard s l)
  exact this

theorem heard_load (s : State) (l : Link) : (s.heard l).load = s.load := by
  have := congrArg State.load (steady_heard s l)
  exact this

theorem deliverReport_eq {s : State} {r : LoadReport} (hl : s.load = none) (hr : s.report = some r) (l : Link) :
    s.deliverReport l =
      if s.reportPending l then (s.setReportPending l false).informed l (.loadDefaulted r) else s := by
  have hr' : (s.setReportPending l false).report = some r := by cases l <;> exact hr
  simp only [State.deliverReport, hl, hr', State.notify_eq, Option.isNone_none, Bool.true_and]

/-- Settles O7: a frame's effect on health leaves the report and its marks, and so does what follows it. -/
theorem firstFrameDeliversLoadReport : Obligations.FirstFrameDeliversLoadReport := by
  intro s l r c k type body hload hreport hb b a
  have hbf : fixed b = fixed { s with orders := [] } := by
    cases l
    · exact (fixed_validFrame _ .a).trans (fixed_setLink ..)
    · exact (fixed_validFrame _ .b).trans (fixed_setLink ..)
    · exact fixed_setLink ..
  have hfresh : State.reportPending { s with orders := [] } = s.reportPending := by funext x; cases x <;> rfl
  obtain ⟨hbr, hbp⟩ := reportPending_of_fixed hbf
  rw [hfresh] at hbp
  have hbl : b.load = none := by
    have := congrArg State.load hbf
    exact this.trans hload
  have ha : a = if s.reportPending l then (b.setReportPending l false).informed l (.loadDefaulted r) else b :=
    (deliverReport_eq hbl (hbr.trans hreport) l).trans (by rw [hbp])
  have hap : a.report = some r ∧ ∀ x, a.reportPending x = (s.reportPending x && !decide (x = l)) := by
    rw [ha]
    split
    · next hp =>
      have hn : fixed ((b.setReportPending l false).informed l (.loadDefaulted r)) =
          fixed (b.setReportPending l false) := by
        rw [← State.notify_eq]; exact ((Calls.refl _).notify l _).fixed
      obtain ⟨h1, h2⟩ := reportPending_of_fixed hn
      refine ⟨h1.trans (by cases l <;> exact hbr.trans hreport), fun x => ?_⟩
      rw [h2, State.setReportPending_reportPending, hbp]
      split <;> simp_all
    · next hp =>
      refine ⟨hbr.trans hreport, fun x => ?_⟩
      rw [hbp]
      by_cases hx : x = l <;> simp_all
  refine ⟨ha, fun hk hkl => ?_, fun hn => ?_⟩
  · obtain ⟨f, hf, h⟩ := exec_commanded hk s
    obtain ⟨h1, h2⟩ := reportPending_of_fixed ((h { s with orders := [] }).fixed (by rw [hkl, receive_fresh]; exact hb))
    rw [hkl] at h1 h2
    exact ⟨_, hf, h1.trans hap.1, fun x => by rw [h2]; exact hap.2 x⟩
  · have hne : type ≠ Command.keepalive := by rintro rfl; exact absurd hn (by decide)
    have he : exec (.unknownCommand l type body) s = s.taking fun b =>
        b.command l type .none (some body) fun s _ => s.refuse l type .unknownCommand := by
      simp [exec, execUnknownCommand, hn]
    have hup : a.heldUp l type =
        if s.window.isSome then some .restarting else if a.isLost l then some .linkRecovering else none := by
      simp only [State.heldUp, a, heard_window, heard_load, hload, hne, if_false, Option.isSome_none, Bool.false_eq_true]
    rw [he]
    by_cases hw : s.window.isSome = true
    · rw [if_pos hw]
      exact taking_heldUp hb (hup.trans (if_pos hw))
    · rw [if_neg hw] at hup ⊢
      by_cases hlost : a.isLost l = true
      · rw [if_pos hlost]
        exact taking_heldUp hb (hup.trans (if_pos hlost))
      · rw [if_neg hlost]
        have had : s.admits l type .none := ⟨hb, hup.trans (if_neg hlost), rfl⟩
        exact (taking_command had body _).trans (congrArg _ (State.refuse_eq ..))

end Sys2Proof.Proofs

/-! PROOFS. The commands that set an item and queue its write (R18, R19, R47, R48, R63, R70 to R72, R74, R75, R129). -/

namespace Sys2Proof.Proofs

open Sys2Proof Sys2Proof.Machine

/-! ### SET_SERVICE (R47, R48) -/

theorem notifyCondition_eq (s : State) (n : LineId) :
    s.notifyCondition n = s.reported n (.lineCondition n (s.line n).condition (s.classifier n).leaky) :=
  s.notifyLine_eq n _

/-- Queueing a write leaves lines and classifiers alone. -/
theorem queueWrite_line (s : State) (i : Item) (n : LineId) :
    (s.queueWrite i).line n = s.line n ∧ (s.queueWrite i).classifier n = s.classifier n := by
  obtain ⟨ws, o, h⟩ := s.queueWrite_spec i
  rw [h]
  exact ⟨rfl, rfl⟩

/-- Queueing a write and setting lines and classifiers do not meet. -/
theorem queueWrite_with (s : State) (i : Item) (ls : Vector LineUnit 64) (ks : Vector Classifier 64) :
    { s with lines := ls, classifiers := ks }.queueWrite i =
      { s.queueWrite i with lines := ls, classifiers := ks } := by
  cases i <;> simp only [State.queueWrite, State.startWriting, State.content] <;> split <;> try rfl
  all_goals split <;> try rfl
  all_goals cases s.writes <;> rfl

theorem takeOut_eq (a : State) (l : Link) (n : LineId) :
    a.takeOut l n =
      ({ a.answered l Command.setService .ok [] with
          lines := a.lines.set n { condition := .outOfService, tone := .none }
          entries := a.entries.set n { a.entry n with inService := false }
          orders := a.orders ++ toned a n .none }.queueWrite (.line n)).reported n
        (.lineCondition n .outOfService (a.classifier n).leaky) := by
  have he : ((a.answered l Command.setService .ok []).enter n .outOfService).setEntry n
      { ((a.answered l Command.setService .ok []).enter n .outOfService).entry n with inService := false } =
      { a.answered l Command.setService .ok [] with
          lines := a.lines.set n { condition := .outOfService, tone := .none }
          entries := a.entries.set n { a.entry n with inService := false }
          orders := a.orders ++ toned a n .none } := by
    rw [enter_eq]
    cases l <;> rfl
  rw [State.takeOut, State.storeService, State.reply_eq]
  dsimp only
  rw [he, notifyCondition_eq, (queueWrite_line ..).1, (queueWrite_line ..).2]
  congr 2
  · exact congrArg LineUnit.condition (Vector.getElem_set_self n.isLt)
  · cases l <;> rfl

theorem takeIn_eq (a : State) (l : Link) (n : LineId) (ht : (a.line n).tone = .none) :
    a.takeIn l n =
      ({ a.answered l Command.setService .ok [] with
          lines := a.lines.set n { condition := .idle, tone := .none }
          entries := a.entries.set n { a.entry n with inService := true }
          classifiers := a.classifiers.set n (.reset (a.profile (a.entry n).profile).term) }.queueWrite (.line n)).reported n
        (.lineCondition n .idle false) := by
  obtain ⟨ok, hok⟩ : ∃ ok, ok = a.answered l Command.setService .ok [] := ⟨_, rfl⟩
  have hl : ok.lines = a.lines := by rw [hok]; cases l <;> rfl
  have hk : ok.classifiers = a.classifiers := by rw [hok]; cases l <;> rfl
  have hen : ok.entries = a.entries := by rw [hok]; cases l <;> rfl
  have hp : ok.profiles = a.profiles := by rw [hok]; cases l <;> rfl
  let q : State := ok.storeService n true
  have hs : ok.setEntry n { ok.entry n with inService := true } =
      { ok with entries := a.entries.set n { a.entry n with inService := true } } := by
    simp only [State.setEntry, State.entry, hen]
  have hql : q.lines = a.lines := by
    obtain ⟨ws, o, hq⟩ := (ok.setEntry n { ok.entry n with inService := true }).queueWrite_spec (.line n)
    exact (congrArg State.lines hq).trans hl
  have hqk : q.classifiers = a.classifiers := by
    obtain ⟨ws, o, hq⟩ := (ok.setEntry n { ok.entry n with inService := true }).queueWrite_spec (.line n)
    exact (congrArg State.classifiers hq).trans hk
  have hqp : q.profileOf n = a.profile (a.entry n).profile := by
    obtain ⟨ws, o, hq⟩ := (ok.setEntry n { ok.entry n with inService := true }).queueWrite_spec (.line n)
    refine (congrArg (State.profileOf · n) hq).trans ?_
    simp [State.profileOf, State.profile, State.setEntry, State.entry, hp, hen]
  have he : (q.resetClassifier n).enter n .idle =
      { ok with
          lines := a.lines.set n { condition := .idle, tone := .none }
          entries := a.entries.set n { a.entry n with inService := true }
          classifiers := a.classifiers.set n (.reset (a.profile (a.entry n).profile).term) }.queueWrite (.line n) := by
    have ht' : ((q.resetClassifier n).line n).tone = .none := (congrArg (fun v => LineUnit.tone v[n]) hql).trans ht
    rw [enter_toneless ht' rfl, State.resetClassifier, hqp]
    change { q with lines := q.lines.set n _, classifiers := q.classifiers.set n _ } = _
    rw [hql, hqk]
    refine (queueWrite_with _ _ _ _).symm.trans ?_
    rw [hs]
  rw [State.takeIn, State.reply_eq, ← hok]
  dsimp only
  rw [show ok.storeService n true = q from rfl, he, notifyCondition_eq, (queueWrite_line ..).1, (queueWrite_line ..).2]
  congr 2
  · exact congrArg LineUnit.condition (Vector.getElem_set_self n.isLt)
  · exact congrArg Classifier.leaky (Vector.getElem_set_self n.isLt)

theorem refuseBusy_eq (s : State) (l : Link) (type : Byte) (id : CallId) :
    s.refuseBusy l type id = s.answered l type .lineBusy [BitVec.ofFin id] := s.reply_eq l type _ _

theorem busyId_of_record {s : State} {n : LineId} {r : CallRecord} (hi : (s.line n).condition = .inCall)
    (hr : s.recordOfLine n = some r) : s.busyId n = r.id := by
  simp [State.busyId, hi, hr]

theorem busyId_of_ne {s : State} {n : LineId} (hi : (s.line n).condition ≠ .inCall) : s.busyId n = 0 := by
  unfold State.busyId
  split
  · contradiction
  · rfl

/-- A line that a service state or a test holds is refused; an idle, faulty or parked one is taken out (R47). -/
theorem serviceOut_of_code {a : State} {l : Link} {n : LineId}
    (h : (a.line n).condition.code = 2 ∨ (a.line n).condition.code = 6 ∨ (a.line n).condition.code = 7) :
    a.serviceOut l n =
      if a.canWrite (.line n) then a.takeOut l n else a.answered l Command.setService .storeBusy [] := by
  unfold State.serviceOut
  cases hu : (a.line n).condition <;> simp_all [Condition.code, State.refuse_eq]

theorem serviceOut_busy {a : State} {l : Link} {n : LineId}
    (h : (a.line n).condition = .inCall ∨ (a.line n).condition = .queued ∨
      (a.line n).condition.ring?.isSome = true ∨ (a.line n).condition.isTesting = true) :
    a.serviceOut l n = a.answered l Command.setService .lineBusy [BitVec.ofFin (a.busyId n)] := by
  unfold State.serviceOut
  cases hu : (a.line n).condition <;> simp_all [Condition.ring?, Condition.isTesting, refuseBusy_eq]

theorem serviceIn_unchanged {a : State} {l : Link} {n : LineId} (h1 : (a.line n).condition ≠ .notFitted)
    (h2 : (a.line n).condition ≠ .outOfService) (h3 : (a.line n).condition.isTesting = false) :
    a.serviceIn l n = a.answered l Command.setService .ok [] := by
  unfold State.serviceIn
  cases hu : (a.line n).condition <;> simp_all [Condition.isTesting, State.reply_eq]

/-- Settles O27, by the line's condition. -/
theorem setServiceChangesLine : Obligations.SetServiceChangesLine := by
  intro s l b x n h a u reply ok out back
  have he (y : Byte) : exec (.setServiceOut l [b, y]) s = .next (a.withLine l Command.setService b fun n =>
      if y = 0 then a.serviceIn l n else if y = 1 then a.serviceOut l n else a.refuse l Command.setService .badValue) :=
    taking_command h (b, y) _
  refine ⟨fun hbad => ?_, fun hn => ?_⟩
  · have : exec (.setServiceOut l [b, x]) s = .next (reply .badValue []) := by
      refine (he x).trans (congrArg _ ?_)
      rcases hbad with hb | hx
      · exact withLine_none hb
      · unfold State.withLine
        split
        · have h0 : x ≠ 0 := by rintro rfl; simp at hx
          have h1 : x ≠ 1 := by rintro rfl; simp at hx
          dsimp only
          rw [if_neg h0, if_neg h1, State.refuse_eq]
        · exact State.refuse_eq ..
    exact ⟨this, this⟩
  · have hout {t : State} (ht : a.serviceOut l n = t) : out = .next t :=
      (he 1#8).trans (congrArg _ ((withLine_some hn).trans ht))
    have hback {t : State} (ht : a.serviceIn l n = t) : back = .next t :=
      (he 0#8).trans (congrArg _ ((withLine_some hn).trans ht))
    refine ⟨fun hu => ⟨hout ?_, hback ?_⟩, fun hu => hout ?_, fun h1 h2 h3 => hback (serviceIn_unchanged h1 h2 h3),
      fun hu => ⟨hout ?_, hback ?_⟩, fun hu => hout ?_, fun r hr hu => hout ?_,
      fun hu => ⟨fun hw => hout ?_, fun hw => hout ?_⟩, fun hu ht => ⟨fun hw => hback ?_, fun hw => hback ?_⟩⟩
    · simp [State.serviceOut, show (a.line n).condition = _ from hu, State.refuse_eq, reply]
    · simp [State.serviceIn, show (a.line n).condition = _ from hu, State.refuse_eq, reply]
    · simp [State.serviceOut, show (a.line n).condition = _ from hu, State.reply_eq, reply, ok]
    · rw [serviceOut_busy (.inr (.inr (.inr hu))), busyId_of_ne fun e => by simp [u, e, Condition.isTesting] at hu]
      rfl
    · obtain ⟨p, hp⟩ : ∃ p, (a.line n).condition = .testing p := by
        cases hc : (a.line n).condition <;> simp_all [u, Condition.isTesting]
      simp [State.serviceIn, hp, refuseBusy_eq, reply]
    · rw [serviceOut_busy (.inr (hu.imp id .inl)), busyId_of_ne fun e => by simp [u, e, Condition.ring?] at hu]
      rfl
    · rw [serviceOut_busy (.inl hu), busyId_of_record hu hr]
    · rw [serviceOut_of_code hu, if_neg (by simp [hw])]
    · rw [serviceOut_of_code hu, if_pos hw, takeOut_eq]
      rfl
    · simp [State.serviceIn, show (a.line n).condition = _ from hu, hw, State.refuse_eq, reply]
    · have : a.serviceIn l n = a.takeIn l n := by simp [State.serviceIn, show (a.line n).condition = _ from hu, hw]
      rw [this, takeIn_eq a l n ht]
      rfl

end Sys2Proof.Proofs

/-! PROOFS. WRITE_DIRECTORY, WRITE_PROFILE and the settings that are queued for the store (R18, R19, R63, R70 to R72,
R74, R75, R129). -/

namespace Sys2Proof.Proofs

open Sys2Proof Sys2Proof.Machine

/-- A command whose body reads as fields acts on the state that its frame leaves. -/
theorem taking_read {α : Type} {s : State} {l : Link} {type : Byte} {right : Right} {read : Option α} {x : α}
    (h : s.admits l type right) (hx : read = some x) (act : State → α → State) :
    (s.taking fun b => b.command l type right read act) = .next (act (s.heard l) x) := by
  rw [hx]
  exact taking_command h x act

/-! ### WRITE_DIRECTORY (R70, R71) -/

theorem cwayOfNat_eq_some {k : Nat} {c : Carriageway} (h : cwayOfNat k = some c) : c.code = k ∧ k ≤ 2 := by
  unfold cwayOfNat at h
  split at h <;> cases h <;> exact ⟨rfl, by decide⟩

theorem namingOfNat_eq_some {k : Nat} {c : NamingMode} (h : namingOfNat k = some c) : c.code = k ∧ k ≤ 2 := by
  unfold namingOfNat at h
  split at h <;> cases h <;> exact ⟨rfl, by decide⟩

theorem centreOfNat_eq_some {k : Nat} {c : Centre} (h : centreOfNat k = some c) : centreCode c = k ∧ k ≤ 1 := by
  unfold centreOfNat at h
  split at h <;> cases h <;> exact ⟨rfl, by decide⟩

theorem enableOfNat_eq_some {k : Nat} {b : Bool} (h : enableOfNat k = some b) : k = b.toNat := by
  unfold enableOfNat at h
  split at h <;> cases h <;> rfl

theorem profileOfNat_eq_some {k : Nat} {p : ProfileId} (h : profileOfNat k = some p) : p.val = k := by
  unfold profileOfNat at h
  split at h <;> cases h
  rfl

theorem toNat_byte {k : Nat} (h : k < 256) : (byte k).toNat = k := by
  simp only [byte, BitVec.toNat_ofNat]
  omega

/-- What a checked entry holds is what its fields say, each in its range (R70, R78). -/
theorem checkEntry_fields {raw : RawEntry} {e : Entry} (h : checkEntry raw = some e) :
    (e.sect.toNat = raw.sect ∧ e.marker.toNat = raw.marker ∧ e.cway.code = raw.cway ∧
      centreCode e.home = raw.home ∧ e.profile.val = raw.profile ∧ e.naming.code = raw.naming ∧
      e.label.map BitVec.toNat = raw.label ∧
      e.expected.map BitVec.toNat = if raw.identPresent = 1 then some raw.ident else none) ∧
    raw.identPresent ≤ 1 ∧ raw.cway ≤ 2 ∧ raw.home ≤ 1 ∧ raw.profile ≤ 3 ∧ raw.naming ≤ 2 ∧
    raw.label.length ≤ 16 ∧ ∀ ch ∈ raw.label, 32 ≤ ch ∧ ch ≤ 126 := by
  simp only [checkEntry, Option.bind_eq_bind, Option.bind_eq_some_iff] at h
  obtain ⟨service, -, present, hp, cway, hc, home, hh, profile, hpr, naming, hn, defaulted, -, h⟩ := h
  split at h
  case isFalse => cases h
  case isTrue hr =>
    obtain ⟨hi, hs, hm, hl, hch⟩ := hr
    cases h
    obtain ⟨hc, hc2⟩ := cwayOfNat_eq_some hc
    obtain ⟨hh, hh1⟩ := centreOfNat_eq_some hh
    obtain ⟨hn, hn2⟩ := namingOfNat_eq_some hn
    have hpv := profileOfNat_eq_some hpr
    have hpe := enableOfNat_eq_some hp
    refine ⟨⟨toNat_byte hs, ?_, hc, hh, hpv, hn, ?_, ?_⟩, ?_, hc2, hh1, by omega, hn2, hl, hch⟩
    · simp only [BitVec.toNat_ofNat]; omega
    · rw [List.map_map]
      refine List.map_congr_left (g := id) (fun c hc => ?_) |>.trans (List.map_id _)
      exact toNat_byte (by have := hch c hc; omega)
    · cases present <;> simp [hpe]; omega
    · cases present <;> simp [hpe]

/-- WRITE_DIRECTORY taken, as one update (R19, R71). -/
theorem takeEntry_eq (a : State) (l : Link) (n : LineId) (e : Entry) :
    a.takeEntry l n e =
      ({ a with
          entries := a.entries.set n { e with inService := (a.entry n).inService, defaulted := false }
          classifiers := if e.profile = (a.entry n).profile then a.classifiers
            else a.classifiers.set n
              { a.classifier n with
                rTrack := (a.profile e.profile).term, leaky := false, candidate := none
                count := 0 } }.queueWrite (.line n)).answered l Command.writeDirectory .ok [] := by
  have hp : (a.setEntry n { e with inService := (a.entry n).inService, defaulted := false }).profileOf n =
      a.profile e.profile := by
    simp [State.profileOf, State.setEntry, State.entry, State.profile]
  rw [State.takeEntry, State.reply_eq]
  dsimp only
  congr 2
  split
  · rfl
  · rw [State.retrack, hp]
    rfl

/-- Settles O29, by the checks in their order. -/
theorem writeDirectorySetsEntry : Obligations.WriteDirectorySetsEntry := by
  intro s l body k raw h hread a out reply
  have he : out = .next (match lineOfNat k, checkEntry raw with
      | some n, some e => a.writeEntry l n e
      | _, _ => a.refuse l Command.writeDirectory .badValue) := by
    exact taking_read h hread _
  refine ⟨fun hbad => he.trans (congrArg _ ?_), fun n hn e hraw => ?_⟩
  · cases hn : lineOfNat k with
    | none => exact State.refuse_eq ..
    | some n =>
      cases hraw : checkEntry raw with
      | none => exact State.refuse_eq ..
      | some e =>
        obtain ⟨-, h1, h2, h3, h4, h5, h6, h7⟩ := checkEntry_fields hraw
        exfalso
        rcases hbad with hk | hb | hb | hb | hb | hb | hb | ⟨ch, hch, hb⟩
        · rw [lineOfNat_eq_none hk] at hn; cases hn
        · omega
        · omega
        · omega
        · omega
        · omega
        · omega
        · have := h7 ch hch; omega
  · have he' : out = .next (a.writeEntry l n e) := by rw [he, Option.mem_def.1 hn, Option.mem_def.1 hraw]
    refine ⟨fun hu => he'.trans (congrArg _ ?_), fun h1 h2 => he'.trans (congrArg _ ?_),
      fun hu hw => he'.trans (congrArg _ ?_), fun hu hw => ?_⟩
    · simp [State.writeEntry, hu, State.refuse_eq, reply]
    · unfold State.writeEntry
      dsimp only
      split
      · contradiction
      · contradiction
      · exact State.refuse_eq ..
    · simp [State.writeEntry, hu, hw, State.refuse_eq, reply]
    · obtain ⟨⟨g1, g2, g3, g4, g5, g6, g7, g8⟩, -⟩ := checkEntry_fields hraw
      refine ⟨g1, g2, g3, g4, g5, g6, g7, g8, he'.trans (congrArg _ ?_)⟩
      have ht : a.writeEntry l n e = a.takeEntry l n e := by simp [State.writeEntry, hu, hw]
      exact ht.trans (takeEntry_eq ..)

/-! ### WRITE_PROFILE (R18, R19, R72) -/

/-- The classifier of a line whose profile is written or changed (R19). -/
def retracked (s : State) (n : LineId) : Classifier :=
  { s.classifier n with rTrack := (s.profileOf n).term, leaky := false, candidate := none, count := 0 }

/-- The lines of a list are retracked, each once or more; nothing else changes (R19). -/
theorem each_retrack (ns : List LineId) (s : State) :
    s.each ns State.retrack = { s with classifiers := (s.each ns State.retrack).classifiers } ∧
    ∀ n, (s.each ns State.retrack).classifier n = if n ∈ ns then retracked s n else s.classifier n := by
  induction ns generalizing s with
  | nil => exact ⟨rfl, fun n => by simp [State.each]⟩
  | cons m rest ih =>
    obtain ⟨h1, h2⟩ := ih (s.retrack m)
    have he : s.each (m :: rest) State.retrack = (s.retrack m).each rest State.retrack := rfl
    rw [he]
    refine ⟨h1.trans rfl, fun n => ?_⟩
    rw [h2]
    by_cases hm : n = m
    · subst hm
      simp [retracked, State.retrack]
    · simp [retracked, State.retrack, hm]

/-- The classifiers after a profile is written: the lines that name it are retracked (R19). -/
def retrackedBy (a : State) (p : ProfileId) (q : Profile) : Vector Classifier 64 :=
  ((a.setProfile p q).each ((List.finRange 64).filter fun n => (a.entry n).profile = p) State.retrack).classifiers

theorem retrackedBy_get (a : State) (p : ProfileId) (q : Profile) (n : LineId) :
    (retrackedBy a p q)[n] =
      if (a.entry n).profile = p then
        { a.classifier n with rTrack := q.term, leaky := false, candidate := none, count := 0 }
      else a.classifier n := by
  refine ((each_retrack _ (a.setProfile p q)).2 n).trans ?_
  by_cases h : (a.entry n).profile = p <;> simp [h, retracked, State.profileOf]

theorem answered_classifiers (s : State) (l : Link) (type : Byte) (code : ReplyCode) (fs : List Byte) :
    (s.answered l type code fs).classifiers = s.classifiers := by cases l <;> rfl

theorem queueWrite_classifiers (s : State) (i : Item) : (s.queueWrite i).classifiers = s.classifiers := by
  obtain ⟨ws, o, h⟩ := s.queueWrite_spec i
  rw [h]

theorem queueWrite_profile (s : State) (i : Item) (p : ProfileId) : (s.queueWrite i).profile p = s.profile p := by
  obtain ⟨ws, o, h⟩ := s.queueWrite_spec i
  rw [h]
  rfl

theorem takeProfile_eq (a : State) (l : Link) (p : ProfileId) (q : Profile) :
    a.takeProfile l p q =
      ({ a with profiles := a.profiles.set p q, classifiers := retrackedBy a p q }.queueWrite (.profile p)).answered l
        Command.writeProfile .ok (4#8 :: profileBytes p q) := by
  rw [State.takeProfile, State.reply_eq, (each_retrack _ (a.setProfile p q)).1]
  change State.answered (State.queueWrite { a with profiles := a.profiles.set p q, classifiers := retrackedBy a p q }
    (.profile p)) _ _ _ _ = _
  rw [State.profileFields, State.queueWrite_pending, queueWrite_profile]
  exact congrArg (fun x => State.answered _ l Command.writeProfile .ok (4#8 :: profileBytes p x))
    (Vector.getElem_set_self p.isLt)

theorem profileInUse_iff (a : State) (p : ProfileId) :
    a.profileInUse p = true ↔ ∃ n, (a.entry n).inService = true ∧ (a.entry n).profile = p := by
  simp [State.profileInUse]

/-- Settles O30, by the checks in their order and the lines that name the profile. -/
theorem writeProfileSetsProfile : Obligations.WriteProfileSetsProfile := by
  intro s l body k q h hread a out reply related
  have he : out = .next (match profileOfNat k with
      | some p => a.writeProfile l p q
      | none => a.refuse l Command.writeProfile .badValue) := taking_read h hread _
  have hrel : profileRelated q = related := by
    rw [Bool.eq_iff_iff, profileRelated_iff, decide_eq_true_iff]
  refine ⟨fun hbad => he.trans (congrArg _ ?_), fun p hp hr => ?_⟩
  · cases hp : profileOfNat k with
    | none => exact State.refuse_eq ..
    | some p =>
      have hf : related = false := hbad.resolve_left fun hk => by rw [profileOfNat_eq_none hk] at hp; cases hp
      simp [State.writeProfile, hrel, hf, State.refuse_eq, reply]
  · have he' : out = .next (a.writeProfile l p q) := by rw [he, Option.mem_def.1 hp]
    rw [hr] at hrel
    refine ⟨fun hu => he'.trans (congrArg _ ?_), fun hu => ?_⟩
    · simp [State.writeProfile, hrel, (profileInUse_iff a p).2 hu, State.refuse_eq, reply]
    · have hfree : a.profileInUse p = false := by
        rw [Bool.eq_false_iff, Ne, profileInUse_iff]
        rintro ⟨n, hn, hnp⟩
        rw [hu n hnp] at hn
        cases hn
      refine ⟨fun hw => he'.trans (congrArg _ ?_), fun hw => ?_⟩
      · simp [State.writeProfile, hrel, hfree, hw, State.refuse_eq, reply]
      · intro held new
        have ht : a.writeProfile l p q = a.takeProfile l p new := by
          simp only [State.writeProfile, hrel, hfree, hw]; rfl
        refine ⟨_, he'.trans (congrArg _ (ht.trans (takeProfile_eq ..))), ?_, fun n => ?_⟩
        · rw [answered_classifiers, queueWrite_classifiers]
        · rw [State.classifier, answered_classifiers, queueWrite_classifiers]
          refine (retrackedBy_get a p new n).trans ?_
          rfl

/-! ### The settings (R63, R74, R75, R129) -/

theorem queueWrite_of_waits {s : State} {i : Item} (h : s.writes.any (·.waitsFor i) = true) :
    s.queueWrite i = { s with
      writes := s.writes.map fun e => if e.waitsFor i then { e with content := s.content i } else e } := if_pos h

theorem queueWrite_of_empty {s : State} {i : Item} (h : s.writes = []) :
    s.queueWrite i = { s with
      writes := [{ item := i, content := s.content i, writing := some { length := 1000, due := s.clock + 1000 } }]
      orders := s.orders ++ [.storeWrite i (s.content i)] } := by
  simp [State.queueWrite, h, State.startWriting, State.give, State.timer, Config.writeTime]

theorem queueWrite_of_behind {s : State} {i : Item} (h : s.writes ≠ []) (hw : s.writes.any (·.waitsFor i) = false) :
    s.queueWrite i = { s with writes := s.writes ++ [{ item := i, content := s.content i, writing := none }] } := by
  simp only [State.queueWrite, hw, List.isEmpty_iff, h]
  rfl

theorem canWrite_of_full {s : State} {i : Item} (h : 4 ≤ s.writes.length ∧ s.writes.any (·.waitsFor i) = false) :
    s.canWrite i = false := by
  simp only [State.canWrite, h.2, Config.writeCapacity, Bool.false_or]
  exact decide_eq_false (by omega)

theorem canWrite_of_room {s : State} {i : Item} (h : s.writes.length < 4) : s.canWrite i = true := by
  simp [State.canWrite, Config.writeCapacity, h]

theorem nat3_lt (a b c : Byte) : nat3 a b c < 16777216 := by
  have ha := a.isLt
  have hb := b.isLt
  have hc := c.isLt
  unfold nat3
  omega

/-- A body of SET_ACCEPTANCE always holds identities in range, so its enable decides (R63). -/
theorem checkAcceptance_eq {p1 p2 p3 m1 m2 m3 e : Byte} :
    checkAcceptance { pattern := nat3 p1 p2 p3, mask := nat3 m1 m2 m3, enable := e.toNat } =
      if e.toNat ≤ 1 then
        some { pattern := BitVec.ofNat 24 (nat3 p1 p2 p3), mask := BitVec.ofNat 24 (nat3 m1 m2 m3), enable := e == 1#8 }
      else none := by
  have hr := And.intro (nat3_lt p1 p2 p3) (nat3_lt m1 m2 m3)
  unfold checkAcceptance
  by_cases h0 : e = 0#8
  · subst h0; simp [enableOfNat, hr.1, hr.2]
  · by_cases h1 : e = 1#8
    · subst h1; simp [enableOfNat, hr.1, hr.2]
    · have : ¬ e.toNat ≤ 1 := fun h => by
        rcases Nat.le_one_iff_eq_zero_or_eq_one.1 h with h | h
        · exact h0 (BitVec.eq_of_toNat_eq h)
        · exact h1 (BitVec.eq_of_toNat_eq h)
      have he : enableOfNat e.toNat = none := by unfold enableOfNat; split <;> [omega; omega; rfl]
      simp [he, this]

theorem acceptanceBytes_eq (table : Vector Acceptance 4) :
    acceptanceBytes table = table.toList.flatMap fun (x : Acceptance) =>
      bytes3 x.pattern.toNat ++ bytes3 x.mask.toNat ++ [if x.enable then 1#8 else 0#8] := by
  unfold acceptanceBytes
  simp only [flagBit_zero]

/-- Settles O32, by the place each write finds in the queue. -/
theorem settingsQueueStoreWrites : Obligations.SettingsQueueStoreWrites := by
  intro s l b0 b1 b2 b3 b4 b5 b6 b7 b8 b9 a held timers bearer full
  refine ⟨fun h => ?_, fun h => ?_, fun h => ?_⟩
  · have he := taking_command h (b0, { pattern := nat3 b1 b2 b3, mask := nat3 b4 b5 b6, enable := b7.toNat }) fun s x =>
      match profileOfNat x.1.toNat, checkAcceptance x.2 with
      | some i, some e => s.writeAcceptance l i e
      | _, _ => s.refuse l Command.setAcceptance .badValue
    change exec (.setAcceptance l [b0, b1, b2, b3, b4, b5, b6, b7]) s = _ at he
    refine ⟨fun hbad => he.trans (congrArg _ ?_), fun i hi h7 hw => ?_, fun h0 h7 hf => he.trans (congrArg _ ?_)⟩
    · dsimp only
      rw [checkAcceptance_eq]
      rcases hbad with hb | hb
      · rw [profileOfNat_eq_none hb]
        exact State.refuse_eq ..
      · rw [if_neg (by omega)]
        cases profileOfNat b0.toNat <;> exact State.refuse_eq ..
    · intro entry table
      refine he.trans (congrArg _ ?_)
      dsimp only
      rw [checkAcceptance_eq, if_pos h7, Option.mem_def.1 hi]
      dsimp only
      rw [State.writeAcceptance, if_pos hw, State.reply_eq, acceptanceBytes_eq]
    · have hi : profileOfNat b0.toNat = some ⟨b0.toNat, by omega⟩ := dif_pos (by omega)
      dsimp only
      rw [checkAcceptance_eq, if_pos h7, hi]
      dsimp only
      rw [State.writeAcceptance, canWrite_of_full hf, if_neg Bool.false_ne_true, State.refuse_eq]
  · have he := taking_command h ⟨nat2 b0 b1, nat2 b2 b3, nat2 b4 b5, nat2 b6 b7, nat2 b8 b9⟩ fun s t =>
      s.writeTimers l (clampTimers t)
    change exec (.setCallTimers l [b0, b1, b2, b3, b4, b5, b6, b7, b8, b9]) s = .next (a.writeTimers l timers) at he
    refine ⟨fun hw => he.trans (congrArg _ ?_), fun hf => he.trans (congrArg _ ?_)⟩
    · rw [State.writeTimers, if_pos hw, State.reply_eq]
      rfl
    · rw [State.writeTimers, if_neg (by simp [canWrite_of_full hf]), State.refuse_eq]
  · have he := taking_command h (b0, b1) fun s x => s.writeBearer l (clampBearer x.1 x.2)
    change exec (.setBearer l [b0, b1]) s = .next (a.writeBearer l bearer) at he
    have ok (hw : a.canWrite .bearer = true) : exec (.setBearer l [b0, b1]) s =
        .next (({ a with bearer := bearer }.queueWrite .bearer).answered l Command.setBearer .ok
          [byte bearer.limitA, byte bearer.limitB]) := by
      rw [he, State.writeBearer, if_pos hw, State.reply_eq]
    intro waits
    refine ⟨fun hf => he.trans (congrArg _ ?_), fun hq => ?_, fun hq hl hw => ?_, fun hw => ?_⟩
    · rw [State.writeBearer, if_neg (by simp [canWrite_of_full hf]), State.refuse_eq]
    · rw [ok (canWrite_of_room (by simp [hq]))]
      exact congrArg (fun x : State => Host.Outcome.next (x.answered l _ _ _)) (queueWrite_of_empty hq)
    · rw [ok (canWrite_of_room hl)]
      exact congrArg (fun x : State => Host.Outcome.next (x.answered l _ _ _)) (queueWrite_of_behind hq hw)
    · rw [ok (by simp [State.canWrite, hw])]
      exact congrArg (fun x : State => Host.Outcome.next (x.answered l _ _ _)) (queueWrite_of_waits hw)

end Sys2Proof.Proofs

/-! PROOFS. SET_GROUP (R2, R6, R50, R73): the lines whose fit changes, the scanner's part, and what is queued. -/

namespace Sys2Proof.Proofs

open Sys2Proof Sys2Proof.Machine

/-! ### What the scanner's orders leave of a group -/

/-- A group record without its pass, its orders and its check position. -/
def settled (r : GroupRecord) : GroupRecord :=
  { r with
    checkPos := 0, pass := .stopped, passTimer := none, probeDelay := none, port := none, scanWaiting := none
    restartPass := false }

/-- `t` comes from `s` by an operation on the orders, passes and probes of one group. -/
def Ordering (g : GroupId) (s t : State) : Prop :=
  ∃ r x o, settled r = settled (s.group g) ∧
    t = { s with groups := s.groups.set g r, tests := s.tests.set g x, orders := s.orders ++ o }

section

variable {g : GroupId} {s t u : State}

theorem Ordering.refl (g : GroupId) (s : State) : Ordering g s s :=
  ⟨s.group g, s.test g, [], rfl, by simp [State.group, State.test]⟩

theorem Ordering.trans (h : Ordering g s t) (k : Ordering g t u) : Ordering g s u := by
  obtain ⟨r, x, o, hr, rfl⟩ := h
  obtain ⟨r', x', o', hr', rfl⟩ := k
  have hg : State.group { s with groups := s.groups.set g r, tests := s.tests.set g x, orders := s.orders ++ o } g = r :=
    Vector.getElem_set_self g.isLt
  rw [hg] at hr'
  exact ⟨r', x', o ++ o', hr'.trans hr, by simp⟩

theorem Ordering.setGroup (r : GroupRecord) (h : settled r = settled (s.group g)) : Ordering g s (s.setGroup g r) :=
  ⟨r, s.test g, [], h, by simp [State.setGroup, State.test]⟩

theorem Ordering.give (g : GroupId) (s : State) (o : Order) : Ordering g s (s.give o) :=
  ⟨s.group g, s.test g, [o], rfl, by simp [State.give, State.group, State.test]⟩

theorem Ordering.setTest (s : State) (x : Option TestRecord) : Ordering g s (s.setTest g x) :=
  ⟨s.group g, x, [], rfl, by simp [State.setTest, State.group]⟩

theorem Ordering.arbitrate (g : GroupId) (s : State) : Ordering g s (s.arbitrate g) := by
  unfold State.arbitrate
  dsimp only
  split
  · exact .refl g s
  · split
    · exact ((Ordering.setGroup _ (g := g) (by rfl)).trans (.setTest _ _)).trans (.give ..)
    · split
      · exact (Ordering.setGroup _ (by rfl)).trans (.give ..)
      · exact .refl g s

theorem Ordering.startPass (g : GroupId) (s : State) : Ordering g s (s.startPass g) := by
  unfold State.startPass
  dsimp only
  split
  · exact .refl g s
  · exact .setGroup _ rfl

theorem Ordering.endPass (g : GroupId) (s : State) : Ordering g s (s.endPass g) := by
  unfold State.endPass
  split
  · exact .startPass g s
  · exact .setGroup _ rfl

theorem Ordering.beginPathCheck (g : GroupId) (s : State) : Ordering g s (s.beginPathCheck g) := by
  unfold State.beginPathCheck
  dsimp only
  split
  · exact .setGroup _ rfl
  · exact .endPass g s

theorem Ordering.scanFrom (g : GroupId) (s : State) (k : Nat) : Ordering g s (s.scanFrom g k) := by
  unfold State.scanFrom
  split
  · exact .setGroup _ rfl
  · exact .beginPathCheck g s

theorem Ordering.scanLostFit (g : GroupId) (s : State) (p : ScanPurpose) : Ordering g s (s.scanLostFit g p) := by
  unfold State.scanLostFit
  split
  · exact .scanFrom g s _
  · exact .endPass g s
  · exact .endPass g s
  all_goals exact .refl g s

theorem Ordering.startProbeDelay (g : GroupId) (s : State) : Ordering g s (s.startProbeDelay g) := .setGroup _ rfl

theorem Ordering.settled_group (h : Ordering g s t) : settled (t.group g) = settled (s.group g) := by
  obtain ⟨r, x, o, hr, rfl⟩ := h
  refine Eq.trans (congrArg settled ?_) hr
  exact Vector.getElem_set_self g.isLt

theorem Ordering.other (h : Ordering g s t) {j : GroupId} (hj : j ≠ g) : t.group j = s.group j ∧ t.test j = s.test j := by
  obtain ⟨r, x, o, -, rfl⟩ := h
  have hne : g.val ≠ j.val := fun e => hj (Fin.ext e.symm)
  exact ⟨Vector.getElem_set_ne g.isLt j.isLt hne, Vector.getElem_set_ne g.isLt j.isLt hne⟩

theorem Ordering.frame (h : Ordering g s t) :
    t = { s with groups := t.groups, tests := t.tests, orders := t.orders } := by
  obtain ⟨r, x, o, -, rfl⟩ := h
  rfl

end

/-! ### The scanner's part of a changed fitted count (R2) -/

/-- The group record with its new fitted count, before the scanner acts on it (R2). -/
def GroupRecord.refitted (r : GroupRecord) (f : Fin 9) : GroupRecord :=
  { r with
    fitted := f
    checkPos := if f.val ≤ r.checkPos.val then 0 else r.checkPos
    port := r.port.map fun o => o.afterFit f }

section

variable {s : State} {g : GroupId} {f : Fin 9}

theorem refit_zero (hf : f = 0) : s.refit g f = s.setGroup g { GroupRecord.refitted (s.group g) f with
    pass := .stopped, passTimer := none, probeDelay := none, scanWaiting := none, restartPass := false } := if_pos hf

theorem refit_silent (hf : f ≠ 0) (hw : (s.group g).fitted = 0) (hh : (s.group g).health = .silent) :
    s.refit g f = (s.setGroup g (GroupRecord.refitted (s.group g) f)).startProbeDelay g := by
  simp only [State.refit, hf, hw, if_false, if_true]
  exact if_pos hh

theorem refit_resumes (hf : f ≠ 0) (hw : (s.group g).fitted = 0) (hh : (s.group g).health ≠ .silent) :
    s.refit g f = ((s.setGroup g (GroupRecord.refitted (s.group g) f)).startPass g).arbitrate g := by
  simp only [State.refit, hf, hw, if_false, if_true]
  exact if_neg hh

theorem refit_keeps (hf : f ≠ 0) (hw : (s.group g).fitted ≠ 0) (hp : ∀ p ∈ (s.group g).scanWaiting, p.losesFit f = false) :
    s.refit g f = s.setGroup g (GroupRecord.refitted (s.group g) f) := by
  have : (s.group g).scanWaiting.filter (fun p => p.losesFit f) = none := by
    rw [Option.filter_eq_none_iff]
    exact fun p h => by simp [hp p h]
  simp only [State.refit, hf, hw, if_false, this]
  rfl

theorem refit_drops (hf : f ≠ 0) (hw : (s.group g).fitted ≠ 0) {p : ScanPurpose} (hp : (s.group g).scanWaiting = some p)
    (hl : p.losesFit f = true) :
    s.refit g f =
      ((s.setGroup g { GroupRecord.refitted (s.group g) f with scanWaiting := none }).scanLostFit g p).arbitrate g := by
  simp only [State.refit, hf, hw, if_false, hp, Option.filter_some, hl, if_true]
  rfl

end

/-! ### The lines whose fit changes (R50) -/

theorem lineAt_group_pos (n : LineId) : lineAt n.group n.pos = n := by
  apply Fin.ext
  simp only [lineAt, LineId.group, LineId.pos]
  omega

theorem group_lineAt (g : GroupId) (p : Pos) : (lineAt g p).group = g := by
  apply Fin.ext
  have := p.isLt
  simp only [lineAt, LineId.group]
  omega

theorem pos_lineAt (g : GroupId) (p : Pos) : (lineAt g p).pos = p := by
  apply Fin.ext
  have := p.isLt
  simp only [lineAt, LineId.pos]
  omega

theorem mem_linesBetween {g : GroupId} {low high : Nat} {n : LineId} :
    n ∈ linesBetween g low high ↔ n.group = g ∧ low ≤ n.pos.val ∧ n.pos.val < high := by
  simp only [linesBetween, List.mem_map, List.mem_filter, List.mem_finRange, true_and, Bool.and_eq_true,
    decide_eq_true_iff]
  constructor
  · rintro ⟨p, ⟨h1, h2⟩, rfl⟩
    rw [group_lineAt, pos_lineAt]
    exact ⟨rfl, h1, h2⟩
  · rintro ⟨rfl, h1, h2⟩
    exact ⟨n.pos, ⟨h1, h2⟩, lineAt_group_pos n⟩

theorem refitBlocked_iff {s : State} {g : GroupId} {f : Fin 9} :
    s.refitBlocked g f = true ↔ ∃ n : LineId, (n.group = g ∧ f.val ≤ n.pos.val ∧ n.pos.val < (s.group g).fitted.val) ∧
      (s.line n).condition ≠ .outOfService := by
  simp only [State.refitBlocked, List.any_eq_true, mem_linesBetween, decide_eq_true_iff]

/-- Lines that lose fit, one after the other (R50). -/
theorem each_setCondition (ns : List LineId) (s : State) (k : Condition) :
    s.each ns (fun s n => s.setCondition n k) = { s with lines := (s.each ns fun s n => s.setCondition n k).lines } ∧
    ∀ n, (s.each ns fun s n => s.setCondition n k).line n = { s.line n with
      condition := if n ∈ ns then k else (s.line n).condition } := by
  induction ns generalizing s with
  | nil => exact ⟨rfl, fun n => by simp [State.each]⟩
  | cons m rest ih =>
    obtain ⟨h1, h2⟩ := ih (s.setCondition m k)
    refine ⟨h1.trans rfl, fun n => (h2 n).trans ?_⟩
    by_cases hm : n = m
    · subst hm; simp
    · simp [hm]

/-- A line that gains fit: OUT_OF_SERVICE, its entry OUT (R50). -/
def gainFit (s : State) (n : LineId) : State :=
  (s.setEntry n { s.entry n with inService := false }).setCondition n .outOfService

theorem each_gainFit (ns : List LineId) (s : State) :
    s.each ns gainFit = { s with lines := (s.each ns gainFit).lines, entries := (s.each ns gainFit).entries } ∧
    (∀ n, (s.each ns gainFit).line n = { s.line n with
      condition := if n ∈ ns then .outOfService else (s.line n).condition }) ∧
    ∀ n, (s.each ns gainFit).entry n = if n ∈ ns then { s.entry n with inService := false } else s.entry n := by
  induction ns generalizing s with
  | nil => exact ⟨rfl, fun n => by simp [State.each], fun n => by simp [State.each]⟩
  | cons m rest ih =>
    obtain ⟨h1, h2, h3⟩ := ih (gainFit s m)
    refine ⟨h1.trans rfl, fun n => (h2 n).trans ?_, fun n => (h3 n).trans ?_⟩
    all_goals
      by_cases hm : n = m
      · subst hm; simp [gainFit]
      · simp [gainFit, hm]

/-- The lines and entries of a refitted group, line by line; nothing else changes (R50). -/
theorem refitLines_eq (s : State) (g : GroupId) (f : Fin 9) :
    s.refitLines g f = { s with lines := (s.refitLines g f).lines, entries := (s.refitLines g f).entries } ∧
    (∀ n : LineId, (s.refitLines g f).line n = { s.line n with
      condition :=
        if n.group = g ∧ f.val ≤ n.pos.val ∧ n.pos.val < (s.group g).fitted.val then .notFitted
        else if n.group = g ∧ (s.group g).fitted.val ≤ n.pos.val ∧ n.pos.val < f.val then .outOfService
        else (s.line n).condition }) ∧
    ∀ n : LineId, (s.refitLines g f).entry n =
      if n.group = g ∧ (s.group g).fitted.val ≤ n.pos.val ∧ n.pos.val < f.val then
        { s.entry n with inService := false }
      else s.entry n := by
  obtain ⟨h1, h2⟩ := each_setCondition (linesBetween g f.val (s.group g).fitted.val) s .notFitted
  obtain ⟨g1, g2, g3⟩ := each_gainFit (linesBetween g (s.group g).fitted.val f.val)
    (s.each (linesBetween g f.val (s.group g).fitted.val) fun s n => s.setCondition n .notFitted)
  have he : s.refitLines g f = (s.each (linesBetween g f.val (s.group g).fitted.val) fun s n =>
      s.setCondition n .notFitted).each (linesBetween g (s.group g).fitted.val f.val) gainFit := rfl
  refine ⟨?_, fun n => ?_, fun n => ?_⟩
  · rw [he]
    refine g1.trans ?_
    rw [h1]
  · rw [he, g2, h2]
    simp only [mem_linesBetween]
    split
    · next hg => rw [if_neg (by omega)]
    · rfl
  · rw [he, g3, h1]
    simp only [mem_linesBetween]
    rfl

/-! ### The orders that a lower count leaves (R2, R10) -/

theorem mem_fittedPositions {f : Fin 9} {p : Pos} : p ∈ fittedPositions f ↔ p.val < f.val := by
  simp [fittedPositions]

theorem mem_positionsFrom {f : Fin 9} {p q : Pos} (h : q ∈ positionsFrom f p) : q.val < f.val := by
  simp only [positionsFrom, List.mem_append, List.mem_filter, mem_fittedPositions] at h
  exact h.elim And.left And.left

/-- The waiting order fits, and the check position is the one given, or follows a path check begun since (R2, R10). -/
def CheckHeld (f : Fin 9) (held : Pos) (r : GroupRecord) : Prop :=
  (∀ p ∈ r.scanWaiting, p.losesFit f = false) ∧
  (r.checkPos = held ∨ ∃ q : Pos, q.val < f.val ∧ r.checkPos = positionAfter f q ∧
    (r.scanWaiting = some (.checkMain q) ∨ r.placed = some (.checkMain q)))

section

variable {g : GroupId} {s : State} {f : Fin 9} {held : Pos}

theorem CheckHeld.arbitrate (h : CheckHeld f held (s.group g)) : CheckHeld f held ((s.arbitrate g).group g) := by
  unfold State.arbitrate
  dsimp only
  split
  · exact h
  · split
    · obtain ⟨h1, h2⟩ := h
      refine ⟨by simpa using h1, ?_⟩
      rcases h2 with h2 | ⟨q, hq, hc, hw | hp⟩
      · exact .inl (by simpa using h2)
      · exact .inr ⟨q, hq, by simpa using hc, .inl (by simpa using hw)⟩
      · simp_all [GroupRecord.placed]
    · split
      · next p hw =>
        obtain ⟨h1, h2⟩ := h
        refine ⟨by simp, ?_⟩
        rcases h2 with h2 | ⟨q, hq, hc, hw' | hp⟩
        · exact .inl (by simpa using h2)
        · rw [hw] at hw'
          exact .inr ⟨q, hq, by simpa using hc, .inr (by simpa [GroupRecord.placed, State.placedOrder] using hw')⟩
        · simp_all [GroupRecord.placed]
      · exact h

theorem checkHeld_endPass (hw : (s.group g).scanWaiting = none) (hc : (s.group g).checkPos = held) :
    CheckHeld f held ((s.endPass g).group g) := by
  unfold State.endPass
  split
  · unfold State.startPass
    dsimp only
    split
    · exact ⟨by simp [hw], .inl hc⟩
    · exact ⟨by simp [ScanPurpose.losesFit], .inl (by simpa using hc)⟩
  · exact ⟨by simp [hw], .inl (by simpa using hc)⟩

theorem checkHeld_beginPathCheck (hf : (s.group g).fitted = f) (hw : (s.group g).scanWaiting = none)
    (hc : (s.group g).checkPos = held) : CheckHeld f held ((s.beginPathCheck g).group g) := by
  unfold State.beginPathCheck
  dsimp only
  split
  · next q _ hq =>
    have hlt := mem_positionsFrom (List.mem_of_find?_eq_some hq)
    rw [hf] at hlt
    refine ⟨by simpa [ScanPurpose.losesFit] using hlt, .inr ⟨q, hlt, by simp [hf], .inl (by simp)⟩⟩
  · exact checkHeld_endPass hw hc

theorem checkHeld_scanLostFit {p : ScanPurpose} (hf : (s.group g).fitted = f) (hw : (s.group g).scanWaiting = none)
    (hc : (s.group g).checkPos = held) (hl : p.losesFit f = true) :
    CheckHeld f held ((s.scanLostFit g p).group g) := by
  cases p with
  | line q =>
    have hq : f.val ≤ q.val := by simpa [ScanPurpose.losesFit] using hl
    have hnone : (fittedPositions (s.group g).fitted).find? (fun x => q.val + 1 ≤ x.val && s.scannable g x) = none := by
      rw [List.find?_eq_none, hf]
      intro x hx
      rw [mem_fittedPositions] at hx
      simp only [Bool.and_eq_true, decide_eq_true_iff]
      omega
    simp only [State.scanLostFit, State.scanFrom, hnone]
    exact checkHeld_beginPathCheck hf hw hc
  | checkMain q => exact checkHeld_endPass hw hc
  | checkSecond q x => exact checkHeld_endPass hw hc
  | feed => cases hl
  | probe => cases hl

end

end Sys2Proof.Proofs

/-! PROOFS. SET_GROUP's statement fails outside the invariant (R2, R73). -/

namespace Sys2Proof.Proofs

open Sys2Proof Sys2Proof.Machine

/-- A part that has loaded, whose group 0 has a fitted count of 0, is SILENT, and still has an order for position 7
waiting. No step leads to it: a group of count 0 has no order waiting (R2). -/
def strandedOrder : State :=
  { State.reset with
    load := none
    groups := State.reset.groups.set 0
      { defaultGroup with fitted := 0, health := .silent, scanWaiting := some (.line 7) } }

theorem strandedOrder_admits : strandedOrder.admits .a Command.setGroup .configure := by
  unfold State.admits
  decide +kernel

/-- SET_GROUP of group 0 to a count of 1 leaves the order for position 7 waiting. -/
theorem strandedOrder_waits : ∃ t, exec (.setGroup .a [0, 1, 3, 1]) strandedOrder = .next t ∧
    (t.group 0).scanWaiting = some (.line 7) :=
  ⟨_, rfl, by decide +kernel⟩

/-- Refutes O31: from a fitted count of 0 a SILENT group waits for its probe, and an order that waits there already, for
a position that the new count leaves out, is not looked at. -/
theorem not_setGroupRefitsLines : ¬ Obligations.SetGroupRefitsLines := by
  intro h
  obtain ⟨-, h⟩ := h strandedOrder .a 0 1 3 1 strandedOrder_admits
  obtain ⟨-, h⟩ := h 0 rfl .ready rfl (by decide) (by decide)
  obtain ⟨-, h⟩ := h (by decide +kernel)
  obtain ⟨t, ht, -, -, -, -, -, -, -, -, -, -, -, -, -, -, -, hw, -⟩ := h (by decide +kernel)
  obtain ⟨u, hu, hl⟩ := strandedOrder_waits
  obtain rfl : t = u := Host.Outcome.next.inj (ht.symm.trans hu)
  exact absurd (hw (by decide +kernel) (.line 7) hl) (by decide)

end Sys2Proof.Proofs

/-! PROOFS. The passes, probes and orders of the scanner (R3 to R15): in closed form, what a group's port takes
when an order ends. -/

namespace Sys2Proof.Proofs

open Sys2Proof Sys2Proof.Machine

/-! ### What a free port takes -/

section

variable {s : State} {g : GroupId} {k : Nat}

theorem startPass_of_fitted (h : (s.group g).fitted ≠ 0) :
    s.startPass g = { s with groups := s.groups.set g (s.passBegun g) } := by
  rw [(State.startPass_spec s g).2 h]
  cases hp : s.power <;> simp [State.passBegun, scanInterval, hp]

theorem startPass_of_unfitted (h : (s.group g).fitted = 0) : s.startPass g = s := (State.startPass_spec s g).1 h

theorem set_group (s : State) (g : GroupId) (r : GroupRecord) :
    State.group { s with groups := s.groups.set g r } g = r := Vector.getElem_set_self g.isLt

theorem arbitrate_setGroup_busy {r : GroupRecord} (h : r.port ≠ none) : (s.setGroup g r).arbitrate g = s.setGroup g r := by
  obtain ⟨o, ho⟩ := Option.ne_none_iff_exists'.1 h
  exact State.arbitrate_busy _ g o (by rw [State.setGroup_group, if_pos rfl, ho])

theorem arbitrate_setGroup_scanner {r : GroupRecord} {p : ScanPurpose} (hp : r.port = none)
    (hs : r.settle = (s.group g).settle) (ht : ∀ t ∈ s.test g, t.order ≠ .waiting) (hw : r.scanWaiting = some p) :
    (s.setGroup g r).arbitrate g = { s with
      groups := s.groups.set g { r with port := some (s.newOrder g (.scanner p)), scanWaiting := none }
      orders := s.orders ++ [.measure g p.target.1 p.target.2] } := by
  have hr : (s.setGroup g r).group g = r := by rw [State.setGroup_group, if_pos rfl]
  rw [State.arbitrate_scanner (s.setGroup g r) g p (by rw [hr, hp]) ht (by rw [hr, hw])]
  have hn : (s.setGroup g r).newOrder g (.scanner p) = s.newOrder g (.scanner p) := by
    simp only [State.newOrder, hr, hs, State.setGroup_clock]
  rw [hr, hn]
  simp only [State.setGroup, Vector.set_set]

theorem ready_arbitrate (p : ScanPurpose) (hp : (s.group g).port = none) :
    (s.ready g p).arbitrate g = s.scanOrdered g p :=
  State.arbitrate_free _ g (by rw [State.ready, State.setGroup_group, if_pos rfl, hp])

theorem endPass_arbitrate (hp : (s.group g).port = none) : (s.endPass g).arbitrate g = s.passEnds g := by
  unfold State.endPass State.passEnds
  dsimp only
  cases ht : (s.group g).passTimer with
  | some t =>
    rw [if_neg (by simp), if_pos (by simp)]
    exact State.arbitrate_free _ g (by rw [State.setGroup_group, if_pos rfl, hp])
  | none =>
    rw [if_pos (by simp), if_neg (by simp)]
    by_cases hf : (s.group g).fitted = 0
    · rw [if_pos hf, startPass_of_unfitted hf, State.arbitrate_free _ g hp]
      exact congrArg (State.served · g) (by simp [State.group])
    · rw [if_neg hf, startPass_of_fitted hf]
      exact State.arbitrate_free _ g (by rw [set_group]; exact hp)

/-! ### Where a pass goes on -/

/-- The lowest fitted position from a place on that can be measured (R9). -/
theorem find?_scannable (s : State) (g : GroupId) (k : Nat) :
    (∀ q, ((fittedPositions (s.group g).fitted).find? fun p => k ≤ p.val && s.scannable g p) = some q ↔
      s.nextLine g k q) := by
  intro q
  constructor
  · intro h
    obtain ⟨hq, as, bs, hsplit, hbefore⟩ := List.find?_eq_some_iff_append.1 h
    have hmem : q ∈ fittedPositions (s.group g).fitted := List.mem_of_find?_eq_some h
    rw [mem_fittedPositions] at hmem
    obtain ⟨hk, hs⟩ : k ≤ q.val ∧ s.scannable g q = true := by simpa using hq
    refine ⟨hk, hmem, hs, fun p hkp hpq => ?_⟩
    have hsorted : (fittedPositions (s.group g).fitted).Pairwise (· < ·) :=
      (List.pairwise_lt_finRange 8).filter _
    have hp : p ∈ as ++ q :: bs := hsplit ▸ (mem_fittedPositions.2 (by omega))
    rw [hsplit] at hsorted
    obtain ⟨-, htail, -⟩ := List.pairwise_append.1 hsorted
    rcases List.mem_append.1 hp with hp | hp
    · simpa [hkp] using hbefore p hp
    · rcases List.mem_cons.1 hp with rfl | hp
      · omega
      · have := (List.pairwise_cons.1 htail).1 p hp
        exact absurd this (by rw [Fin.lt_def]; omega)
  · rintro ⟨hk, hf, hs, hfirst⟩
    cases h : (fittedPositions (s.group g).fitted).find? fun p => k ≤ p.val && s.scannable g p with
    | none =>
      have := List.find?_eq_none.1 h q (mem_fittedPositions.2 hf)
      simp [hk, hs] at this
    | some p =>
      obtain ⟨hk', hs'⟩ : k ≤ p.val ∧ s.scannable g p = true := by simpa using List.find?_some h
      have hsorted : (fittedPositions (s.group g).fitted).Pairwise (· < ·) :=
        (List.pairwise_lt_finRange 8).filter _
      obtain ⟨-, as, bs, hsplit, hbefore⟩ := List.find?_eq_some_iff_append.1 h
      have hq : q ∈ as ++ p :: bs := hsplit ▸ (mem_fittedPositions.2 hf)
      rw [hsplit] at hsorted
      obtain ⟨-, htail, -⟩ := List.pairwise_append.1 hsorted
      rcases List.mem_append.1 hq with hq | hq
      · have := hbefore q hq
        simp [hk, hs] at this
      · rcases List.mem_cons.1 hq with rfl | hq
        · rfl
        · have hlt := (List.pairwise_cons.1 htail).1 q hq
          rw [Fin.lt_def] at hlt
          exact absurd hs' (by simp [hfirst p hk' hlt])

theorem scanFrom_goesOn (k : Nat) (hp : (s.group g).port = none) : s.GoesOn g k ((s.scanFrom g k).arbitrate g) := by
  have hfind := find?_scannable s g k
  unfold State.scanFrom
  refine ⟨fun q hq => ?_, fun hnone => ?_⟩
  · rw [(hfind q).2 hq]
    exact ready_arbitrate _ hp
  · have hn : (fittedPositions (s.group g).fitted).find? (fun p => k ≤ p.val && s.scannable g p) = none :=
      Option.eq_none_iff_forall_ne_some.2 fun q hq => hnone q ((hfind q).1 hq)
    rw [hn]
    unfold State.beginPathCheck
    refine ⟨fun h => ?_, fun q hq hc => ?_⟩
    · rw [← endPass_arbitrate hp]
      rcases h with h | h
      · simp only [h]
      · simp only [h]
        cases (s.group g).pathCheck <;> rfl
    · simp only [Option.mem_def.1 hq, hc]
      refine (State.arbitrate_free _ g ?_).trans ?_
      · rw [State.setGroup_group, if_pos rfl, hp]
      · simp only [State.scanOrdered, set_group, State.setGroup, Vector.set_set]

/-! ### A pass that is owed -/

theorem startPass_owed (h : (s.group g).restartPass = false) : ((s.startPass g).group g).restartPass = false := by
  by_cases hf : (s.group g).fitted = 0
  · rw [startPass_of_unfitted hf, h]
  · rw [startPass_of_fitted hf, set_group]
    rfl

theorem endPass_owed (h : (s.group g).restartPass = false) : ((s.endPass g).group g).restartPass = false := by
  unfold State.endPass
  split
  · exact startPass_owed h
  · rw [State.setGroup_group, if_pos rfl]
    exact h

theorem scanFrom_owed (k : Nat) (h : (s.group g).restartPass = false) :
    ((s.scanFrom g k).group g).restartPass = false := by
  unfold State.scanFrom State.beginPathCheck
  split
  · rw [State.ready, State.setGroup_group, if_pos rfl]
    exact h
  · dsimp only
    split
    · rw [State.setGroup_group, if_pos rfl]
      exact h
    · exact endPass_owed h

end

/-! ### The end of an order -/

section

variable {s : State} {g : GroupId} {e : Instr} {outcome : Option (Code × Code)} {p : ScanPurpose}

/-- The event ends the order with the outcome it has by `orderEnds` (R4, R5). -/
theorem exec_orderEnds (h : s.orderEnds g e = some outcome) :
    exec e s = .next (State.endOrder { s with orders := [] } g outcome) := by
  unfold State.orderEnds at h
  split at h
  · next h' late vc ic valid =>
    obtain ⟨⟨rfl, rfl, hp⟩, hv⟩ := Option.ite_none_right_eq_some.1 h
    obtain ⟨o, ho, hr⟩ := Option.any_eq_true .. |>.1 hp
    show Host.Outcome.next _ = _
    simp only [show (State.group { s with orders := [] } h').port = some o from ho, PlacedOrder.inReady, hr, if_true,
      ← Option.some.inj hv, measured]
  · next h' =>
    obtain ⟨⟨rfl, hp⟩, hv⟩ := Option.ite_none_right_eq_some.1 h
    obtain ⟨o, ho, hr⟩ := Option.any_eq_true .. |>.1 hp
    show Host.Outcome.next _ = _
    simp only [show (State.group { s with orders := [] } h').port = some o from ho, PlacedOrder.inReady, hr, if_true,
      ← Option.some.inj hv]
  · next h' vc ic valid =>
    obtain ⟨⟨rfl, hp⟩, hv⟩ := Option.ite_none_right_eq_some.1 h
    obtain ⟨o, ho, hr⟩ := Option.any_eq_true .. |>.1 hp
    have hr : o.inReady = false := by simpa [PlacedOrder.inReady] using hr
    show Host.Outcome.next _ = _
    simp only [show (State.group { s with orders := [] } h').port = some o from ho, hr, Bool.false_eq_true, if_false,
      ← Option.some.inj hv, measured]
  · cases h

/-- The state of an order that ends, its port free and nothing acted on yet (R3). -/
def freed (s : State) (g : GroupId) : State := s.setGroup g { s.group g with port := none }

theorem freed_eq (s : State) (g : GroupId) (os : List Order) : freed { s with orders := os } g =
    { s with orders := os, groups := s.groups.set g { s.group g with port := none } } := rfl

theorem freed_group (s : State) (g : GroupId) : (freed s g).group g = { s.group g with port := none } := by
  rw [freed, State.setGroup_group, if_pos rfl]

/-- A live order of the scanner ends with a sample: the pass moves, and the port takes the next order (R3). -/
theorem endOrder_sample {x : Code × Code} (h : s.scannerHolds g p)
    (ho : (((freed s g).scanSample g p x).group g).restartPass = false) :
    s.endOrder g (some x) = ((freed s g).scanSample g p x).arbitrate g := by
  obtain ⟨⟨⟨owner, mode, timer, fate⟩, hp, rfl, rfl⟩, -⟩ := h
  have hp : (s.group g).port = some _ := hp
  simp only [State.endOrder, hp]
  exact if_neg (by rw [Bool.not_eq_true]; exact ho) |> congrArg (State.arbitrate · g)

/-- A live order of the scanner ends with no sample (R3). -/
theorem endOrder_noSample (h : s.scannerHolds g p)
    (ho : (((freed s g).scanNoSample g p).group g).restartPass = false) :
    s.endOrder g none = ((freed s g).scanNoSample g p).arbitrate g := by
  obtain ⟨⟨⟨owner, mode, timer, fate⟩, hp, rfl, rfl⟩, -⟩ := h
  have hp : (s.group g).port = some _ := hp
  simp only [State.endOrder, hp]
  exact if_neg (by rw [Bool.not_eq_true]; exact ho) |> congrArg (State.arbitrate · g)

theorem endPassTimer_running {t : Timer} (h : (s.group g).passTimer = some t) :
    s.endPassTimer g = if (s.group g).pass = .idleWait then
        ((s.setGroup g { s.group g with passTimer := none }).startPass g).arbitrate g
      else s.setGroup g { s.group g with passTimer := none } := by
  simp only [State.endPassTimer, h]

theorem endProbeDelay_running {t : Timer} (h : (s.group g).probeDelay = some t) :
    s.endProbeDelay g = (s.setGroup g { s.group g with probeDelay := none, scanWaiting := some .probe }).arbitrate g := by
  simp only [State.endProbeDelay, h]

theorem startPass_setGroup {r : GroupRecord} (h : r.fitted ≠ 0) :
    (s.setGroup g r).startPass g = s.setGroup g { r with
      pass := .inPass, scanWaiting := some .feed, restartPass := false
      passTimer := some { length := scanInterval s.power, due := s.clock + scanInterval s.power } } := by
  have hr : (s.setGroup g r).group g = r := by rw [State.setGroup_group, if_pos rfl]
  rw [(State.startPass_spec _ g).2 (by rwa [hr]), hr]
  simp only [State.setGroup, Vector.set_set]

end

/-- Settles O39, by the two expiries and the port: free, it takes the order made ready; busy, the order waits. -/
theorem passAndProbeOrders : Obligations.PassAndProbeOrders := by
  intro s g r free interval passing
  have free_port (h : free = true) : r.port = none := (of_decide_eq_true h).1
  have free_test (h : free = true) : ∀ t ∈ s.test g, t.order ≠ .waiting := (of_decide_eq_true h).2
  have hi : scanInterval s.power = interval := by
    show _ = (match s.power with | .normal => 100 | .economy => 400 | .reserve => 1000)
    cases s.power <;> rfl
  let b : State := { s with orders := [] }
  refine ⟨fun h => ?_, fun h hp => ?_, fun h hp hf => ?_, fun h => ?_, fun h => ?_⟩
  · show Host.Outcome.next (State.endPassTimer b g) = _
    simp only [State.endPassTimer, show (State.group b g).passTimer = none from h]
    rfl
  · obtain ⟨t, ht⟩ := Option.isSome_iff_exists.1 h
    exact congrArg _ ((endPassTimer_running (s := b) ht).trans (if_neg hp))
  · obtain ⟨t, ht⟩ := Option.isSome_iff_exists.1 h
    have he : exec (.passTimerExpiry g) s =
        .next ((b.setGroup g { passing with scanWaiting := some .feed }).arbitrate g) := by
      refine congrArg _ ((endPassTimer_running (s := b) ht).trans ((if_pos hp).trans ?_))
      refine congrArg (State.arbitrate · g) ((startPass_setGroup (s := b) (r := { r with passTimer := none }) hf).trans ?_)
      rw [show b.power = s.power from rfl, hi]
    refine ⟨fun hfree => ?_, fun hb => ?_⟩
    · refine he.trans (congrArg Host.Outcome.next ?_)
      exact arbitrate_setGroup_scanner (s := b) (r := { passing with scanWaiting := some .feed }) (free_port hfree) rfl (free_test hfree) rfl
    · exact he.trans (congrArg Host.Outcome.next (arbitrate_setGroup_busy hb))
  · show Host.Outcome.next (State.endProbeDelay b g) = _
    simp only [State.endProbeDelay, show (State.group b g).probeDelay = none from h]
    rfl
  · obtain ⟨t, ht⟩ := Option.isSome_iff_exists.1 h
    have he : exec (.probeDelayExpiry g) s =
        .next ((b.setGroup g { r with probeDelay := none, scanWaiting := some .probe }).arbitrate g) :=
      congrArg Host.Outcome.next (endProbeDelay_running (s := b) ht)
    refine ⟨fun hfree => ?_, fun hb => ?_⟩
    · refine he.trans (congrArg Host.Outcome.next ?_)
      exact arbitrate_setGroup_scanner (s := b) (r := { r with probeDelay := none, scanWaiting := some .probe }) (free_port hfree) rfl (free_test hfree) rfl
    · exact he.trans (congrArg Host.Outcome.next (arbitrate_setGroup_busy hb))

end Sys2Proof.Proofs

/-! PROOFS. Probes and no-samples (R13 to R15), and the end of a test (R143), with the notices that go with them. -/

namespace Sys2Proof.Proofs

open Sys2Proof Sys2Proof.Machine

section

variable (s : State) (g : GroupId)

/-! ### Notices -/

/-- A notice to all three links changes their controllers alone, each as if it were told alone. -/
theorem announced_eq (n : Notice) : s.announced n =
    { s with linkA := hearing s .a n, linkB := hearing s .b n, linkS := hearing s .s n } := by
  simp only [State.announced, informed_eq]
  rfl

theorem announced_group (n : Notice) : (s.announced n).group g = s.group g := by rw [announced_eq]; rfl

theorem announced_clock (n : Notice) : (s.announced n).clock = s.clock := by rw [announced_eq]

/-- A notice and a change of a group's record commute. -/
theorem announced_setGroup (n : Notice) (r : GroupRecord) :
    (s.announced n).setGroup g r = (s.setGroup g r).announced n := by
  rw [announced_eq, announced_eq]
  rfl

theorem setGroup_setGroup (r q : GroupRecord) : (s.setGroup g r).setGroup g q = s.setGroup g q := by
  simp only [State.setGroup, Vector.set_set]

/-! ### The end of a test -/

/-- The condition a test returns its line to has no tone (R41, R49). -/
theorem toneFor_prior (p : PriorCondition) (r : Option CallRecord) : toneFor p.condition r = .none := by
  cases p <;> rfl

variable {s g}

theorem leaveTesting_eq {n : LineId} (h : (s.line n).condition.isTesting = true → (s.line n).tone = .none) :
    s.leaveTesting n = { s with lines := s.lines.set n (match (s.line n).condition with
      | .testing p => { condition := p.condition, tone := .none }
      | _ => s.line n) } := by
  have hself : s.lines.set n (s.line n) = s.lines := Vector.set_getElem_self n.isLt
  unfold State.leaveTesting
  cases hk : (s.line n).condition with
  | testing p => exact enter_toneless (h (by rw [hk]; rfl)) (toneFor_prior p _)
  | _ => simp only [hself]

theorem restoreDrives_eq (t : TestRecord) : s.restoreDrives t = { s with orders := s.orders ++ t.restoring } := by
  unfold State.restoreDrives TestRecord.restoring
  cases hk : t.kind with
  | openWire =>
    by_cases hp : t.phase = TestPhase.measureBefore <;> simp [hp, State.give]
  | insulation => simp [State.give]
  | pathCheck => simp [State.give]

theorem dropTestOrder_eq (r : GroupRecord) : dropTestOrder r =
    { r with port := r.port.map fun (o : PlacedOrder) => if o.owner = OrderOwner.test then { o with fate := .stale } else o } := by
  unfold dropTestOrder
  cases hp : r.port with
  | none => cases r; cases hp; rfl
  | some o =>
    cases ho : o.owner with
    | test => simp [ho]
    | scanner p => cases r; cases hp; simp [ho]

/-- A test that stands ends as `testStopped` says (R49, R143). -/
theorem endTest_eq (outcome : TestOutcome)
    (h : ∀ t ∈ s.test g, (s.line t.line).condition.isTesting = true → (s.line t.line).tone = .none) :
    s.endTest g outcome = s.testStopped g outcome := by
  unfold State.endTest State.testStopped
  cases ht : s.test g with
  | none => rfl
  | some t =>
    let r := s.group g
    let b : State := { s with
      orders := s.orders ++ t.restoring
      groups := s.groups.set g { r with port := r.port.map fun (o : PlacedOrder) =>
        if o.owner = OrderOwner.test then { o with fate := .stale } else o } }
    have hb : (s.setGroup g (dropTestOrder (s.group g))).restoreDrives t = b := by
      rw [restoreDrives_eq, dropTestOrder_eq]
      rfl
    have hh : (b.group g).health = r.health := by simp [b, r, State.group]
    dsimp only
    rw [hb, hh, leaveTesting_eq (s := b) (h t ht), State.notify_eq]
    rfl

end

/-! ### Silence and recovery -/

section

variable {s : State} {g : GroupId}

/-- A no-sample short of the third in a row is counted, and the pass goes on (R13). -/
theorem noSample_counted {goOn : State → State} (h : (s.group g).noSampleRun < 2) :
    s.noSample g goOn = goOn (s.setGroup g { s.group g with noSampleRun := (s.group g).noSampleRun + 1 }) := by
  unfold State.noSample
  dsimp only
  rw [Nat.min_eq_left (by omega), if_neg (by show _ ≠ 3; omega)]

/-- The record of a group that the third no-sample in a row has made SILENT (R13, R14). -/
def silenced (s : State) (g : GroupId) : GroupRecord :=
  { s.group g with
    noSampleRun := 3, scanWaiting := none, pass := .stopped, passTimer := none, discrepancyRun := 0
    agreementRun := 0, probeCount := 0, health := .silent
    probeDelay := some { length := 100, due := s.clock + 100 } }

/-- The third no-sample in a row makes the group SILENT (R13). -/
theorem noSample_silences {goOn : State → State} (h : (s.group g).noSampleRun = 2) (ht : s.testStands g) :
    s.noSample g goOn =
      ((s.setGroup g (silenced s g)).announced (.groupSilent g)).testStopped g (.aborted .group) := by
  unfold State.noSample
  dsimp only
  rw [h, if_pos (by decide), State.becomeSilent]
  have hs : (((s.setGroup g { s.group g with noSampleRun := min (2 + 1) 3 }).setGroup g
      { (s.setGroup g { s.group g with noSampleRun := min (2 + 1) 3 }).group g with
        pass := .stopped, passTimer := none, scanWaiting := none, discrepancyRun := 0, agreementRun := 0
        probeCount := 0, health := .silent }).notifyAll (.groupSilent g)).startProbeDelay g =
      (s.setGroup g (silenced s g)).announced (.groupSilent g) := by
    rw [State.notifyAll_eq, State.startProbeDelay, announced_group]
    simp only [State.setGroup_group, if_true, announced_setGroup, setGroup_setGroup, State.timer, announced_clock]
    rfl
  refine (congrArg (State.endTest · g _) hs).trans (endTest_eq _ ?_)
  rw [announced_eq]
  exact fun t hm _ => (ht t hm).2.2

theorem testStopped_test (o : TestOutcome) : (s.testStopped g o).test g = none := by
  unfold State.testStopped
  cases ht : s.test g with
  | none => exact ht
  | some t =>
    simp only [informed_eq, State.setLink_test]
    exact Vector.getElem_set_self g.isLt

theorem testStopped_group (o : TestOutcome) (hp : (s.group g).port = none) :
    (s.testStopped g o).group g = s.group g := by
  unfold State.testStopped
  cases ht : s.test g with
  | none => rfl
  | some t =>
    simp only [informed_eq, State.setLink_group]
    refine (Vector.getElem_set_self g.isLt).trans ?_
    rw [hp]
    cases hr : s.group g
    rw [hr] at hp
    cases hp
    rfl

/-- A group that is SILENT has no order for its port once its test has ended (R3, R13, R143). -/
theorem testStopped_arbitrate (o : TestOutcome) (hp : (s.group g).port = none) (hw : (s.group g).scanWaiting = none) :
    (s.testStopped g o).arbitrate g = s.testStopped g o := by
  refine State.arbitrate_idle _ g ?_ ?_
  · rw [testStopped_test]
    exact fun t h => by cases h
  · rw [testStopped_group o hp, hw]

/-! ### The port after a no-sample -/

theorem noSample_freed_counted {goOn : State → State} (h : (s.group g).noSampleRun < 2) :
    (freed s g).noSample g goOn =
      goOn (s.setGroup g { s.group g with noSampleRun := (s.group g).noSampleRun + 1, port := none }) := by
  rw [noSample_counted (by rw [freed_group]; exact h), freed_group, freed, setGroup_setGroup]

theorem noSample_freed_silences {goOn : State → State} (h : (s.group g).noSampleRun = 2) (ht : s.testStands g) :
    (freed s g).noSample g goOn = ((s.setGroup g { silenced s g with port := none }).announced
      (.groupSilent g)).testStopped g (.aborted .group) := by
  have hts : (freed s g).testStands g := ht
  rw [noSample_silences (s := freed s g) (by rw [freed_group]; exact h) hts, silenced, freed_group, freed, setGroup_setGroup]
  rfl

/-- After the third no-sample the port of a SILENT group has nothing to take (R3, R13). -/
theorem noSample_freed_silences_arbitrate {goOn : State → State} (h : (s.group g).noSampleRun = 2)
    (ht : s.testStands g) : ((freed s g).noSample g goOn).arbitrate g = (freed s g).noSample g goOn := by
  rw [noSample_freed_silences h ht]
  refine testStopped_arbitrate _ ?_ ?_
  all_goals rw [announced_group, State.setGroup_group, if_pos rfl]
  rfl

theorem noSample_freed_silences_owed {goOn : State → State} (h : (s.group g).noSampleRun = 2) (ht : s.testStands g)
    (ho : (s.group g).restartPass = false) : (((freed s g).noSample g goOn).group g).restartPass = false := by
  rw [noSample_freed_silences h ht, testStopped_group]
  all_goals rw [announced_group, State.setGroup_group, if_pos rfl]
  exact ho

end

/-- The orders of a scan pass are those whose no-sample is counted (R13). -/
theorem scanNoSample_counts {p : ScanPurpose} (h : p ≠ .probe) :
    ∃ goOn : GroupId → State → State, ∀ (s : State) (g : GroupId), s.scanNoSample g p = s.noSample g (goOn g) := by
  cases p with
  | feed => exact ⟨fun g s => if (s.group g).vf.isSome then s.scanFrom g 0 else s.endPass g, fun _ _ => rfl⟩
  | line p => exact ⟨fun g s => s.scanFrom g (p.val + 1), fun _ _ => rfl⟩
  | checkMain p => exact ⟨fun g s => s.ready g (.checkSecond p none), fun _ _ => rfl⟩
  | checkSecond p m => exact ⟨fun g s => s.endPass g, fun _ _ => rfl⟩
  | probe => exact absurd rfl h

/-- Settles O41, by the no-sample run: below the third in a row the pass goes on, and at the third the group is
SILENT. -/
theorem noSamplesSilenceGroup : Obligations.NoSamplesSilenceGroup := by
  intro s e g p m he r counted
  let b : State := { s with orders := [] }
  have hgroup : counted.group g = { r with noSampleRun := r.noSampleRun + 1, port := none } :=
    Vector.getElem_set_self g.isLt
  have hport : (counted.group g).port = none := by rw [hgroup]
  have owed {q : ScanPurpose} (hh : s.scannerHolds g q) : (counted.group g).restartPass = false := by
    rw [hgroup]
    exact hh.2
  have ends {q : ScanPurpose} (hh : s.scannerHolds g q) {t : State} (ht : (freed b g).scanNoSample g q = t)
      (ho : (t.group g).restartPass = false) : exec e s = .next (t.arbitrate g) := by
    rw [exec_orderEnds he, endOrder_noSample (s := b) hh (by rw [ht]; exact ho), ht]
  refine ⟨fun hr => ?_, fun hh hr hstands => ?_⟩
  · have counts (goOn : State → State) : (freed b g).noSample g goOn = goOn counted := noSample_freed_counted (s := b) hr
    let feed (t : State) : State := if (t.group g).vf.isSome then t.scanFrom g 0 else t.endPass g
    refine ⟨fun hh => ?_, fun hh hv => ?_, fun hh hv => ?_, fun hh => ?_, fun hh => ?_⟩
    · exact ⟨_, ends hh (counts fun t => t.scanFrom g (p.val + 1)) (scanFrom_owed _ (owed hh)), scanFrom_goesOn _ hport⟩
    · have hv : (counted.group g).vf.isSome = true := by rw [hgroup]; exact hv
      exact ⟨_, ends hh ((counts feed).trans (if_pos hv)) (scanFrom_owed _ (owed hh)), scanFrom_goesOn _ hport⟩
    · have hv : (counted.group g).vf.isSome = false := by rw [hgroup]; exact congrArg Option.isSome hv
      refine (ends hh ((counts feed).trans (if_neg (by rw [hv]; decide))) (endPass_owed (owed hh))).trans ?_
      rw [endPass_arbitrate hport]
    · refine (ends hh (counts fun t => t.ready g (.checkSecond p none)) ?_).trans (by rw [ready_arbitrate _ hport])
      rw [State.ready, State.setGroup_group, if_pos rfl]
      exact owed hh
    · rcases hh with hh | hh <;> refine (ends hh (counts fun t => t.endPass g) (endPass_owed (owed hh))).trans ?_ <;>
        rw [endPass_arbitrate hport]
  · obtain ⟨q, hq, hh⟩ : ∃ q, q ≠ ScanPurpose.probe ∧ s.scannerHolds g q := by
      rcases hh with hh | hh | hh | hh | hh <;> exact ⟨_, by simp, hh⟩
    obtain ⟨goOn, hgo⟩ := scanNoSample_counts hq
    refine (ends hh (hgo _ g) (noSample_freed_silences_owed (s := b) hr hstands hh.2)).trans ?_
    rw [noSample_freed_silences_arbitrate (s := b) hr hstands, noSample_freed_silences (s := b) hr hstands]
    rfl

/-- Settles O42, by the probe's outcome: a sample recovers the group and starts its pass, and a no-sample starts the
next delay. -/
theorem probeRecoversGroup : Obligations.ProbeRecoversGroup := by
  intro s e g x hh r
  let b : State := { s with orders := [] }
  constructor
  · intro he hf a
    have ha : a.group g = { r with health := .scanning, noSampleRun := 0, probeCount := 0, port := none } :=
      (announced_group _ g _).trans (Vector.getElem_set_self g.isLt)
    have hs : (freed b g).scanSample g .probe x = { a with groups := a.groups.set g (a.passBegun g) } := by
      rw [State.scanSample, State.recoverGroup, State.notifyAll_eq, freed_group, freed, setGroup_setGroup]
      exact startPass_of_fitted (s := a) (by rw [ha]; exact hf)
    rw [exec_orderEnds he, endOrder_sample (s := b) hh (by rw [hs, set_group]; rfl), hs,
      State.arbitrate_free _ g (by rw [set_group, State.passBegun, ha])]
  · intro he count
    have hs : (freed b g).scanNoSample g .probe = b.setGroup g { r with
        port := none, probeCount := count
        probeDelay := some { length := 100 * 2 ^ min count 6, due := s.clock + 100 * 2 ^ min count 6 } } := by
      simp only [State.scanNoSample, State.startProbeDelay, freed_group, State.setGroup_group, if_true]
      rw [freed, setGroup_setGroup, setGroup_setGroup]
      rfl
    rw [exec_orderEnds he, endOrder_noSample (s := b) hh (by rw [hs, State.setGroup_group, if_pos rfl]; exact hh.2), hs,
      State.arbitrate_free _ g (by rw [State.setGroup_group, if_pos rfl])]
    rfl

end Sys2Proof.Proofs

/-! PROOFS. The samples of the scanner (R8 to R11, R20 to R30): the class a sample enters debounce with, the counting
of path checks, and where the pass goes on. -/

namespace Sys2Proof.Proofs

open Sys2Proof Sys2Proof.Machine

section

variable {s t : State} {g : GroupId} {n : LineId}

/-! ### Classification -/

/-- An operation on calls, lines and links leaves the groups' records. -/
theorem groups_of_calls (h : Calls s t) : t.groups = s.groups :=
  show (calm t).groups = (calm s).groups by rw [h.calm]

theorem debounceLine_groups (raw : RawClass) : (s.debounceLine n raw).groups = s.groups := by
  unfold State.debounceLine
  dsimp only
  split
  · exact (groups_of_calls ((Calls.refl (s.setClassifier n _)).classChange n _)).trans rfl
  · rfl

/-- What tracking and its LEAKY flag make of a classifier (R26, R27). -/
def trackedBy (p : Profile) (k : Classifier) (ohms : Nat) : Classifier :=
  { k with rTrack := tracked p k.rTrack ohms, leaky := tracked p k.rTrack ohms < p.leak }

theorem trackLine_eq (ohms : Nat) : s.trackLine n ohms =
    if (trackedBy (s.profileOf n) (s.classifier n) ohms).leaky = (s.classifier n).leaky then
      s.setClassifier n (trackedBy (s.profileOf n) (s.classifier n) ohms)
    else (s.setClassifier n (trackedBy (s.profileOf n) (s.classifier n) ohms)).reported n
      (.lineCondition n (s.line n).condition (trackedBy (s.profileOf n) (s.classifier n) ohms).leaky) := by
  rw [← State.notifyLine_eq]
  unfold State.trackLine State.notifyCondition
  simp only [State.setClassifier_classifier, if_true, State.setClassifier_line]
  rfl

/-! ### The counting of path checks -/

/-- Two codes lie further apart than the tolerance (R11). -/
theorem natAbs_sub_tolerance (u v : Code) :
    decide (Config.pathTolerance < ((u.toNat : Int) - v.toNat).natAbs) =
      decide (25 < (u.toNat - v.toNat) + (v.toNat - u.toNat)) := by
  have h : ((u.toNat : Int) - v.toNat).natAbs = (u.toNat - v.toNat) + (v.toNat - u.toNat) := by omega
  rw [h]
  rfl

/-- The discrepancy run a path check leaves (R11). -/
def discrepancies (r : GroupRecord) (worse : Bool) : Nat := if worse then min (r.discrepancyRun + 1) 255 else 0

/-- The agreement run a path check leaves (R11). -/
def agreements (r : GroupRecord) (worse : Bool) : Nat := if worse then 0 else min (r.agreementRun + 1) 255

/-- A group record with a path check counted (R11). -/
def counting (r : GroupRecord) (worse : Bool) : GroupRecord :=
  { r with discrepancyRun := discrepancies r worse, agreementRun := agreements r worse }

/-- A path check that does not change the health is counted (R11). -/
theorem countCheck_counts {worse : Bool}
    (h : (s.group g).health = .scanning ∧ discrepancies (s.group g) worse ≠ 2 ∨
      (s.group g).health = .pathFault ∧ agreements (s.group g) worse ≠ 4) :
    s.countCheck g worse = s.setGroup g (counting (s.group g) worse) := by
  unfold State.countCheck
  unfold discrepancies agreements at h
  rcases h with ⟨hh, hn⟩ | ⟨hh, hn⟩ <;> simp only [hh, counting, discrepancies, agreements] <;>
    exact if_neg hn

/-- The second discrepancy in a row raises PATH_FAULT, and the fourth agreement in a row clears it (R11). -/
theorem countCheck_changes {worse : Bool} {health : GroupHealth}
    (h : (s.group g).health = .scanning ∧ discrepancies (s.group g) worse = 2 ∧ health = .pathFault ∨
      (s.group g).health = .pathFault ∧ agreements (s.group g) worse = 4 ∧ health = .scanning) :
    s.countCheck g worse = (s.setGroup g { s.group g with
      health := health, discrepancyRun := 0, agreementRun := 0 }).announced (.pathFault g (health = .pathFault)) := by
  rw [← State.notifyAll_eq]
  unfold State.countCheck
  unfold discrepancies agreements at h
  rcases h with ⟨hh, hn, rfl⟩ | ⟨hh, hn, rfl⟩ <;> simp only [hh] <;> exact if_pos hn

/-! ### Orders that are left behind -/

theorem endOrder_stale {o : PlacedOrder} {outcome : Option (Code × Code)} (hp : (s.group g).port = some o)
    (hf : o.fate = .stale) : s.endOrder g outcome =
      (if (s.group g).restartPass then (freed s g).startPass g else freed s g).arbitrate g := by
  have hr : ((freed s g).group g).restartPass = (s.group g).restartPass := by rw [freed_group]
  rw [← hr]
  obtain ⟨owner, mode, timer, fate⟩ := o
  cases hf
  simp only [State.endOrder, hp]
  rfl

theorem endOrder_lostFit {o : PlacedOrder} {outcome : Option (Code × Code)} {p : ScanPurpose}
    (hp : (s.group g).port = some o) (hf : o.fate = .lostFit) (ho : o.owner = .scanner p)
    (hr : (((freed s g).scanLostFit g p).group g).restartPass = false) :
    s.endOrder g outcome = ((freed s g).scanLostFit g p).arbitrate g := by
  obtain ⟨owner, mode, timer, fate⟩ := o
  cases hf
  cases ho
  simp only [State.endOrder, hp]
  exact if_neg (by rw [Bool.not_eq_true]; exact hr) |> congrArg (State.arbitrate · g)

/-! ### A sample of a line -/

/-- The state a sample of a line leads to, as R20 to R30 say it. -/
def sampleTaken (s : State) (n : LineId) (vf : Option Code) (x : Code × Code) : State :=
  let profile := s.profileOf n
  let k := s.classifier n
  let ohms := resistance x.1 x.2
  let raw := rawClass profile k ohms
  let foreign : Bool := match vf with
    | some v => v.toNat + 50 < x.1.toNat
    | none => false
  let measured : Classifier := { k with rLast := some ohms }
  let track := tracked profile k.rTrack ohms
  let leaky : Bool := track < profile.leak
  let seen : State := s.setClassifier n measured
  let idle : State := s.setClassifier n { measured with rTrack := track, leaky := leaky }
  match (s.line n).condition with
  | .notFitted | .outOfService | .testing _ => s
  | .ringing _ _ _ =>
    if foreign then s else if raw = .offhook then seen.debounceLine n .offhook else seen
  | k0 =>
    if foreign then s.debounceLine n .foreign
    else if raw = .idle then
      (if leaky = k.leaky then idle
        else idle.reported n (.lineCondition n k0 leaky)).debounceLine n .idle
    else seen.debounceLine n raw

theorem setClassifier_setClassifier (k k' : Classifier) :
    (s.setClassifier n k).setClassifier n k' = s.setClassifier n k' := by
  simp only [State.setClassifier, Vector.set_set]

/-- A sample of a line in service is tracked when it is IDLE, and enters debounce by its class (R20 to R29). -/
theorem classifyFull_eq (vc ic : Code) (vf : Option Code) : s.classifyFull n vc ic vf =
    let k := s.classifier n
    let ohms := resistance vc ic
    let idle := s.setClassifier n (trackedBy (s.profileOf n) { k with rLast := some ohms } ohms)
    if isForeign vc vf then s.debounceLine n .foreign
    else if rawClass (s.profileOf n) k ohms = .idle then
      (if decide (tracked (s.profileOf n) k.rTrack ohms < (s.profileOf n).leak) = k.leaky then idle
        else idle.reported n (.lineCondition n (s.line n).condition
          (decide (tracked (s.profileOf n) k.rTrack ohms < (s.profileOf n).leak)))).debounceLine n .idle
    else (s.setClassifier n { k with rLast := some ohms }).debounceLine n (rawClass (s.profileOf n) k ohms) := by
  unfold State.classifyFull
  dsimp only
  by_cases hf : isForeign vc vf = true
  · rw [if_pos hf, if_pos hf]
  rw [if_neg hf, if_neg hf]
  by_cases hi : rawClass (s.profileOf n) (s.classifier n) (resistance vc ic) = .idle
  · rw [if_pos hi, if_pos hi, trackLine_eq]
    simp only [State.setClassifier_classifier, if_true, State.setClassifier_profileOf, setClassifier_setClassifier,
      State.setClassifier_line, hi]
    rfl
  · rw [if_neg hi, if_neg hi]

theorem classify_eq (vf : Option Code) (x : Code × Code) : s.classify n x.1 x.2 vf = sampleTaken s n vf x := by
  have hfull : s.classifyFull n x.1 x.2 vf = _ := classifyFull_eq x.1 x.2 vf
  unfold State.classify sampleTaken
  cases hk : (s.line n).condition with
  | ringing c ch t =>
    show s.classifyRinging n x.1 x.2 vf = _
    unfold State.classifyRinging
    dsimp only
    by_cases ho : rawClass (s.profileOf n) (s.classifier n) (resistance x.1 x.2) = .offhook
    · rw [if_pos ho, if_pos ho, ho]
      rfl
    · rw [if_neg ho, if_neg ho]
      rfl
  | testing p => rfl
  | notFitted => rfl
  | outOfService => rfl
  | _ => rw [hk] at hfull; exact hfull

theorem trackLine_groups (ohms : Nat) : (s.trackLine n ohms).groups = s.groups := by
  rw [trackLine_eq]
  split
  · rfl
  · rw [← State.notifyLine_eq]
    exact (groups_of_calls ((Calls.refl _).notifyLine n _)).trans rfl

theorem classifyFull_groups (vc ic : Code) (vf : Option Code) : (s.classifyFull n vc ic vf).groups = s.groups := by
  unfold State.classifyFull
  dsimp only
  split
  · exact debounceLine_groups _
  · rw [debounceLine_groups]
    split
    · rw [trackLine_groups, State.setClassifier_groups]
    · rfl

theorem classify_groups (vc ic : Code) (vf : Option Code) : (s.classify n vc ic vf).groups = s.groups := by
  unfold State.classify
  split
  case h_4 =>
    unfold State.classifyRinging
    dsimp only
    split
    · rfl
    · split
      · rw [debounceLine_groups, State.setClassifier_groups]
      · rfl
  case h_5 => exact classifyFull_groups ..
  all_goals rfl

end

/-- Settles O40, by the fate of the order and the purpose of the scanner's own: the sample is used, and the pass goes
on from the state it leaves. -/
theorem scanSamplesMovePass : Obligations.ScanSamplesMovePass := by
  intro s e g p x m r n k freed' sampled
  let b : State := { s with orders := [] }
  have group (q : GroupRecord) : (freed' q).group g = { q with port := none } :=
    Vector.getElem_set_self g.isLt
  have port (q : GroupRecord) : ((freed' q).group g).port = none := by rw [group]
  refine ⟨fun he o ho => ?_, fun he => ?_⟩
  · obtain ⟨outcome, hout⟩ := Option.isSome_iff_exists.1 he
    have ends {t : State} (ht : b.endOrder g outcome = t) : exec e s = .next t := ht ▸ exec_orderEnds hout
    refine ⟨fun hf => ⟨fun hr => ends ?_, fun hr hfit => ends ?_⟩, fun hf hr => ⟨fun hl => ?_, fun hl => ends ?_⟩⟩
    · refine (endOrder_stale (s := b) ho hf).trans ((congrArg (State.arbitrate · g) (if_neg ?_)).trans ?_)
      · exact fun h => Bool.false_ne_true (hr.symm.trans h)
      · exact State.arbitrate_free _ g (port r)
    · refine (endOrder_stale (s := b) ho hf).trans ((congrArg (State.arbitrate · g) (if_pos hr)).trans ?_)
      rw [startPass_of_fitted (by rw [freed_group]; exact hfit), State.arbitrate_free _ g (by rw [set_group, State.passBegun, freed_group])]
      exact congrArg (State.served · g) (setGroup_setGroup b g _ _)
    · exact ⟨_, ends (endOrder_lostFit (s := b) ho hf hl (scanFrom_owed _ (by rw [freed_group]; exact hr))),
        scanFrom_goesOn _ (port r)⟩
    · have hend : ∀ q, (o.owner = .scanner q ∧ ∀ t : State, t.scanLostFit g q = t.endPass g) →
          b.endOrder g outcome = (freed' r).passEnds g := by
        rintro q ⟨ho', hq⟩
        rw [endOrder_lostFit (s := b) ho hf ho' (by rw [hq]; exact endPass_owed (by rw [freed_group]; exact hr)), hq]
        exact endPass_arbitrate (port r)
      rcases hl with hl | hl | hl <;> exact hend _ ⟨hl, fun _ => rfl⟩
  · have hs : (freed b g).sampled g = sampled := by
      rw [State.sampled, freed_group, freed, setGroup_setGroup]
      rfl
    have ends {q : ScanPurpose} (hh : s.scannerHolds g q) {t : State} (ht : (freed b g).scanSample g q x = t)
        (ho : (t.group g).restartPass = false) : exec e s = .next (t.arbitrate g) := by
      rw [exec_orderEnds he, endOrder_sample (s := b) hh (by rw [ht]; exact ho), ht]
    refine ⟨fun hh => ?_, fun hh => ?_, fun hh => ?_, fun hh => ?_, fun hh => ?_⟩
    · have hv : (freed b g).scanSample g .feed x = (freed' { r with noSampleRun := 0, vf := some x.1 }).scanFrom g 0 := by
        simp only [State.scanSample, hs]
        refine congrArg (State.scanFrom · g 0) ?_
        rw [group]
        exact setGroup_setGroup b g _ _
      exact ⟨_, ends hh hv (scanFrom_owed _ (by rw [group]; exact hh.2)), scanFrom_goesOn _ (port _)⟩
    · intro profile ohms raw foreign measured track leaky seen idle after
      have ha : sampled.classify n x.1 x.2 (sampled.group g).vf = after := by
        rw [classify_eq, group]
        rfl
      have hg : after.group g = sampled.group g := by
        rw [← ha, State.group, classify_groups]
        rfl
      have hv : (freed b g).scanSample g (.line p) x = after.scanFrom g (p.val + 1) := by
        simp only [State.scanSample, hs]
        exact congrArg (State.scanFrom · g (p.val + 1)) ha
      exact ⟨_, ends hh hv (scanFrom_owed _ (by rw [hg, group]; exact hh.2)), scanFrom_goesOn _ (by rw [hg, group])⟩
    · have hv : (freed b g).scanSample g (.checkMain p) x = sampled.ready g (.checkSecond p (some x)) := by
        simp only [State.scanSample, hs]
      rw [ends hh hv, ready_arbitrate _ (port _)]
      rw [State.ready, State.setGroup_group, if_pos rfl, group]
      exact hh.2
    · have hv : (freed b g).scanSample g (.checkSecond p none) x = sampled.endPass g := by
        simp only [State.scanSample, hs]
      rw [ends hh hv (endPass_owed (by rw [group]; exact hh.2)), endPass_arbitrate (port _)]
    · intro differs worse disc agree counted changed
      have hw : pathsDisagree (sampleDiff m x).1 (sampleDiff m x).2 = worse := by
        exact congrArg₂ (· || ·) (natAbs_sub_tolerance m.1 x.1) (natAbs_sub_tolerance m.2 x.2)
      have hv : (freed b g).scanSample g (.checkSecond p (some m)) x = (sampled.countCheck g worse).endPass g := by
        simp only [State.scanSample, hs, hw]
      have passes {q : State} (hq : sampled.countCheck g worse = q) (hp : (q.group g).port = none)
          (ho : (q.group g).restartPass = false) : exec e s = .next (q.passEnds g) := by
        rw [ends hh (hv.trans (congrArg (State.endPass · g) hq)) (endPass_owed ho), endPass_arbitrate hp]
      have owed (q : GroupRecord) (hq : q.restartPass = r.restartPass) : ((freed' q).group g).restartPass = false := by
        rw [group]
        exact hq.trans hh.2
      have hg : sampled.group g = { r with noSampleRun := 0, port := none } := group _
      have hd' : discrepancies (sampled.group g) worse = disc := by rw [hg]; rfl
      have ha' : agreements (sampled.group g) worse = agree := by rw [hg]; rfl
      have health : (sampled.group g).health = r.health := by rw [hg]
      have counts : sampled.setGroup g (counting (sampled.group g) worse) = counted := by
        rw [hg]
        exact setGroup_setGroup b g _ _
      have changes (y : GroupHealth) : sampled.setGroup g { sampled.group g with
          health := y, discrepancyRun := 0, agreementRun := 0 } = changed y := by
        rw [hg]
        exact setGroup_setGroup b g _ _
      refine ⟨fun h hd => passes ?_ (port _) (owed _ rfl), fun h hd => passes ?_ ?_ ?_,
        fun h hd => passes ?_ (port _) (owed _ rfl), fun h hd => passes ?_ ?_ ?_⟩
      · exact (countCheck_counts (.inl ⟨health.trans h, hd' ▸ hd⟩)).trans counts
      · rw [countCheck_changes (.inl ⟨health.trans h, hd'.trans hd, rfl⟩), changes]
        rfl
      · rw [announced_group, port]
      · rw [announced_group]
        exact owed _ rfl
      · exact (countCheck_counts (.inr ⟨health.trans h, ha' ▸ hd⟩)).trans counts
      · rw [countCheck_changes (.inr ⟨health.trans h, ha'.trans hd, rfl⟩), changes]
        rfl
      · rw [announced_group, port]
      · rw [announced_group]
        exact owed _ rfl

end Sys2Proof.Proofs

/-! PROOFS. The test unit (R136 to R147): TEST_LINE, and what ends a test or takes it on. -/

namespace Sys2Proof.Proofs

open Sys2Proof Sys2Proof.Machine

/-! ### TEST_LINE -/

section

variable {a : State} {l : Link} {n : LineId} {kind : TestKind} {p : PriorCondition}

/-- The record a taken TEST_LINE makes, its order not yet at the port (R136, R138). -/
def startRecord (a : State) (l : Link) (n : LineId) (kind : TestKind) : TestRecord :=
  { line := n, kind := kind, requester := l, phase := firstPhase kind, start := a.tick
    limit := a.timerFromTick Config.testTime
    dwell := if kind = .insulation then some (a.timer Config.dwellTime) else none
    order := if kind = .insulation then .none else .waiting, samples := [] }

/-- The orders to the drives of a test that starts (R138, R141). -/
def startDrives (n : LineId) (kind : TestKind) : List Order :=
  [.hookSense n true] ++ if kind = .insulation then [.testSource n true] else []

theorem startTest_eq (command : Byte) (ht : (a.line n).tone = .none) :
    a.startTest l n kind p command = { a.answered l command .ok [byte n.val, byte kind.code] with
      lines := a.lines.set n { condition := .testing p, tone := .none }
      tests := a.tests.set n.group (some (startRecord a l n kind))
      orders := a.orders ++ startDrives n kind } := by
  unfold State.startTest startDrives
  dsimp only
  rw [enter_toneless (by exact ht) rfl, State.reply_eq]
  cases kind with
  | insulation =>
    refine Eq.trans ?_ (congrArg (fun os => { a.answered l command .ok [byte n.val, byte TestKind.insulation.code] with
      lines := a.lines.set n { condition := .testing p, tone := .none }
      tests := a.tests.set n.group (some (startRecord a l n .insulation)), orders := os })
      (List.append_assoc a.orders [.hookSense n true] [.testSource n true]))
    cases l <;> rfl
  | openWire => cases l <;> rfl
  | pathCheck => cases l <;> rfl

/-- A test order that waits is placed on a free port with the group's settle mode (R3, R138). -/
theorem startTest_free (command : Byte) (ht : (a.line n).tone = .none) (hk : kind ≠ .insulation)
    (hp : (a.group n.group).port = none) :
    (a.startTest l n kind p command).arbitrate n.group =
      { a.answered l command .ok [byte n.val, byte kind.code] with
        lines := a.lines.set n { condition := .testing p, tone := .none }
        tests := a.tests.set n.group (some { startRecord a l n kind with order := .placed })
        groups := a.groups.set n.group { a.group n.group with port := some (a.newOrder n.group .test) }
        orders := a.orders ++ [.hookSense n true] ++ [.measure n.group (.position n.pos) .main] } := by
  have hg (m : Message) : (a.told l m).group = a.group := by cases l <;> rfl
  have hc (m : Message) : (a.told l m).clock = a.clock := by cases l <;> rfl
  rw [startTest_eq command ht]
  refine (State.arbitrate_test _ n.group { startRecord a l n kind with order := .waiting } ?_ ?_ rfl).trans ?_
  · exact (congrArg (fun f => (f n.group).port) (hg _)).trans hp
  · refine (Vector.getElem_set_self n.group.isLt).trans ?_
    rw [startRecord, if_neg hk, if_neg hk]
  · simp only [Vector.set_set, startDrives, hk, if_false, List.append_nil]
    have hkinds : kind = .openWire ∨ kind = .pathCheck := by cases kind <;> simp_all
    rcases hkinds with rfl | rfl <;> cases l <;> rfl

/-- A test whose port is taken, or that dwells first, waits (R3, R138, R141). -/
theorem startTest_waits (command : Byte) (ht : (a.line n).tone = .none)
    (h : (a.group n.group).port ≠ none ∨ kind = .insulation ∧ (a.group n.group).scanWaiting = none) :
    (a.startTest l n kind p command).arbitrate n.group = a.startTest l n kind p command := by
  have hg (m : Message) : (a.told l m).group n.group = a.group n.group := by cases l <;> rfl
  rw [startTest_eq command ht]
  rcases h with hp | ⟨rfl, hw⟩
  · obtain ⟨o, ho⟩ := Option.ne_none_iff_exists'.1 hp
    exact State.arbitrate_busy _ n.group o ((congrArg GroupRecord.port (hg _)).trans ho)
  · refine State.arbitrate_idle _ n.group (fun t hm => ?_) ((congrArg GroupRecord.scanWaiting (hg _)).trans hw)
    have he : some (startRecord a l n .insulation) = some t := (Vector.getElem_set_self n.group.isLt).symm.trans hm
    cases Option.some.inj he
    exact TestOrder.noConfusion

theorem testLine_refused {reason : Byte} (hp : (a.line n).condition.prior? = some p)
    (h : a.testRefusal n kind = some reason) :
    a.testLine l n kind = a.answered l Command.testLine .testRefused [reason] := by
  simp only [State.testLine, hp, h, State.reply_eq]

theorem testLine_accepted (hp : (a.line n).condition.prior? = some p) (h : a.testRefusal n kind = none) :
    a.testLine l n kind = if (a.test n.group).isSome then a.answered l Command.testLine .testBusy []
      else (a.startTest l n kind p Command.testLine).arbitrate n.group := by
  simp only [State.testLine, hp, h, State.refuse_eq]

end

theorem kindOfNat_eq_none : ∀ {k : Nat}, 2 < k → kindOfNat k = none
  | _ + 3, _ => rfl

/-- Settles O28, in the order of R137: the checks of the values and of the line's state, and then the test record,
its drives and its first order by the port. -/
theorem testLineStartsTest : Obligations.TestLineStartsTest := by
  intro s l b k n kind p hadm a g reply out
  have hout : out = .next (a.withLine l Command.testLine b fun n =>
      match kindOfNat k.toNat with
      | some kind => a.withFitted l Command.testLine n (a.testLine l n kind)
      | none => a.refuse l Command.testLine .badValue) := taking_command hadm (b, k) _
  refine ⟨fun hbad => ?_, fun hn hk => ?_⟩
  · rw [hout]
    by_cases hb : 64 ≤ b.toNat
    · rw [withLine_none hb]
    · have hl : lineOfNat b.toNat = some ⟨b.toNat, by omega⟩ := dif_pos (by omega)
      rw [withLine_some hl, kindOfNat_eq_none (by omega)]
      exact congrArg _ (State.refuse_eq ..)
  have hact : out = .next (a.withFitted l Command.testLine n (a.testLine l n kind)) := by
    rw [hout, withLine_some hn]
    simp only [hk]
  refine ⟨fun hf => ?_, fun hf hi hp => ?_, fun r hr hi => ?_, fun hp => ?_⟩
  · rw [hact, withFitted_of_eq hf]
  · rw [hact, withFitted_of_ne hf]
    simp only [State.testLine, hp, refuseBusy_eq, busyId_of_ne hi]
    rfl
  · rw [hact, withFitted_of_ne (by rw [hi]; exact Condition.noConfusion)]
    simp only [State.testLine, hi, Condition.prior?, refuseBusy_eq, busyId_of_record hi hr]
    rfl
  have hf : (a.line n).condition ≠ .notFitted := fun h => by rw [h] at hp; cases hp
  have hact : out = .next (a.testLine l n kind) := by rw [hact, withFitted_of_ne hf]
  refine ⟨fun hh => ?_, fun hh hk => ?_, fun hs hh => ⟨fun hpow => ?_, fun hpow ht => ?_, ?_⟩⟩
  · rw [hact, testLine_refused hp (if_pos hh)]
    rfl
  · have hr : a.testRefusal n kind = some 1 := by
      simp only [State.testRefusal, show (a.group n.group).health = .pathFault from hh]
      simp [hk]
    rw [hact, testLine_refused hp hr]
    rfl
  · have hr : a.testRefusal n kind = some 2 := by
      rw [State.testRefusal, if_neg hs, if_neg, if_pos hpow]
      rintro ⟨hk, hf⟩
      rcases hh with hh | hh
      · cases hf.symm.trans hh
      · exact hk hh
    rw [hact, testLine_refused hp hr]
    rfl
  all_goals
    have hr (hpow : a.power = .normal) : a.testRefusal n kind = none := by
      rw [State.testRefusal, if_neg hs, if_neg, if_neg (not_not_intro hpow)]
      rintro ⟨hk, hf⟩
      rcases hh with hh | hh
      · cases hf.symm.trans hh
      · exact hk hh
  · rw [hact, testLine_accepted hp (hr hpow)]
    exact congrArg _ (if_pos ht)
  · intro hpow ht htone hfree dwells places record order
    have hstart : out = .next ((a.startTest l n kind p Command.testLine).arbitrate n.group) := by
      rw [hact, testLine_accepted hp (hr hpow)]
      exact congrArg _ (if_neg (by rw [show a.test n.group = none from ht]; decide))
    by_cases hk : kind = .insulation
    · subst hk
      have hpl : places = false := Bool.and_false _
      have ho : a.orders ++ startDrives n .insulation = a.orders ++ [Order.hookSense n true] ++
          (if dwells then [Order.testSource n true] else []) ++
          (if places then [Order.measure g (.position n.pos) .main] else []) := by
        rw [hpl]
        simp [startDrives, dwells]
      rw [hstart, startTest_waits _ htone, startTest_eq _ htone, ho, hpl]
      · refine congrArg Host.Outcome.next ?_
        cases l <;> rfl
      · by_cases hport : (a.group g).port = none
        · exact .inr ⟨rfl, hfree hport⟩
        · exact .inl hport
    · have hd : dwells = false := decide_eq_false hk
      have hr (o : TestOrder) : { startRecord a l n kind with order := o } = { record with order := o } := by
        simp only [startRecord, record, dwells, hk, decide_false, Bool.false_eq_true, if_false, State.timerFromTick]
        cases kind <;> rfl
      by_cases hport : (a.group g).port = none
      · have hpl : places = true := by
          rw [show places = ((a.group g).port.isNone && !dwells) from rfl, hd, hport]
          rfl
        have hrec : { record with order := .placed } = record := by simp only [record, hd, hpl] <;> rfl
        rw [hstart, startTest_free _ htone hk hport, hr, hrec]
        refine congrArg Host.Outcome.next ?_
        simp only [hd, hpl, Bool.false_eq_true, if_false, if_true, List.append_nil]
        cases l <;> rfl
      · have hpl : places = false := by
          rw [show places = ((a.group g).port.isNone && !dwells) from rfl, hd]
          simpa [Option.isSome_iff_ne_none] using hport
        have hrec : startRecord a l n kind = record := by
          refine Eq.trans ?_ ((hr .waiting).trans ?_)
          · simp only [startRecord, hk, if_false]
          · simp only [record, hd, hpl] <;> rfl
        rw [hstart, startTest_waits _ htone (.inl hport), startTest_eq _ htone, hrec]
        refine congrArg Host.Outcome.next ?_
        simp only [hd, hpl, Bool.false_eq_true, if_false, List.append_nil, startDrives, hk]
        cases l <;> rfl

end Sys2Proof.Proofs

/-! PROOFS. What ends a test or takes it on (R139 to R147). -/

namespace Sys2Proof.Proofs

open Sys2Proof Sys2Proof.Machine

section

variable {s : State} {g : GroupId} {t : TestRecord}

theorem set_test (s : State) (g : GroupId) (x : Option TestRecord) :
    State.test { s with tests := s.tests.set g x } g = x := Vector.getElem_set_self g.isLt

/-- What a test's own order is at makes no difference to its end (R143). -/
theorem testStopped_reordered (o : TestOutcome) (ht : s.test g = some t) (w : TestOrder) :
    (s.setTest g (some { t with order := w })).testStopped g o = s.testStopped g o := by
  have hw : (s.setTest g (some { t with order := w })).test g = some { t with order := w } := set_test s g _
  unfold State.testStopped
  simp only [hw, ht]
  refine congrArg (State.informed · _ _) ?_
  simp only [State.setTest, Vector.set_set]
  rfl

/-- The last order of a test that stands ends it (R139 to R143). -/
theorem endTest_last (o : TestOutcome) (ht : s.test g = some t) (hs : s.testStands g) (w : TestOrder) :
    (s.updTest g { t with order := w }).endTest g o = s.testStopped g o := by
  rw [State.updTest, endTest_eq, testStopped_reordered o ht]
  intro u hu _
  have hu : some { t with order := w } = some u := (set_test s g _).symm.trans hu
  cases Option.some.inj hu
  exact (hs t ht).2.2

theorem setTest_announced (n : Notice) (x : Option TestRecord) :
    (s.setTest g x).announced n = (s.announced n).setTest g x := by
  rw [announced_eq, announced_eq]
  rfl

theorem testStands_of_eq {u : State} (hs : s.testStands g) (ht : u.tests = s.tests) (hl : u.lines = s.lines) :
    u.testStands g := by
  intro t hm
  have hm : s.test g = some t := by rw [← hm, State.test, State.test, ht]
  have hline : u.line t.line = s.line t.line := by rw [State.line, State.line, hl]
  rw [hline]
  exact hs t hm

/-- A live order of the test unit ends (R3, R139). -/
theorem endOrder_test {outcome : Option (Code × Code)} (hh : (s.group g).port.any (fun o => o.owner = .test ∧ o.fate = .live))
    (hr : (((freed s g).testOrderEnd g outcome).group g).restartPass = false) :
    s.endOrder g outcome = ((freed s g).testOrderEnd g outcome).arbitrate g := by
  obtain ⟨⟨owner, mode, timer, fate⟩, hp, ho⟩ := (Option.any_eq_true ..).1 hh
  obtain ⟨rfl, rfl⟩ := of_decide_eq_true ho
  have hp : (s.group g).port = some _ := hp
  simp only [State.endOrder, hp]
  exact if_neg (by rw [Bool.not_eq_true]; exact hr) |> congrArg (State.arbitrate · g)

/-- The fall of an OPEN_WIRE test's voltage that continues the wire (R140). -/
theorem openWireOutcome_eq (before after : Code) : openWireOutcome before after =
    if after.toNat + 100 ≤ before.toNat then .continuous before after else .openWire before after := by
  have h : (Config.continuousDrop ≤ (before.toNat : Int) - after.toNat) ↔ after.toNat + 100 ≤ before.toNat := by
    show (100 : Int) ≤ _ ↔ _
    omega
  unfold openWireOutcome
  exact if_congr h rfl rfl

theorem exec_hookSense {n : LineId} (ht : s.test n.group = some t) :
    exec (.hookSense n) s = .next (if t.line = n then
      State.endTest { s with orders := [] } n.group (.aborted .call) else { s with orders := [] }) := by
  have ht : State.test { s with orders := [] } n.group = some t := ht
  show Host.Outcome.next _ = _
  simp only [ht]

theorem endDwell_running {d : Timer} {phase : TestPhase} (ht : s.test g = some t) (hd : t.dwell = some d)
    (hp : afterDwell t.phase = some phase) : s.endDwell g =
      (s.updTest g { t with dwell := none, phase := phase, order := .waiting }).arbitrate g := by
  simp only [State.endDwell, ht, hd, hp]

/-! ### The sample of each phase -/

section

variable {x m : Code × Code}

theorem testOrderEnd_sample (ht : s.test g = some t) : s.testOrderEnd g (some x) = s.testSample g t x := by
  simp only [State.testOrderEnd, ht]

theorem testSample_measureBefore (h : t.phase = .measureBefore) : s.testSample g t x =
    (s.updTest g { t with
      phase := .dwell, order := .none, samples := [x], dwell := some (s.timer Config.dwellTime) }).give
        (.sink t.line true) := by
  cases t
  cases h
  rfl

theorem testSample_measureAfter (h : t.phase = .measureAfter) (hm : t.samples = [m]) : s.testSample g t x =
    (s.updTest g { t with order := .none }).endTest g (openWireOutcome m.1 x.1) := by
  cases t
  cases h
  cases hm
  rfl

theorem testSample_measure (h : t.phase = .measure) : s.testSample g t x =
    (s.updTest g { t with order := .none }).endTest g (s.insulationOutcome t.line x.1 x.2) := by
  cases t
  cases h
  rfl

theorem testSample_measureMain (h : t.phase = .measureMain) : s.testSample g t x =
    s.updTest g { t with phase := .measureCheck, order := .waiting, samples := [x] } := by
  cases t
  cases h
  rfl

theorem testSample_measureCheck (h : t.phase = .measureCheck) (hm : t.samples = [m]) : s.testSample g t x =
    ((s.updTest g { t with order := .none }).countCheck g
      (pathsDisagree (sampleDiff m x).1 (sampleDiff m x).2)).endTest g (pathOutcome m x) := by
  cases t
  cases h
  cases hm
  rfl

end

end

/-- Settles O51, by the event: a limit and the hook end the test, a dwell makes its next order ready, and a sample is
its phase's. -/
theorem testEventsActOnTest : Obligations.TestEventsActOnTest := by
  intro s e g t x m ht hstands r quiet holds
  have hq : quiet.testStands g := hstands
  have hline : t.line.group = g := (hstands t ht).1
  have tone : ∀ u ∈ quiet.test g, (quiet.line u.line).condition.isTesting = true → (quiet.line u.line).tone = .none :=
    fun u hu _ => (hstands u hu).2.2
  refine ⟨⟨?_, ?_⟩, fun n hn hne => ?_, fun hd => ?_, fun hd => ?_, fun hh hr => ?_⟩
  · exact congrArg Host.Outcome.next (endTest_eq _ tone)
  · rw [exec_hookSense (t := t) (hline ▸ ht), if_pos rfl, hline]
    exact congrArg Host.Outcome.next (endTest_eq _ tone)
  · rw [exec_hookSense (t := t) (hn ▸ ht), if_neg (Ne.symm hne)]
  · intro waits next
    obtain ⟨d, hd⟩ := Option.isSome_iff_exists.1 hd
    have hnext (phase : TestPhase) : (waits phase).arbitrate g = next phase := by
      show _ = if r.port.isSome then waits phase else (waits phase).served g
      cases hp : r.port with
      | some o => exact State.arbitrate_busy (waits phase) g o hp
      | none => exact State.arbitrate_free (waits phase) g hp
    have ends {phase : TestPhase} (hp : afterDwell t.phase = some phase) :
        exec (.dwellTimerExpiry g) s = .next (next phase) :=
      congrArg Host.Outcome.next ((endDwell_running (s := quiet) ht hd hp).trans (hnext phase))
    exact ⟨fun hp => ends (by rw [hp]; rfl), fun hp => ends (by rw [hp]; rfl)⟩
  · show Host.Outcome.next (State.endDwell quiet g) = _
    simp only [State.endDwell, show quiet.test g = some t from ht, hd]
  · intro freed' ended
    have group (q : GroupRecord) : (freed' q).group g = { q with port := none } := Vector.getElem_set_self g.isLt
    have hold (q : GroupRecord) : (freed' q).testStands g := hstands
    have owed {a : State} (hp : (a.group g).port = none) (ho : (a.group g).restartPass = false) (o : TestOutcome) :
        ((a.testStopped g o).group g).restartPass = false := by rw [testStopped_group o hp, ho]
    have ends {outcome : Option (Code × Code)} (he : s.orderEnds g e = some outcome) {b : State}
        (hb : (freed' r).testOrderEnd g outcome = b) (hp : (b.group g).port = none)
        (ho : (b.group g).restartPass = false) : exec e s = .next (b.served g) := by
      subst hb
      rw [exec_orderEnds he, endOrder_test (s := quiet) hh ho]
      exact congrArg Host.Outcome.next (State.arbitrate_free _ g hp)
    have stops {outcome : Option (Code × Code)} (he : s.orderEnds g e = some outcome) {a : State} {o : TestOutcome}
        (hb : (freed' r).testOrderEnd g outcome = a.testStopped g o) (hp : (a.group g).port = none)
        (ho : (a.group g).restartPass = false) : exec e s = .next (ended a o) :=
      ends he hb (by rw [testStopped_group o hp, hp]) (owed hp ho o)
    have htf (q : GroupRecord) : (freed' q).test g = some t := ht
    have hfree : ((freed' r).group g).port = none := by rw [group]
    have howed : ((freed' r).group g).restartPass = false := by rw [group]; exact hr
    refine ⟨fun he => stops he ?_ hfree howed, fun he => ⟨fun hph => ends he ?_ ?_ ?_, fun hph hsm => stops he ?_ hfree howed,
      fun hph => stops he ?_ hfree howed, fun hph => ?_, fun hph hsm => ?_⟩⟩
    · simp only [State.testOrderEnd, htf]
      exact endTest_eq _ fun u hu _ => (hstands u hu).2.2
    · exact (testOrderEnd_sample (htf r)).trans (testSample_measureBefore hph)
    · exact hfree
    · exact howed
    · rw [testOrderEnd_sample (htf r), testSample_measureAfter hph hsm, openWireOutcome_eq]
      exact endTest_last _ (htf r) (hold r) _
    · rw [testOrderEnd_sample (htf r), testSample_measure hph]
      refine (endTest_last _ (htf r) (hold r) _).trans ?_
      rw [State.insulationOutcome, hline, group]
      rfl
    · have hb := (testOrderEnd_sample (s := freed' r) (x := x) (htf r)).trans (testSample_measureMain hph)
      refine (ends he hb hfree howed).trans (congrArg Host.Outcome.next ?_)
      let u : TestRecord := { t with phase := .measureCheck, order := .waiting, samples := [x] }
      have hu : ((freed' r).setTest g (some u)).test g = some u := set_test (freed' r) g _
      refine (State.arbitrate_free ((freed' r).updTest g u) g hfree).symm.trans ((State.arbitrate_test ((freed' r).updTest g u) g u hfree hu rfl).trans ?_)
      have hg : ((freed' r).updTest g u).group g = { r with port := none } := group r
      have hn : ((freed' r).updTest g u).newOrder g .test = s.newOrder g .test := by
        rw [State.newOrder, hg]
        rfl
      rw [hg, hn]
      simp only [State.updTest, State.setTest, freed', Vector.set_set]
      rfl
    · intro dv di worse outcome disc agree counted changed
      have hw : pathsDisagree (sampleDiff m x).1 (sampleDiff m x).2 = worse := (Bool.decide_or _ _).symm
      have ho : pathOutcome m x = outcome := if_congr (by rw [hw]) rfl rfl
      have hb : (freed' r).testOrderEnd g (some x) =
          ((((freed' r).updTest g { t with order := .none }).countCheck g worse).endTest g outcome) := by
        rw [testOrderEnd_sample (htf r), testSample_measureCheck hph hsm, hw, ho]
      have hg : ((freed' r).updTest g { t with order := .none }).group g = { r with port := none } := group r
      have health : (((freed' r).updTest g { t with order := .none }).group g).health = r.health := by rw [hg]
      have hd : discrepancies (((freed' r).updTest g { t with order := .none }).group g) worse = disc := by
        rw [hg]
        rfl
      have ha : agreements (((freed' r).updTest g { t with order := .none }).group g) worse = agree := by
        rw [hg]
        rfl
      have counts : ((freed' r).updTest g { t with order := .none }).setGroup g
          (counting (((freed' r).updTest g { t with order := .none }).group g) worse) =
            counted.updTest g { t with order := .none } := by
        rw [hg]
        exact setGroup_setGroup (quiet.setTest g _) g _ _
      have stops' {a : State} (hc : ((freed' r).updTest g { t with order := .none }).countCheck g worse =
          a.updTest g { t with order := .none }) (hta : a.test g = some t) (hsa : a.testStands g)
          (hp : (a.group g).port = none) (hra : (a.group g).restartPass = false) :
          exec e s = .next (ended a outcome) :=
        stops he (hb.trans ((congrArg (State.endTest · g outcome) hc).trans (endTest_last _ hta hsa _))) hp hra
      have changes (y : GroupHealth) (n : Notice) : (((freed' r).updTest g { t with order := .none }).setGroup g
          { ((freed' r).updTest g { t with order := .none }).group g with
            health := y, discrepancyRun := 0, agreementRun := 0 }).announced n =
          ((changed y).announced n).updTest g { t with order := .none } := by
        rw [hg]
        refine (congrArg (State.announced · n) (setGroup_setGroup (quiet.setTest g _) g _ _)).trans ?_
        exact setTest_announced (s := changed y) n _
      have stopsCounted (hc : ((freed' r).updTest g { t with order := .none }).countCheck g worse =
          counted.updTest g { t with order := .none }) : exec e s = .next (ended counted outcome) :=
        stops' hc (htf _) (hold _) (by rw [group]) (by rw [group]; exact hr)
      have stopsChanged {y : GroupHealth} {n : Notice} (hc : ((freed' r).updTest g { t with order := .none }).countCheck g worse =
          ((changed y).announced n).updTest g { t with order := .none }) :
          exec e s = .next (ended ((changed y).announced n) outcome) := by
        refine stops' hc ?_ ?_ ?_ ?_
        · rw [announced_eq]
          exact ht
        · rw [announced_eq]
          exact hstands
        all_goals rw [announced_group, group]
        exact hr
      refine ⟨fun hs hne => stopsCounted ?_, fun hs he => stopsChanged ?_, fun hs hne => stopsCounted ?_,
        fun hs he => stopsChanged ?_⟩
      · exact (countCheck_counts (.inl ⟨health.trans hs, hd ▸ hne⟩)).trans counts
      · exact (countCheck_changes (.inl ⟨health.trans hs, hd.trans he, rfl⟩)).trans (changes .pathFault _)
      · exact (countCheck_counts (.inr ⟨health.trans hs, ha ▸ hne⟩)).trans counts
      · exact (countCheck_changes (.inr ⟨health.trans hs, ha.trans he, rfl⟩)).trans (changes .scanning _)

end Sys2Proof.Proofs

/-! PROOFS. The inputs and the power state (R168, R169), and the tests a change of power ends (R145). -/

namespace Sys2Proof.Proofs

open Sys2Proof Sys2Proof.Machine

section

variable {s : State} {g h : GroupId} {o : TestOutcome}

/-! ### What the end of a test leaves alone -/

/-- What the end of a test leaves as it was, and the tests it ends. -/
def untested (s : State) : List CallRecord × Vector Channel 6 × PowerState × Vector (Option TestRecord) 8 :=
  (s.records, s.channels, s.power, s.tests)

theorem untested_leaveTesting (n : LineId) : untested (s.leaveTesting n) = untested s := by
  unfold State.leaveTesting
  split
  · rw [enter_eq]
    rfl
  · rfl

theorem untested_notify (l : Link) (n : Notice) : untested (s.notify l n) = untested s := by
  obtain ⟨k, hk⟩ := s.notify_spec l n
  rw [hk]
  cases l <;> rfl

theorem untested_restoreDrives (t : TestRecord) : untested (s.restoreDrives t) = untested s := by
  rw [restoreDrives_eq]
  rfl

/-- The end of a test drops its record, and leaves the calls, the channels and the power state (R143). -/
theorem untested_endTest : untested (s.endTest g o) = (s.records, s.channels, s.power, s.tests.set g none) := by
  unfold State.endTest
  cases ht : s.test g with
  | none =>
    have hs : s.tests.set g none = s.tests := by rw [← ht]; exact Vector.set_getElem_self g.isLt
    rw [hs]
    rfl
  | some t =>
    dsimp only
    rw [untested_notify]
    have hl (u : State) : untested (u.setTest g none) = ((untested u).1, (untested u).2.1, (untested u).2.2.1,
        (untested u).2.2.2.set g none) := rfl
    rw [hl, untested_leaveTesting, untested_restoreDrives]
    rfl

theorem endTest_test : (s.endTest g o).test h = if h = g then none else s.test h := by
  have ht : (s.endTest g o).tests = s.tests.set g none := congrArg (·.2.2.2) untested_endTest
  unfold State.test
  rw [ht]
  split
  · next e => rw [e]; exact Vector.getElem_set_self g.isLt
  · next e => exact Vector.getElem_set_ne _ _ fun he => e (Fin.ext he.symm)

/-- The tests of a list of groups end one after the other: none of them runs after it (R145). -/
theorem each_endTest (gs : List GroupId) :
    let t := s.each gs fun s g => s.endTest g o
    (t.records = s.records ∧ t.channels = s.channels ∧ t.power = s.power) ∧
    ∀ h, t.test h = if h ∈ gs then none else s.test h := by
  induction gs generalizing s with
  | nil => exact ⟨⟨rfl, rfl, rfl⟩, fun _ => by simp [State.each]⟩
  | cons g gs ih =>
    obtain ⟨⟨hr, hc, hp⟩, ht⟩ := ih (s := s.endTest g o)
    refine ⟨⟨hr.trans (congrArg (·.1) untested_endTest), hc.trans (congrArg (·.2.1) untested_endTest),
      hp.trans (congrArg (·.2.2.1) untested_endTest)⟩, fun h => (ht h).trans ?_⟩
    rw [endTest_test]
    by_cases hm : h ∈ gs <;> by_cases he : h = g <;> simp [hm, he]

/-! ### Tests that stand, ended one after the other -/

theorem testStands_testStopped (hg : s.testStands g) (hh : s.testStands h) : (s.testStopped g o).testStands h := by
  by_cases he : h = g
  · subst he
    intro t ht
    rw [testStopped_test] at ht
    cases ht
  · cases hgt : s.test g with
    | none => rwa [State.testStopped_none s g o hgt]
    | some t =>
      intro u hu
      have hu : s.test h = some u := by
        rw [← hu]
        unfold State.testStopped
        simp only [hgt, informed_eq, State.setLink_test]
        exact (Vector.getElem_set_ne g.isLt h.isLt fun e => he (Fin.ext e.symm)).symm
      obtain ⟨hgroup, hstand⟩ := hh u hu
      refine ⟨hgroup, ?_⟩
      have hline : (s.testStopped g o).line u.line = s.line u.line := by
        unfold State.testStopped
        simp only [hgt, informed_eq, State.setLink_line]
        refine Vector.getElem_set_ne t.line.isLt u.line.isLt fun e => he ?_
        rw [← hgroup, ← (hg t hgt).1, Fin.ext e]
      rwa [hline]

theorem each_endTest_eq (gs : List GroupId) (hs : ∀ g, s.testStands g) :
    s.each gs (fun s g => s.endTest g o) = gs.foldl (fun s g => s.testStopped g o) s := by
  induction gs generalizing s with
  | nil => rfl
  | cons g gs ih =>
    have he : s.endTest g o = s.testStopped g o := endTest_eq o fun t ht _ => (hs g t ht).2.2
    show (s.endTest g o).each gs _ = _
    rw [he]
    exact ih fun h => testStands_testStopped (hs g) (hs h)

/-! ### Debounce -/

theorem endDebounce_running {i : Input} {t : Timer} (h : (s.input i).debounce = some t) :
    s.endDebounce i =
      if i = .key then s.setInput i { s.input i with taken := (s.input i).level, debounce := none }
      else (s.setInput i { s.input i with taken := (s.input i).level, debounce := none }).formPower := by
  simp only [State.endDebounce, h]
  cases i <;> rfl

theorem powerOf_eq (mains low : Bool) :
    powerOf mains low = if mains then .normal else if low then .reserve else .economy := by
  cases mains <;> cases low <;> rfl

/-- A power state that changes is told, and the tests end when it leaves NORMAL (R145, R169). -/
theorem formPower_changed {new : PowerState} (hn : powerOf s.mainsOk.taken s.batteryLow.taken = new) (h : new ≠ s.power) :
    s.formPower =
      let told := { s with power := new }.announced (.powerState new s.power s.mainsOk.taken s.batteryLow.taken)
      if s.power = .normal then told.abortTestsForPower else told := by
  subst hn
  unfold State.formPower
  dsimp only
  rw [if_neg h, State.notifyAll_eq]

end

/-- Settles O38, by the input's timer and by the power state that is formed. -/
theorem inputsFormPowerState : Obligations.InputsFormPowerState := by
  intro s i level k period b power
  let q : State := { s with orders := [] }
  refine ⟨?_, fun h => ?_, fun h => ?_⟩
  · have hp : period = debouncePeriod i := by cases i <;> rfl
    refine congrArg (fun x => Host.Outcome.next (q.setInput i { k with level := level, debounce := x })) ?_
    by_cases hl : level = k.taken
    · exact (if_pos hl).trans (if_pos hl).symm
    · refine (if_neg hl).trans (Eq.trans ?_ (if_neg hl).symm)
      rw [hp]
      show (match k.debounce with | some t => some t | none => _) = _
      cases k.debounce <;> rfl
  · show Host.Outcome.next (State.endDebounce q i) = _
    simp only [State.endDebounce, show (q.input i).debounce = none from h] <;> rfl
  · obtain ⟨t, ht⟩ := Option.isSome_iff_exists.1 h
    have ends : exec (.debounceExpiry i) s = .next (if i = .key then b else b.formPower) :=
      congrArg Host.Outcome.next (endDebounce_running (s := q) ht)
    have hpow : b.power = s.power := by cases i <;> rfl
    have hnew : powerOf b.mainsOk.taken b.batteryLow.taken = power := powerOf_eq ..
    refine ⟨fun hk => by rw [ends, if_pos hk], fun hk hp => ?_, fun hk hp => ?_⟩
    · rw [ends, if_neg hk]
      refine congrArg _ (if_pos ?_)
      rw [hnew, hpow, hp]
    · intro told
      have ends : exec (.debounceExpiry i) s = .next (if s.power = .normal then told.abortTestsForPower else told) := by
        rw [ends, if_neg hk, formPower_changed hnew (by rw [hpow]; exact hp), hpow]
      have aborts (hn : s.power = .normal) : exec (.debounceExpiry i) s = .next told.abortTestsForPower := by
        rw [ends, if_pos hn]
      have htold : told = _ := announced_eq _ _
      have hline : told.lines = s.lines := by rw [htold]; cases i <;> rfl
      have htest : told.tests = s.tests := by rw [htold]; cases i <;> rfl
      refine ⟨fun hn => by rw [ends, if_neg hn], fun hn hs => ?_, fun hn => ⟨_, aborts hn, ?_⟩⟩
      · rw [aborts hn]
        exact congrArg _ (each_endTest_eq _ fun g => testStands_of_eq (hs g) htest hline)
      · obtain ⟨⟨hr, hc, hpw⟩, ht⟩ := each_endTest (s := told) (o := .aborted .power) (List.finRange 8)
        refine ⟨hpw.trans ?_, fun g => (ht g).trans (if_pos (List.mem_finRange g)), hr.trans ?_, hc.trans ?_⟩
        · rw [htold]
        all_goals
          rw [htold]
          cases i <;> rfl

end Sys2Proof.Proofs

/-! PROOFS. The reads of the load (R68, R78, R171 to R173). -/

namespace Sys2Proof.Proofs

open Sys2Proof Sys2Proof.Machine

section

variable {s : State} {n : LineId} {e : Entry}

/-- The state a line's entry leaves at load, before its group starts a pass (R32, R68, R172). -/
def lined (s : State) (n : LineId) (e : Entry) : State :=
  let fitted : Bool := n.pos.val < (s.group n.group).fitted.val
  { s with
    entries := s.entries.set n { e with inService := e.inService && fitted }
    lines := s.lines.set n { s.line n with
      condition := if fitted then (if e.inService then .idle else .outOfService) else .notFitted }
    classifiers := s.classifiers.set n (.reset (s.profile e.profile).term) }

theorem correctedEntry_eq (f : Fin 9) : correctedEntry f n e =
    { e with inService := e.inService && decide (n.pos.val < f.val) } := by
  unfold correctedEntry
  by_cases hf : f.val ≤ n.pos.val
  · rw [if_pos hf, decide_eq_false (by omega), Bool.and_false]
  · rw [if_neg hf, decide_eq_true (by omega), Bool.and_true]

theorem conditionFromDirectory_eq : s.conditionFromDirectory n =
    if n.pos.val < (s.group n.group).fitted.val then (if (s.entry n).inService then .idle else .outOfService)
    else .notFitted := by
  unfold State.conditionFromDirectory
  by_cases hf : (s.group n.group).fitted.val ≤ n.pos.val
  · rw [if_pos hf, if_neg (by omega)]
  · rw [if_neg hf, if_pos (show n.pos.val < (s.group n.group).fitted.val by omega)]

theorem loadLine_eq : s.loadLine n e =
    if n.pos.val + 1 = (s.group n.group).fitted.val then ((lined s n e).startPass n.group).arbitrate n.group
    else lined s n e := by
  let u := s.setEntry n { e with inService := e.inService && decide (n.pos.val < (s.group n.group).fitted.val) }
  have hu : u.entry n = { e with inService := e.inService && decide (n.pos.val < (s.group n.group).fitted.val) } :=
    Vector.getElem_set_self n.isLt
  have hc : u.conditionFromDirectory n =
      if n.pos.val < (s.group n.group).fitted.val then (if e.inService then .idle else .outOfService)
      else .notFitted := by
    rw [conditionFromDirectory_eq, hu]
    refine ite_congr rfl (fun hf => ?_) fun _ => rfl
    rw [decide_eq_true hf, Bool.and_true]
  have hl : (u.setCondition n (u.conditionFromDirectory n)).resetClassifier n = lined s n e := by
    have hp : (u.setCondition n (u.conditionFromDirectory n)).profileOf n = s.profile e.profile := by
      show s.profile (u.entry n).profile = _
      rw [hu]
    rw [State.resetClassifier, hp, hc]
    simp only [lined, decide_eq_true_eq]
    rfl
  unfold State.loadLine
  dsimp only
  rw [correctedEntry_eq, hl]

/-- The line's entry is read, wherever its group goes on (R32, R68, R172). -/
theorem lineRead_of_lined {good : Option ItemContent} {t : State} (he : e = match good with
      | some (.line e) => e
      | _ => defaultEntry) (hent : t.entries = (lined s n e).entries) (hlin : t.lines = (lined s n e).lines)
    (hcls : t.classifiers = (lined s n e).classifiers) : s.LineRead n good t := by
  unfold State.LineRead
  intro fitted read
  have he : e = read := he.trans (by cases good with
    | none => rfl
    | some x => cases x <;> rfl)
  have hent (m : LineId) : t.entry m = (lined s n e).entry m := by rw [State.entry, State.entry, hent]
  have hlin (m : LineId) : t.line m = (lined s n e).line m := by rw [State.line, State.line, hlin]
  have hcls (m : LineId) : t.classifier m = (lined s n e).classifier m := by
    rw [State.classifier, State.classifier, hcls]
  subst he
  refine ⟨(hent n).trans (Vector.getElem_set_self n.isLt), (hlin n).trans ((Vector.getElem_set_self n.isLt).trans ?_),
    (hcls n).trans (Vector.getElem_set_self n.isLt), fun m hm => ⟨(hlin m).trans ?_, (hent m).trans ?_, (hcls m).trans ?_⟩⟩
  · simp only [fitted]
  all_goals exact Vector.getElem_set_ne n.isLt m.isLt fun h => hm (Fin.ext h.symm)

/-! ### The end of a read -/

/-- What an item's content gives at load. -/
def loaded (good : Option ItemContent) (i : Item) : ItemContent := good.getD (defaultContent i)

theorem endRead_next {ld : Load} {good : Option ItemContent} (hl : s.load = some ld) (hr : ld.read < 79) :
    s.endRead good = ({ (s.loadItem (Item.ofNumber ld.read) (loaded good (Item.ofNumber ld.read))).setStored
      (Item.ofNumber ld.read) good with
        load := some
          { read := ld.read + 1
            timer := (s.loadItem (Item.ofNumber ld.read) (loaded good (Item.ofNumber ld.read))).timer 200
            report := if good.isSome then ld.report else ld.report.name (Item.ofNumber ld.read) } } : State).give
      (.storeRead (Item.ofNumber (ld.read + 1))) := by
  simp only [State.endRead, hl]
  exact if_pos hr

/-- A content is of the kind of an item (R78). -/
def suits : Item → ItemContent → Prop
  | .acceptance, .acceptance _ | .timers, .timers _ | .bearer, .bearer _ | .profile _, .profile _
  | .group _, .group _ _ _ | .line _, .line _ => True
  | _, _ => False

theorem suits_judgeRead {i : Item} {rep : ReadReport} {x : ItemContent} (hx : judgeRead i rep = some x) : suits i x := by
  have hx : checkItem i rep.item = some x := (Option.ite_none_right_eq_some.1 hx).2
  unfold checkItem at hx
  split at hx
  case h_1 =>
    simp only [Option.bind_eq_bind, Option.bind_eq_some_iff, Option.some.injEq] at hx
    obtain ⟨_, -, _, -, _, -, _, -, rfl⟩ := hx
    trivial
  case h_5 =>
    simp only [Option.bind_eq_bind, Option.bind_eq_some_iff, Option.dite_none_right_eq_some, Option.some.injEq] at hx
    obtain ⟨_, -, _, -, _, rfl⟩ := hx
    trivial
  case h_6 =>
    obtain ⟨_, -, rfl⟩ := Option.map_eq_some_iff.1 hx
    trivial
  case h_7 => cases hx
  all_goals
    obtain ⟨-, hx⟩ := Option.ite_none_right_eq_some.1 hx
    cases hx
    trivial

theorem suits_defaultContent (i : Item) : suits i (defaultContent i) := by cases i <;> trivial

theorem suits_loaded {i : Item} {rep : ReadReport} {good : Option ItemContent} (h : good = none ∨ good = judgeRead i rep) :
    suits i (loaded good i) := by
  unfold loaded
  cases hg : good with
  | none => exact suits_defaultContent i
  | some x => exact suits_judgeRead ((h.resolve_left (by simp [hg])).symm.trans hg)

/-- A content of an item's kind becomes its working copy, and what it is stored as, the time and the orders stay. -/
theorem loadItem_kept {i : Item} {x : ItemContent} (hi : ∀ n, i ≠ .line n) (hx : suits i x) :
    (s.loadItem i x).content i = x ∧ (s.loadItem i x).stored = s.stored ∧ (s.loadItem i x).clock = s.clock ∧
    (s.loadItem i x).orders = s.orders := by
  cases i with
  | line n => exact absurd rfl (hi n)
  | profile p => cases x with
    | profile q => exact ⟨congrArg ItemContent.profile (Vector.getElem_set_self p.isLt), rfl, rfl, rfl⟩
    | _ => exact hx.elim
  | group g => cases x with
    | group f m on =>
      refine ⟨?_, rfl, rfl, rfl⟩
      simp only [State.loadItem, State.content, State.setGroup_group, if_true]
    | _ => exact hx.elim
  | acceptance => cases x with
    | acceptance t => exact ⟨rfl, rfl, rfl, rfl⟩
    | _ => exact hx.elim
  | timers => cases x with
    | timers t => exact ⟨rfl, rfl, rfl, rfl⟩
    | _ => exact hx.elim
  | bearer => cases x with
    | bearer b => exact ⟨rfl, rfl, rfl, rfl⟩
    | _ => exact hx.elim

theorem line_of_suits {x : ItemContent} (h : suits (.line n) x) : ∃ e, x = .line e := by
  cases x with
  | line e => exact ⟨e, rfl⟩
  | _ => exact h.elim

/-- A line's read goes on in its group's scanner alone (R172). -/
theorem loadLine_ordering : Ordering n.group (lined s n e) (s.loadLine n e) := by
  rw [loadLine_eq]
  split
  · exact (Ordering.startPass ..).trans (.arbitrate ..)
  · exact .refl ..

/-- The entry that a line's item gives, read or by default (R78). -/
theorem entry_of_getD {good : Option ItemContent} : good.getD (.line defaultEntry) = .line e →
    e = match good with
      | some (.line e) => e
      | _ => defaultEntry := by
  intro h
  cases good with
  | none => exact (ItemContent.line.inj h).symm
  | some x =>
    obtain rfl : x = .line e := h
    rfl

/-- What a load leaves of the store and of the time (R78). -/
theorem loadItem_stored {i : Item} {x : ItemContent} (hx : suits i x) :
    (s.loadItem i x).stored = s.stored ∧ (s.loadItem i x).clock = s.clock := by
  cases i with
  | line n =>
    obtain ⟨e, rfl⟩ := line_of_suits hx
    show (s.loadLine n e).stored = _ ∧ (s.loadLine n e).clock = _
    rw [loadLine_ordering.frame]
    exact ⟨rfl, rfl⟩
  | _ =>
    obtain ⟨-, hs, hc, -⟩ := loadItem_kept (s := s) (fun _ => by simp) hx
    exact ⟨hs, hc⟩

/-- With its last fitted line read a group with a free port starts its first pass (R3, R172). -/
theorem loadLine_last (hf : n.pos.val + 1 = (s.group n.group).fitted.val) (hp : (s.group n.group).port = none)
    (ht : s.test n.group = none) : s.loadLine n e = { lined s n e with
      groups := s.groups.set n.group (s.firstPass n.group)
      orders := s.orders ++ [.measure n.group .feed .main] } := by
  have hne : (s.group n.group).fitted ≠ 0 := fun h => by
    have := congrArg Fin.val h
    simp only [Fin.val_zero] at this
    omega
  rw [loadLine_eq, if_pos hf, startPass_of_fitted (s := lined s n e) hne]
  exact arbitrate_setGroup_scanner (s := lined s n e) (r := (lined s n e).passBegun n.group) hp rfl
    (fun t h => by rw [show (lined s n e).test n.group = none from ht] at h; cases h) rfl

/-- The read in progress ends with what its report shows (R78, R171). -/
theorem exec_storeReadCompletion {ld : Load} (rep : ReadReport) (h : s.load = some ld) :
    exec (.storeReadCompletion false rep) s =
      .next (State.endRead { s with orders := [] } (judgeRead (Item.ofNumber ld.read) rep)) := by
  have ends (q : State) (hq : q.load = some ld) :
      (match false, q.load with
        | false, some ld => q.endRead (judgeRead (Item.ofNumber ld.read) rep)
        | _, _ => q) = q.endRead (judgeRead (Item.ofNumber ld.read) rep) := by
    rw [hq]
  exact congrArg Host.Outcome.next (ends { s with orders := [] } h)

end

/-- Settles O36, by the item read: its content or default is set, the next read is handed on, and the last fitted line of
a group starts its first pass. -/
theorem loadReadSetsItem : Obligations.LoadReadSetsItem := by
  intro s ld rep hload _ hread item good next
  let q : State := { s with orders := [] }
  have hq : q.load = some ld := hload
  have ends : exec (.storeReadCompletion false rep) s = .next (q.endRead good) := exec_storeReadCompletion rep hload
  have fails : exec .storeReadTimeout s = .next (q.endRead none) := rfl
  have next_eq {x : Option ItemContent} (hx : x = none ∨ x = good) :
      (q.endRead x).load = next (if x.isSome then ld.report else ld.report.name item) ∧
      (q.endRead x).stored = s.stored.set item.index x := by
    obtain ⟨hs, hc⟩ := loadItem_stored (s := q) (suits_loaded hx)
    rw [endRead_next hq hread]
    exact ⟨congrArg (fun c => some (Load.mk (ld.read + 1) { length := 200, due := c + 200 }
        (if x.isSome then ld.report else ld.report.name item))) hc,
      congrArg (fun v : Vector (Option ItemContent) 79 => v.set item.index x) hs⟩
  let u := q.loadItem item (loaded good item)
  have hu : (q.endRead good).orders = u.orders ++ [.storeRead (Item.ofNumber (ld.read + 1))] := by
    rw [endRead_next hq hread]
    rfl
  have content : (q.endRead good).content item = u.content item := by
    rw [endRead_next hq hread]
    cases item <;> rfl
  have hsuits : suits item (loaded good item) := suits_loaded (.inr rfl)
  refine ⟨rfl, fun hg => by rw [ends, fails, hg], ⟨_, ends, (next_eq (.inr rfl)).1, ?_, fun hi => ?_, (next_eq (.inr rfl)).2,
    fun x hx hi => ?_, fun hg hi => ?_, fun n hn => ?_⟩, ⟨_, fails, (next_eq (.inl rfl)).1, (next_eq (.inl rfl)).2⟩⟩
  · rw [hu, List.getLast?_append, List.getLast?_singleton]
    rfl
  · obtain ⟨-, -, -, ho⟩ := loadItem_kept (s := q) hi hsuits
    rw [hu, ho]
    rfl
  · obtain ⟨hc, -⟩ := loadItem_kept (s := q) hi hsuits
    rw [content, hc, loaded, hx]
    rfl
  · obtain ⟨hc, -⟩ := loadItem_kept (s := q) hi hsuits
    rw [content, hc, loaded, hg]
    show defaultContent item = _
    cases hk : item with
    | line n => exact absurd hk (hi n)
    | _ => rfl
  · obtain ⟨e, he⟩ := line_of_suits (hn ▸ hsuits : suits (.line n) (loaded good item))
    have hload : u = q.loadLine n e := by
      show q.loadItem item (loaded good item) = _
      rw [he, hn]
      rfl
    have hframe := (loadLine_ordering (s := q) (n := n) (e := e)).frame
    have hgood : e = match good with
        | some (.line e) => e
        | _ => defaultEntry := by
      refine entry_of_getD ?_
      rw [← he, loaded, hn]
      rfl
    have hend {t : State} (hu' : u = t) : (q.endRead good).entries = t.entries ∧ (q.endRead good).lines = t.lines ∧
        (q.endRead good).classifiers = t.classifiers ∧ (q.endRead good).groups = t.groups := by
      subst hu'
      rw [endRead_next hq hread]
      exact ⟨rfl, rfl, rfl, rfl⟩
    obtain ⟨h1, h2, h3, h4⟩ := hend (hload.trans hframe)
    refine ⟨lineRead_of_lined (s := s) hgood h1 h2 h3, fun hne => ?_, fun hf hp ht => ?_⟩
    · have hlast : u = lined q n e := by rw [hload, loadLine_eq, if_neg (show ¬ n.pos.val + 1 = (q.group n.group).fitted.val from hne)]
      obtain ⟨-, -, -, hgr⟩ := hend hlast
      exact ⟨hgr, by rw [hu, hlast]; rfl⟩
    · have hlast := hload.trans (loadLine_last (s := q) (e := e) hf hp ht)
      obtain ⟨-, -, -, hgr⟩ := hend hlast
      exact ⟨hgr, by rw [hu, hlast]; rfl⟩

end Sys2Proof.Proofs

/-! PROOFS. The load's end (R173): its statement fails outside the invariant. -/

namespace Sys2Proof.Proofs

open Sys2Proof Sys2Proof.Machine

/-- A part at its last read with a test of group 7 whose order waits at a free port. No step leads to it: no test runs
while the part loads (R137, R150). -/
def loadingUnderTest : State :=
  { State.reset with
    load := some { read := 79, timer := { length := 200, due := 200 }, report := LoadReport.empty }
    tests := State.reset.tests.set 7 (some
      { line := 56, kind := .openWire, requester := .a, phase := .measureBefore, start := 0
        limit := { length := 2000, due := 2000 }, dwell := none, order := .waiting, samples := [] }) }

/-- The pass that the load's end starts in group 7 lets the port take the test's order. -/
theorem loadingUnderTest_places : ∃ t, exec .storeReadTimeout loadingUnderTest = .next t ∧
    (t.test 7).map (·.order) = some .placed :=
  ⟨_, rfl, by decide +kernel⟩

/-- Refutes O37: with a test order waiting at the port of group 7, the end of the load places it, and so changes the
tests, which the statement lets stand. -/
theorem not_loadEndFormsReport : ¬ Obligations.LoadEndFormsReport := by
  intro h
  have rep : ReadReport := { success := false, bytes := [], crc := 0, item := .timers defaultTimers }
  obtain ⟨-, h⟩ := h loadingUnderTest _ rep .storeReadTimeout none rfl rfl
  obtain ⟨t, ht, heq, -⟩ := h (.inr ⟨rfl, rfl⟩)
  obtain ⟨u, hu, hplaced⟩ := loadingUnderTest_places
  obtain rfl : t = u := Host.Outcome.next.inj (ht.symm.trans hu)
  have hsame : t.test 7 = loadingUnderTest.test 7 := (congrArg (State.test · 7) heq).trans rfl
  rw [hsame] at hplaced
  exact absurd hplaced (by decide +kernel)

end Sys2Proof.Proofs

/-! PROOFS. One record offered (R105), and the four timers of a call record (R106 to R119). -/

namespace Sys2Proof.Proofs

open Sys2Proof Sys2Proof.Machine

section

variable {s : State} {r q : CallRecord} {c : Centre} {id : CallId}

/-! ### A record changed -/

theorem updRecord_updRecord (f g : CallRecord → CallRecord) (hf : ∀ r, (f r).id = r.id) :
    (s.updRecord id f).updRecord id g = s.updRecord id fun r => g (f r) := by
  simp only [State.updRecord, List.map_map]
  refine congrArg (fun x => { s with records := x }) (List.map_congr_left fun r _ => ?_)
  by_cases h : r.id = id <;> simp [h, hf]

/-- The record that a call id finds after its change. -/
theorem recordById_changed {f : CallRecord → CallRecord} (hf : ∀ r, (f r).id = r.id) (h : s.recordById r.id = some r) :
    (s.updRecord r.id f).recordById r.id = some (f r) := by
  rw [recordById_updRecord s r.id r.id hf, h, Option.map_some, if_pos rfl]

theorem recordOfLine_changed {f : CallRecord → CallRecord} (hf : ∀ r, (f r).line = r.line)
    (h : s.recordOfLine r.line = some r) : (s.updRecord r.id f).recordOfLine r.line = some (f r) := by
  rw [recordOfLine_updRecord s r.id r.line hf, h, Option.map_some, if_pos rfl]

/-- A line with the tone of its condition and its record (R41). -/
def Toned (u : LineUnit) (r : CallRecord) : Prop := u.tone = toneFor u.condition (some r)

theorem toned_inCall {u : LineUnit} (hi : u.condition = .inCall) (ht : u.tone = toneFor .inCall (some r)) : Toned u r := by
  rw [Toned, hi, ht]

/-- The tone follows the record on an IN_CALL line alone (R41). -/
theorem Toned.change {u : LineUnit} (h : Toned u r) (ht : toneFor .inCall (some q) = toneFor .inCall (some r)) :
    Toned u q := by
  rw [Toned, h]
  cases hc : u.condition with
  | inCall => exact ht.symm
  | _ => rfl

/-- A line that has the tone of its record already keeps it (R41). -/
theorem retone_settled {n : LineId} (hq : s.recordOfLine n = some q) (ht : Toned (s.line n) q) : s.retone n = s := by
  rw [State.retone, hq]
  exact if_pos ht.symm

/-- A notice leaves the lines and the records. -/
theorem informed_recordOfLine (l : Link) (n : Notice) (m : LineId) :
    (s.informed l n).recordOfLine m = s.recordOfLine m := by
  rw [informed_eq, State.setLink_recordOfLine]

theorem informed_recordById (l : Link) (n : Notice) (x : CallId) :
    (s.informed l n).recordById x = s.recordById x := by
  rw [informed_eq, State.setLink_recordById]

theorem informed_line (l : Link) (n : Notice) (m : LineId) : (s.informed l n).line m = s.line m := by
  rw [informed_eq, State.setLink_line]

/-- The record as an offer to a link leaves it (R105). -/
def offering (s : State) (r : CallRecord) (c : Centre) (q : CallRecord) : CallRecord :=
  q.offeredTo c (s.group r.line.group).health

/-- A record whose line has the tone of an offered call is offered with no order (R41, R105). -/
theorem offerTo_eq (h : s.recordById r.id = some r) (hl : s.recordOfLine r.line = some r)
    (ht : Toned (s.line r.line) (offering s r c r)) :
    s.offerTo r.id c = (s.updRecord r.id (offering s r c)).informed c.link (.callOffer (offerOf (offering s r c r))) := by
  have hid : (s.updRecord r.id (offering s r c)).recordById r.id = some (offering s r c r) :=
    recordById_changed (fun _ => rfl) h
  have hplace : (s.updRecord r.id (offering s r c)).placeOffer r.id c =
      (s.updRecord r.id (offering s r c)).informed c.link (.callOffer (offerOf (offering s r c r))) := by
    simp only [State.placeOffer, hid, State.notify_eq]
  have hdef : s.offerTo r.id c = ((s.updRecord r.id (offering s r c)).placeOffer r.id c).retone r.line := by
    simp only [State.offerTo, h]
    rfl
  rw [hdef, hplace]
  refine retone_settled (q := offering s r c r) ?_ ?_
  · rw [informed_recordOfLine]
    exact recordOfLine_changed (fun _ => rfl) hl
  · rw [informed_line]
    exact ht

/-- The tone of an unclaimed call is that of its ORPHAN flag and its transfer origin (R41). -/
theorem toneFor_unclaimed (hr : r.state.unclaimed = true) (hq : q.state.unclaimed = true)
    (ho : q.flags.orphan = r.flags.orphan) (hg : q.origin = r.origin) :
    toneFor .inCall (some q) = toneFor .inCall (some r) := by
  have hu {x : CallRecord} (hx : x.state.unclaimed = true) : toneFor .inCall (some x) =
      if x.flags.orphan || x.origin.isSome then .hold else .registered := by
    unfold toneFor
    cases hs : x.state <;> simp_all [CallState.unclaimed]
  rw [hu hr, hu hq, ho, hg]

/-! ### The timers of a record -/

/-- The record with its escalation timer expired, and escalated (R109). -/
def escalating (q : CallRecord) : CallRecord :=
  { q with escalation := none, flags := { q.flags with escalated := true } }

theorem endEscalation_escalates (he : r.escalation.isSome = true) (hs : r.state = .waiting ∨ r.state = .offered) :
    s.endEscalation r = (s.updRecord r.id escalating).each r.offered.members fun s c =>
      if s.usable c.partner && !r.offered.has c.partner then s.offerTo r.id c.partner else s := by
  obtain ⟨t, ht⟩ := Option.isSome_iff_exists.1 he
  have hu : (s.updRecord r.id fun r => { r with escalation := none }).updRecord r.id
      (fun r => { r with flags := { r.flags with escalated := true } }) = s.updRecord r.id escalating :=
    updRecord_updRecord _ _ fun _ => rfl
  unfold State.endEscalation
  rcases hs with hs | hs <;> simp only [ht, hs, State.escalate, hu]

theorem endOverdue_marks (he : r.overdueTimer.isSome = true) (hs : r.state.unclaimed = true) :
    s.endOverdue r =
      (s.updRecord r.id fun q => { q with overdueTimer := none, flags := { q.flags with overdue := true } }).announced
        (.callOverdue r.id r.line r.category ((s.tick - r.arrival).toNat / 100)) := by
  obtain ⟨t, ht⟩ := Option.isSome_iff_exists.1 he
  have hu := updRecord_updRecord (s := s) (id := r.id) (fun r => { r with overdueTimer := none })
    (fun q => { q with flags := { q.flags with overdue := true } }) fun _ => rfl
  simp only [State.endOverdue, ht, hs, if_true, State.markOverdue, hu, State.notifyAll_eq]
  rfl

theorem endTransferTimer_times_out (he : r.transferTimer.isSome = true) (hs : r.state = .offered)
    (ho : r.origin = some c) : s.endTransferTimer r =
      if (s.centre c).health ≠ .lost ∧ (s.centre c).duty ≠ .standby ∧ r.offered.has c = false then
        (s.updRecord r.id fun q => { q with transferTimer := none }).offerTo r.id c
      else s.updRecord r.id fun q => { q with transferTimer := none } := by
  obtain ⟨t, ht⟩ := Option.isSome_iff_exists.1 he
  simp only [State.endTransferTimer, ht, hs, if_true, State.transferTimedOut, ho]
  refine if_congr ?_ rfl rfl
  simp [State.updRecord, State.centre, and_assoc]

theorem endLongCallTimer_tells (he : r.longTimer.isSome = true) (hs : r.state = .connected) (hc : r.claimant = some c)
    (hn : r.longCall = false) : s.endLongCallTimer r =
      (s.updRecord r.id fun q => { q with longTimer := none, longCall := true, longWaits := false }).informed c.link
        (.longCall r.id r.line ((s.tick - r.connect.getD r.arrival).toNat / 100)) := by
  obtain ⟨t, ht⟩ := Option.isSome_iff_exists.1 he
  have hu := updRecord_updRecord (s := s) (id := r.id) (fun r => { r with longTimer := none })
    (fun r => { r with longCall := true, longWaits := false }) fun _ => rfl
  simp only [State.endLongCallTimer, ht, hs, hn, Bool.false_eq_true, if_false, tellLongCall_eq hc, hu]
  rfl

theorem endLongCallTimer_waits (he : r.longTimer.isSome = true) (hs : r.state = .held) :
    s.endLongCallTimer r = s.updRecord r.id fun q => { q with longTimer := none, longWaits := true } := by
  obtain ⟨t, ht⟩ := Option.isSome_iff_exists.1 he
  have hu := updRecord_updRecord (s := s) (id := r.id) (fun r => { r with longTimer := none })
    (fun r => { r with longWaits := true }) fun _ => rfl
  simp only [State.endLongCallTimer, ht, hs, hu]

theorem members_empty : CentreSet.empty.members = [] := rfl

theorem members_single (c : Centre) : (CentreSet.empty.add c).members = [c] := by cases c <;> rfl

theorem has_single_partner (c : Centre) : (CentreSet.empty.add c).has c.partner = false := by cases c <;> rfl

end

/-- Settles O50, by the timer and the state of the record: each expiry changes its record, and an offer follows to a
link that can take it. -/
theorem callTimersAct : Obligations.CallTimersAct := by
  intro s c id r hr hl hi ht set offer escalated
  let b : State := { s with orders := [] }
  obtain rfl : r.id = id := (State.recordById_some hr).2
  have at_record {f : State → CallRecord → State} : b.atRecord r.id f = f b r := by
    simp only [State.atRecord, show b.recordById r.id = some r from hr]
  have escalates {t : State} (he : b.endEscalation r = t) : exec (.escalationTimerExpiry r.id) s = .next t :=
    congrArg Host.Outcome.next (at_record.trans he)
  have stops {t : State} (he : b.endOverdue r = t) : exec (.overdueTimerExpiry r.id) s = .next t :=
    congrArg Host.Outcome.next (at_record.trans he)
  have returns {t : State} (he : b.endTransferTimer r = t) : exec (.transferTimerExpiry r.id) s = .next t :=
    congrArg Host.Outcome.next (at_record.trans he)
  have lasts {t : State} (he : b.endLongCallTimer r = t) : exec (.longCallTimerExpiry r.id) s = .next t :=
    congrArg Host.Outcome.next (at_record.trans he)
  have offers (f : CallRecord → CallRecord) (hf : ∀ q, (f q).id = q.id ∧ (f q).line = q.line) (hs : r.state = .offered)
      (ho : (f r).flags.orphan = r.flags.orphan) (hg : (f r).origin = r.origin) (d : Centre) :
      (b.updRecord r.id f).offerTo r.id d =
        (set fun q => offer (f q) d).informed d.link (.callOffer (offerOf (offer (f r) d))) := by
    obtain ⟨hid, hline⟩ := hf r
    have hgroup (q : CallRecord) : offering (b.updRecord r.id f) (f r) d q = offer q d := by
      rw [offering, hline]
      rfl
    have h1 : (b.updRecord r.id f).recordById (f r).id = some (f r) := by
      rw [hid]
      exact recordById_changed (fun q => (hf q).1) hr
    have h2 : (b.updRecord r.id f).recordOfLine (f r).line = some (f r) := by
      rw [hline]
      exact recordOfLine_changed (fun q => (hf q).2) hl
    have h := offerTo_eq (c := d) h1 h2 (by
      rw [hline, hgroup]
      refine toned_inCall hi (ht.trans (toneFor_unclaimed (by rw [hs]; rfl) rfl ?_ ?_).symm)
      · exact ho
      · exact hg)
    rw [hid] at h
    rw [h, hgroup]
    refine congrArg (State.informed · _ _) ?_
    have hfun : offering (b.updRecord r.id f) (f r) d = fun q => offer q d := funext hgroup
    rw [hfun, updRecord_updRecord _ _ fun q => (hf q).1]
    rfl
  refine ⟨fun he hs ho => ?_, fun he hs ho => ?_, fun he hs => ?_, fun he hs ho => ?_, fun he hs hc hn => ?_,
    fun he hs => ?_, fun he hs ha hb => ?_, fun he => ?_, fun he => ?_, fun he => ?_, fun he => ?_⟩
  · refine escalates ((endEscalation_escalates he (.inr hs)).trans ?_)
    rw [ho, members_single]
    show (if ((b.updRecord r.id escalating).usable c.partner && !(CentreSet.empty.add c).has c.partner) = true
      then _ else _) = _
    rw [has_single_partner, Bool.not_false, Bool.and_true]
    refine if_congr Iff.rfl ?_ rfl
    exact offers escalated (fun _ => ⟨rfl, rfl⟩) hs rfl rfl c.partner
  · refine escalates ((endEscalation_escalates he (.inl hs)).trans ?_)
    rw [ho, members_empty]
    rfl
  · exact stops (endOverdue_marks he hs)
  · refine returns ((endTransferTimer_times_out he hs ho).trans (if_congr Iff.rfl ?_ rfl))
    exact offers (fun q => { q with transferTimer := none }) (fun _ => ⟨rfl, rfl⟩) hs rfl rfl c
  · exact lasts (endLongCallTimer_tells he hs hc hn)
  · exact lasts (endLongCallTimer_waits he hs)
  · refine escalates ((endEscalation_escalates he (.inr hs)).trans ?_)
    have hm : r.offered.members = [.a, .b] := by
      have ha' : r.offered.a = true := ha
      have hb' : r.offered.b = true := hb
      simp [CentreSet.members, ha', hb']
    rw [hm]
    simp only [State.each, List.foldl_cons, List.foldl_nil, Centre.partner, ha, hb, Bool.not_true, Bool.and_false,
      Bool.false_eq_true, if_false]
    rfl
  · exact escalates (by simp only [State.endEscalation, he] <;> rfl)
  · exact stops (by simp only [State.endOverdue, he] <;> rfl)
  · exact returns (by simp only [State.endTransferTimer, he] <;> rfl)
  · exact lasts (by simp only [State.endLongCallTimer, he] <;> rfl)

end Sys2Proof.Proofs

/-! PROOFS. The notices of a line's condition (R35, R36, R39, R40). -/

namespace Sys2Proof.Proofs

open Sys2Proof Sys2Proof.Machine

section

variable {s : State} {n : LineId} {c : LoopClass} {kind : FaultKind}

theorem informed_classifier (l : Link) (x : Notice) (m : LineId) : (s.informed l x).classifier m = s.classifier m := by
  rw [informed_eq, State.setLink_classifier]

/-- A notice about a line leaves the lines and the classifiers. -/
theorem reported_line (m : LineId) (x : Notice) (n : LineId) : (s.reported m x).line n = s.line n := by
  rw [← State.notifyLine_eq]
  obtain ⟨a, b, d, h⟩ := s.notifyLine_spec m x
  rw [h]
  rfl

theorem reported_classifier (m : LineId) (x : Notice) (n : LineId) : (s.reported m x).classifier n = s.classifier n := by
  rw [← State.notifyLine_eq]
  obtain ⟨a, b, d, h⟩ := s.notifyLine_spec m x
  rw [h]
  rfl

/-! ### A class change by the line's condition -/

theorem classChange_idle (h : (s.line n).condition = .idle) : s.classChange n c = s.changeIdle n c := by
  simp only [State.classChange, h]

theorem classChange_ofFault {k : FaultKind} (h : (s.line n).condition = .fault k) :
    s.classChange n c = s.changeFault n k c := by
  simp only [State.classChange, h]

theorem classChange_inCall (h : (s.line n).condition = .inCall) : s.classChange n c = s.changeInCall n c := by
  simp only [State.classChange, h]

theorem classChange_queued (h : (s.line n).condition = .queued) : s.classChange n c = s.changeQueued n c := by
  simp only [State.classChange, h]

theorem classChange_parked {t : Option Timer} {sent : Bool} {since : Tick}
    (h : (s.line n).condition = .parked t sent since) : s.classChange n c = s.changeParked n sent c := by
  simp only [State.classChange, h]

/-- The class of a fault is neither OFFHOOK nor IDLE (R35). -/
theorem classChange_fault (h : c.fault? = some kind) :
    (∀ s : State, s.changeIdle n c = s.enterFault n kind) ∧
    (∀ (s : State) old, s.changeFault n old c = s.enterFault n kind) ∧
    (∀ (s : State) sent, s.changeParked n sent c = (s.enterFault n kind).notifyUnparked n sent) := by
  cases c <;> cases h <;> exact ⟨fun _ => rfl, fun _ _ => rfl, fun _ _ => rfl⟩

theorem enter_line (k : Condition) :
    (s.enter n k).line n = { condition := k, tone := toneFor k (s.recordOfLine n) } := by
  rw [enter_eq]
  exact Vector.getElem_set_self n.isLt

/-- A line leaves its tone behind with its condition (R41). -/
def leftFor (s : State) (n : LineId) (k : Condition) : State :=
  { s with
    lines := s.lines.set n { condition := k, tone := .none }
    orders := s.orders ++ toned s n .none }

theorem leftFor_line (k : Condition) : (leftFor s n k).line n = { condition := k, tone := .none } :=
  Vector.getElem_set_self n.isLt

theorem enterFault_eq (kind : FaultKind) : s.enterFault n kind =
    (leftFor s n (.fault kind)).reported n (.lineCondition n (.fault kind) (s.classifier n).leaky) := by
  rw [State.enterFault, notifyCondition_eq, enter_line, enter_eq]
  rfl

/-- The notice R40 owes to a line that leaves a park whose notice was sent. -/
theorem notifyUnparked_eq {t : State} {k : Condition} (sent : Bool) (hk : (t.line n).condition = k)
    (hl : (t.classifier n).leaky = (s.classifier n).leaky) :
    t.notifyUnparked n sent = if sent then t.reported n (.lineCondition n k (s.classifier n).leaky) else t := by
  rw [State.notifyUnparked, notifyCondition_eq, hk, hl]

/-- PARK_TIMER_EXPIRY (R40). -/
def endPark (s : State) (n : LineId) : State :=
  match (s.line n).condition with
  | .parked (some t) _ since =>
    (s.setCondition n (.parked none true since)).notifyLine n (.handsetOff n (t.length / 1000))
  | _ => s

theorem park?_eq_some {k : Condition} {t : Option Timer} {sent : Bool} {since : Tick} (h : k.park? = some (t, sent, since)) :
    k = .parked t sent since := by
  cases k <;> cases h
  rfl

theorem endPark_running {t : Timer} {sent : Bool} {since : Tick} (h : (s.line n).condition = .parked (some t) sent since) :
    endPark s n = { s with lines := s.lines.set n { s.line n with condition := .parked none true since } }.reported n
      (.handsetOff n (t.length / 1000)) := by
  simp only [endPark, h, State.notifyLine_eq]
  rfl

theorem endPark_stopped (h : (s.line n).condition.park?.bind (·.1) = none) : endPark s n = s := by
  unfold endPark
  split
  · next hp =>
    rw [hp] at h
    cases h
  · rfl

end

/-- Settles O46, by the line's condition and the class that is confirmed. -/
theorem lineNoticesFollowCondition : Obligations.LineNoticesFollowCondition := by
  intro s n c kind
  have toneless (ht : (s.line n).tone = .none) (k : Condition) :
      leftFor s n k = { s with lines := s.lines.set n { condition := k, tone := .none } } := by
    rw [leftFor, toned_of_eq ht, List.append_nil]
  refine ⟨fun x hx t ht => ?_, fun h => ?_, fun hf htone => ?_, fun x hx => ?_⟩
  · obtain ⟨timer, sent, since⟩ := x
    obtain rfl : timer = some t := ht
    have hp : (s.line n).condition = .parked (some t) sent since := park?_eq_some hx
    exact congrArg Host.Outcome.next (endPark_running (s := { s with orders := [] }) hp)
  · exact congrArg Host.Outcome.next (endPark_stopped (s := { s with orders := [] }) h)
  · obtain ⟨hidle, hfault, -⟩ := classChange_fault hf
    refine ⟨fun hi => ?_, fun hi => ?_, fun old hi => ?_⟩
    · rw [classChange_idle hi, hidle, enterFault_eq, toneless htone]
    · rw [classChange_ofFault hi]
      show (s.enter n .idle).notifyLine n (.faultCleared n kind) = _
      rw [State.notifyLine_eq, enter_toneless htone rfl]
    · rw [classChange_ofFault hi, hfault, enterFault_eq, toneless htone]
  · obtain ⟨timer, sent, since⟩ := x
    have hp : (s.line n).condition = .parked timer sent since := park?_eq_some hx
    intro left told
    constructor
    · rw [classChange_parked hp]
      show (s.enter n .idle).notifyUnparked n sent = _
      rw [show s.enter n .idle = left .idle from enter_eq ..]
      exact notifyUnparked_eq sent (congrArg LineUnit.condition (leftFor_line .idle)) rfl
    · intro hf lost
      obtain ⟨-, -, hparked⟩ := classChange_fault hf
      rw [classChange_parked hp, hparked, enterFault_eq]
      refine notifyUnparked_eq sent ?_ ?_
      · rw [reported_line, leftFor_line]
      · rw [reported_classifier]
        rfl

end Sys2Proof.Proofs

/-! PROOFS. The identity burst (R52, R53) and the end of a capture (R56 to R59, R86, R107). -/

namespace Sys2Proof.Proofs

open Sys2Proof Sys2Proof.Machine

/-! ### Bursts -/

/-- A valid burst has five bytes, heard from their start, with a CRC-8 that agrees (R52, R53). -/
theorem readBurst_eq_some {bytes : List Byte} {heardStart : Bool} {b : Burst} (h : readBurst bytes heardStart = some b) :
    heardStart = true ∧ bytes.length = 5 ∧ crc8 (bytes.take 4) = bytes.getD 4 0 := by
  unfold readBurst at h
  split at h
  · obtain ⟨hc, -⟩ := Option.ite_none_right_eq_some.1 h
    obtain ⟨hs, hc⟩ := Bool.and_eq_true_iff.1 hc
    exact ⟨hs, rfl, of_decide_eq_true hc⟩
  · cases h

/-- What the bytes of a valid burst say (R52). -/
theorem readBurst_fields {bytes : List Byte} (hl : bytes.length = 5) (hc : crc8 (bytes.take 4) = bytes.getD 4 0) :
    ∃ b, readBurst bytes true = some b ∧
      b.sect = bytes.getD 0 0 ∧ b.marker.toNat = (bytes.getD 1 0).toNat * 256 + (bytes.getD 2 0).toNat ∧
      b.code.toNat = (bytes.getD 3 0).toNat % 4 ∧
      (b.doorOpen = true ↔ (bytes.getD 3 0).toNat / 4 % 2 = 1) ∧
      (b.lowBattery = true ↔ (bytes.getD 3 0).toNat / 8 % 2 = 1) := by
  match bytes, hl with
  | [a, m1, m0, st, c], _ =>
    have hc : crc8 [a, m1, m0, st] = c := hc
    refine ⟨_, if_pos (by simp [hc]), rfl, ?_, ?_, ?_, ?_⟩
    · show (BitVec.ofNat 16 (nat2 m1 m0)).toNat = _
      rw [BitVec.toNat_ofNat, nat2]
      have h1 := m1.isLt
      have h0 := m0.isLt
      exact Nat.mod_eq_of_lt (by omega)
    · show (st.extractLsb' 0 2).toNat = _
      rw [BitVec.extractLsb'_toNat, Nat.shiftRight_zero]
      rfl
    · show st.getLsbD 2 = true ↔ _
      rw [BitVec.getLsbD, Nat.testBit_eq_decide_div_mod_eq, decide_eq_true_iff]
      rfl
    · show st.getLsbD 3 = true ↔ _
      rw [BitVec.getLsbD, Nat.testBit_eq_decide_div_mod_eq, decide_eq_true_iff]
      rfl

/-! ### The receiver -/

section

variable {s : State} {n : LineId} {r : CallRecord} {c : Centre}

theorem leaveReceiver_eq : s.leaveReceiver n = { s with
    receivers := s.receivers.set n.group ((s.receiver n.group).without n)
    orders := s.orders ++ if (s.receiver n.group).listening = some n then
      [.listen n.group (s.receiver n.group).waiting.head?] else [] } := by
  unfold State.leaveReceiver Receiver.without
  dsimp only
  by_cases hl : (s.receiver n.group).listening = some n
  · rw [if_pos hl, if_pos hl, if_pos hl, State.freeReceiver]
    cases hw : (s.receiver n.group).waiting <;> rfl
  · rw [if_neg hl, if_neg hl, if_neg hl, List.append_nil]
    rfl

theorem informed_updRecord (l : Link) (x : Notice) (id : CallId) (f : CallRecord → CallRecord) :
    (s.informed l x).updRecord id f = (s.updRecord id f).informed l x := by
  rw [informed_eq, informed_eq]
  cases l <;> rfl

theorem offerTo_startOffer (h : s.recordById r.id = some r) (hl : s.recordOfLine r.line = some r)
    (hi : (s.line r.line).condition = .inCall)
    (ht : (s.line r.line).tone = toneFor .inCall (some (offering s r c r))) :
    (s.offerTo r.id c).startOffer r.id = (s.updRecord r.id fun q => { offering s r c q with
      firstOffer := some s.tick, escalation := some (s.timer (s.timers.escalate * 1000)) }).informed c.link
        (.callOffer (offerOf (offering s r c r))) := by
  rw [offerTo_eq h hl (toned_inCall hi ht), State.startOffer, informed_updRecord, updRecord_updRecord (offering s r c) _ fun _ => rfl]
  refine congrArg (State.informed · _ _) ?_
  refine congrArg (State.updRecord s r.id) (funext fun q => ?_)
  rw [informed_eq]
  cases c <;> rfl

/-- The record whose result is in, as its first offer finds it (R86, R107). -/
theorem handResult_identifying {res : CaptureResult} (hl : s.recordOfLine n = some r) (hs : r.state = .identifying) :
    s.handResult n res =
      (s.updRecord r.id fun q => q.resolved s.acceptance (s.entry r.line) res).makeFirstOffer r.id := by
  simp only [State.handResult, hl, hs, if_true, State.resolve]

/-- A resolved record is offered to its home link, or else to the partner, or else it waits (R107). -/
theorem makeFirstOffer_eq (h : s.recordById r.id = some r) :
    s.makeFirstOffer r.id =
      if s.usable (s.entry r.line).home then (s.offerTo r.id (s.entry r.line).home).startOffer r.id
      else if s.usable (s.entry r.line).home.partner then
        (s.offerTo r.id (s.entry r.line).home.partner).startOffer r.id
      else (s.updRecord r.id fun r => { r with state := .waiting, offered := .empty }).retone r.line := by
  simp only [State.makeFirstOffer, h]

end

/-- Settles O48, by the two ends of a capture and the record or the overflow entry of its line. -/
theorem captureEndOffersCall : Obligations.CaptureEndOffersCall := by
  intro s n bytes agrees
  let b : State := { s with orders := [] }
  refine ⟨fun hs h => ?_, fun ⟨hl, hc⟩ => readBurst_fields hl hc, fun e res he => ?_⟩
  · show Host.Outcome.next _ = _
    cases hb : readBurst bytes hs with
    | none => rfl
    | some x =>
      obtain ⟨rfl, hagree⟩ := readBurst_eq_some hb
      obtain h | h | h := h
      · cases h
      · exact absurd hagree h
      · exact congrArg Host.Outcome.next (if_neg h)
  · have ends : exec e s = .next (b.endCapture n res) := by
      rcases he with ⟨rfl, hc, rfl⟩ | ⟨rfl, ⟨x, hx, rfl⟩, hlisten⟩
      · obtain ⟨x, hx⟩ := Option.isSome_iff_exists.1 hc
        have ends (q : State) (hq : q.capture n = some x) :
            (match q.capture n with
              | some _ => q.endCapture n .notReceived
              | none => q) = q.endCapture n .notReceived := by rw [hq]
        exact congrArg Host.Outcome.next (ends b hx)
      · show Host.Outcome.next _ = _
        simp only [Option.mem_def.1 hx]
        exact congrArg _ (if_pos hlisten)
    intro g rcv freed
    let u : State := b.setCapture n none
    let bare (a : State) : State := { a with captures := s.captures, receivers := s.receivers, orders := [] }
    have freeing {v w : State} (hv : u.handResult n res = v) (hw : bare v = bare w) (hc : v.captures = u.captures)
        (hr : v.receivers = s.receivers) (ho : v.orders = []) : exec e s = .next (freed w) := by
      have hrcv : v.receiver n.group = rcv := by
        rw [State.receiver, hr]
        rfl
      have hfreed : v.leaveReceiver n = freed v := by
        rw [leaveReceiver_eq, hrcv, hr, ho]
        show { v with
          receivers := s.receivers.set g (rcv.without n)
          orders := [] ++ (if rcv.listening = some n then [Order.listen g rcv.waiting.head?] else []) } =
          { v with
            captures := u.captures, receivers := s.receivers.set g (rcv.without n)
            orders := if rcv.listening = some n then [Order.listen g rcv.waiting.head?] else [] }
        rw [← hc, List.nil_append]
      have hbare : freed (bare v) = freed (bare w) := by rw [hw]
      rw [ends, State.endCapture, hv, hfreed]
      exact congrArg Host.Outcome.next hbare
    refine ⟨fun r hl hid hs hoff horph horig hline => ?_, fun hnone => ?_⟩
    · have hn : r.line = n := (State.recordOfLine_some hl).2
      subst hn
      intro home resolved offeredTo becomes hone
      let res' (q : CallRecord) : CallRecord := q.resolved s.acceptance (s.entry r.line) res
      let v := u.updRecord r.id res'
      have h1 : v.recordById resolved.id = some resolved := recordById_changed (s := u) (f := res') (fun _ => rfl) hid
      have h2 : v.recordOfLine resolved.line = some resolved :=
        recordOfLine_changed (s := u) (f := res') (fun _ => rfl) hl
      have hi : (v.line resolved.line).condition = .inCall := congrArg LineUnit.condition hline
      have ht (q : CallRecord) (hu : q.state.unclaimed = true) (ho : q.flags.orphan = false) (hg : q.origin = none) :
          (v.line resolved.line).tone = toneFor .inCall (some q) := by
        have hr : toneFor .inCall (some r) = .registered := by simp [toneFor, hs, horph, horig]
        refine (congrArg LineUnit.tone hline).trans (hr.symm.trans (toneFor_unclaimed ?_ hu ?_ ?_).symm)
        · rw [hs]
          rfl
        · rw [ho, horph]
        · rw [hg, horig]
      have first : u.handResult r.line res = v.makeFirstOffer r.id := handResult_identifying hl hs
      have offers (d : Centre) (hm : v.makeFirstOffer r.id = (v.offerTo r.id d).startOffer r.id) :
          exec e s = .next (freed ({ s with records := becomes (offeredTo d) }.informed d.link
            (.callOffer (offerOf (offeredTo d))))) := by
        have hoffer := offerTo_startOffer (c := d) h1 h2 hi (ht _ rfl horph horig)
        have hrec : v.updRecord resolved.id (fun q => { offering v resolved d q with
            firstOffer := some v.tick, escalation := some (v.timer (v.timers.escalate * 1000)) }) =
              { u with records := becomes (offeredTo d) } := by
          refine (updRecord_updRecord (s := u) res' _ fun _ => rfl).trans ?_
          refine congrArg (fun x => { u with records := x }) (List.map_congr_left fun p hp => ?_)
          by_cases hpid : p.id = r.id
          · rw [if_pos hpid, if_pos hpid, hone p hp hpid]
            show _ = { resolved with
              state := .offered, offered := CentreSet.empty.add d, firstOffer := some s.tick
              escalation := some { length := s.timers.escalate * 1000, due := s.clock + s.timers.escalate * 1000 }
              flags := { r.flags with
                unsupervised := (s.group g).health = GroupHealth.silent, doubtful := (s.group g).health = GroupHealth.pathFault } }
            rw [← hoff]
            rfl
          · rw [if_neg hpid, if_neg hpid]
        refine freeing (first.trans (hm.trans hoffer)) ?_ ?_ ?_ ?_ <;> rw [hrec, informed_eq]
        · rw [informed_eq]
          cases d <;> rfl
        all_goals cases d <;> rfl
      have hfirst := makeFirstOffer_eq h1
      refine ⟨fun hu => offers _ ?_, fun hu hp => offers _ ?_, fun hu hp => ?_⟩
      · exact hfirst.trans (if_pos hu)
      · exact hfirst.trans ((if_neg (by rw [show v.usable (v.entry resolved.line).home = false from hu]; decide)).trans (if_pos hp))
      · have hwait : v.makeFirstOffer r.id = v.updRecord r.id fun r => { r with state := .waiting, offered := .empty } := by
          refine hfirst.trans ((if_neg ?_).trans ((if_neg ?_).trans (retone_settled
            (recordOfLine_changed (fun _ => rfl) h2) (toned_inCall hi (ht _ rfl horph horig)))))
          · exact fun h => Bool.false_ne_true (hu.symm.trans h)
          · exact fun h => Bool.false_ne_true (hp.symm.trans h)
        have hrec : (v.updRecord r.id fun r => { r with state := .waiting, offered := .empty }) =
            { u with records := becomes { resolved with state := .waiting } } := by
          refine (updRecord_updRecord (s := u) res' _ fun _ => rfl).trans ?_
          refine congrArg (fun x => { u with records := x }) (List.map_congr_left fun p hp => ?_)
          by_cases hpid : p.id = r.id
          · rw [if_pos hpid, if_pos hpid, hone p hp hpid, ← hoff]
            rfl
          · rw [if_neg hpid, if_neg hpid]
        exact freeing (first.trans (hwait.trans hrec)) rfl rfl rfl rfl
    · refine freeing (v := { u with overflow := u.overflow.map fun q => if q.line = n then { q with result := some res } else q })
        ?_ rfl rfl rfl rfl
      simp only [State.handResult, show u.recordOfLine n = none from hnone]

end Sys2Proof.Proofs

/-! PROOFS. The offers that a link makes or loses record by record, in register order, as one update (R83, R104 to
R109). -/

namespace Sys2Proof.Proofs

open Sys2Proof Sys2Proof.Machine

/-! ### One record replaced -/

/-- The records with one of them replaced by a record of its call id. -/
def put (rs : List CallRecord) (r : CallRecord) : List CallRecord := rs.map fun p => if p.id = r.id then r else p

theorem put_put {rs : List CallRecord} {r q : CallRecord} (h : q.id = r.id) : put (put rs r) q = put rs q := by
  simp only [put, List.map_map]
  refine List.map_congr_left fun p _ => ?_
  by_cases hp : p.id = r.id <;> simp [hp, h]

theorem put_self {rs : List CallRecord} {r : CallRecord} (h : ∀ p ∈ rs, p.id = r.id → p = r) : put rs r = rs := by
  refine (List.map_congr_left fun p hp => ?_).trans (List.map_id rs)
  split
  · next he => exact (h p hp he).symm
  · rfl

theorem map_id_put (rs : List CallRecord) (r : CallRecord) : (put rs r).map (·.id) = rs.map (·.id) := by
  simp only [put, List.map_map]
  refine List.map_congr_left fun p _ => ?_
  by_cases hp : p.id = r.id <;> simp [hp]

/-- A state with other call records. -/
def holding (s : State) (rs : List CallRecord) : State := { s with records := rs }

/-! ### The calls and their lines -/

/-- The lines of the calls have the tones of their records, and neither an id nor a line stands twice in the register
(R41, R81, R82). -/
def Tidy (s : State) : Prop :=
  (s.records.map (·.id)).Nodup ∧ (s.records.map (·.line)).Nodup ∧
    ∀ r ∈ s.records, Toned (s.line r.line) r

theorem Tidy.recordOfLine {s : State} (h : (s.records.map (·.line)).Nodup) {r : CallRecord} (hr : r ∈ s.records) :
    s.recordOfLine r.line = some r := by
  obtain ⟨q, hq⟩ := Option.isSome_iff_exists.1 (List.find?_isSome (p := fun p : CallRecord => decide (p.line = r.line)).2
    ⟨r, hr, decide_eq_true rfl⟩)
  have hm := State.recordOfLine_some (s := s) hq
  exact hq.trans (congrArg some (List.inj_on_of_nodup_map h hm.1 hr hm.2))

theorem Tidy.recordById {s : State} (h : (s.records.map (·.id)).Nodup) {r : CallRecord} (hr : r ∈ s.records) :
    s.recordById r.id = some r := by
  obtain ⟨q, hq⟩ := Option.isSome_iff_exists.1 (List.find?_isSome (p := fun p : CallRecord => decide (p.id = r.id)).2
    ⟨r, hr, decide_eq_true rfl⟩)
  have hm := State.recordById_some (s := s) hq
  exact hq.trans (congrArg some (List.inj_on_of_nodup_map h hm.1 hr hm.2))

theorem tidy_of_inv {s : State} (hid : InvIds s) (hc : InvCalls s) (hl : InvLines s) : Tidy s := by
  obtain ⟨-, -, -, hids, -⟩ := hid
  obtain ⟨hlines, hin, -⟩ := hc
  have hn : (s.records.map (·.line)).Nodup := (List.nodup_append.1 hlines).1
  refine ⟨(List.nodup_append.1 hids).1, hn, fun r hr => ?_⟩
  exact (hl.2.2 r.line).trans (by rw [Tidy.recordOfLine hn hr])

theorem Tidy.of_eq {s t : State} (h : Tidy s) (hr : t.records = s.records) (hl : t.lines = s.lines) : Tidy t := by
  unfold Tidy State.line
  rw [hr, hl]
  exact h

/-! ### The turn of one record -/

/-- Only the queues of the centre links differ. -/
def Linked (s t : State) : Prop := ∃ a b, t = { s with linkA := a, linkB := b }

theorem Linked.refl (s : State) : Linked s s := ⟨s.linkA, s.linkB, rfl⟩

theorem Linked.informed {s t : State} (h : Linked s t) (c : Centre) (n : Notice) : Linked s (t.informed c.link n) := by
  obtain ⟨a, b, rfl⟩ := h
  rw [informed_eq]
  cases c <;> exact ⟨_, _, rfl⟩

theorem Linked.leftBy {s t : State} (h : Linked s t) (c : Centre) (id : CallId) (n : Notice) :
    Linked s (t.leftBy c id n) := by
  obtain ⟨a, b, rfl⟩ := h
  cases c <;> exact ⟨_, _, rfl⟩

theorem informed_records (s : State) (c : Centre) (n : Notice) (rs : List CallRecord) :
    (holding s rs).informed c.link n = holding (s.informed c.link n) rs := by
  rw [informed_eq, informed_eq]
  cases c <;> rfl

theorem leftBy_records (s : State) (c : Centre) (id : CallId) (n : Notice) (rs : List CallRecord) :
    (holding s rs).leftBy c id n = holding (s.leftBy c id n) rs := by
  cases c <;> rfl

theorem withdrawFrom_eq (s : State) (r : CallRecord) (c : Centre) (x : EndReason) :
    s.withdrawFrom r c x = s.leftBy c r.id (.callWithdrawn r.id r.line x) := rfl

/-- A record as its turn finds it: the only one of its id and its line in the register, on a line with its tone,
in a state that differs from the first in its queues and records alone. -/
structure Turn (u w : State) (rs : List CallRecord) (r : CallRecord) : Prop where
  linked : Linked u w
  byId : rs.find? (·.id = r.id) = some r
  ofLine : rs.find? (·.line = r.line) = some r
  alone : ∀ p ∈ rs, p.id = r.id → p = r
  toned : Toned (u.line r.line) r

section

variable {u w : State} {rs : List CallRecord} {r q : CallRecord} {c : Centre}

theorem Turn.updRecord (h : Turn u w rs r) (f : CallRecord → CallRecord) (hf : (f r).id = r.id) :
    (holding w rs).updRecord r.id f = holding w (put rs (f r)) := by
  refine congrArg (fun x => holding w x) (List.map_congr_left fun p hp => ?_)
  rw [hf]
  split
  · next he => rw [h.alone p hp he]
  · rfl

/-- The turn goes on with the record changed, when its line has the tone of the change. -/
theorem Turn.become (h : Turn u w rs r) (hid : q.id = r.id) (hline : q.line = r.line)
    (ht : Toned (u.line r.line) q) : Turn u w (put rs q) q := by
  have hmem := List.mem_of_find?_eq_some h.byId
  have find {p : CallRecord → Bool} (hp : p q = p r) (hr : rs.find? p = some r) :
      (put rs q).find? p = some q := by
    rw [put, List.find?_map]
    have : (p ∘ fun x : CallRecord => if x.id = q.id then q else x) = fun x => if x.id = r.id then p r else p x := by
      funext x
      simp only [Function.comp_apply, hid]
      split <;> simp [hp]
    have hcong : rs.find? (p ∘ fun x : CallRecord => if x.id = q.id then q else x) = rs.find? p := by
      rw [this]
      clear hr hp this
      have ha := h.alone
      clear h hmem
      induction rs with
      | nil => rfl
      | cons x xs ih =>
        have hx := ha x List.mem_cons_self
        rw [List.find?_cons, List.find?_cons, ih fun y hy => ha y (List.mem_cons_of_mem _ hy)]
        by_cases he : x.id = r.id
        · rw [if_pos he, hx he]
        · rw [if_neg he]
    rw [hcong, hr, Option.map_some, if_pos hid.symm]
  refine ⟨h.linked, find (by simp [hid]) (by rw [hid]; exact h.byId), find (by simp [hline]) (by rw [hline]; exact h.ofLine),
    fun p hp he => ?_, hline ▸ ht⟩
  obtain ⟨x, hx, rfl⟩ := List.mem_map.1 hp
  split at he <;> simp_all

theorem Turn.change (h : Turn u w rs r) (hid : q.id = r.id) (hline : q.line = r.line)
    (ht : toneFor .inCall (some q) = toneFor .inCall (some r)) : Turn u w (put rs q) q :=
  h.become hid hline (h.toned.change ht)

theorem Turn.informed (h : Turn u w rs r) (d : Centre) (n : Notice) : Turn u (w.informed d.link n) rs r :=
  { h with linked := h.linked.informed d n }

theorem Turn.leftBy (h : Turn u w rs r) (d : Centre) (id : CallId) (n : Notice) : Turn u (w.leftBy d id n) rs r :=
  { h with linked := h.linked.leftBy d id n }

theorem Turn.retone (h : Turn u w rs r) :
    (holding w rs).retone r.line = holding w rs := by
  have hline : (holding w rs).line r.line = u.line r.line := by
    obtain ⟨a, b, rfl⟩ := h.linked
    rfl
  exact retone_settled h.ofLine (hline ▸ h.toned)

/-- The record as an offer by itself leaves it (R105). -/
def offeredBy (u : State) (r : CallRecord) (c : Centre) : CallRecord := r.offeredTo c (u.group r.line.group).health

theorem toneFor_offered (hr : r.state.unclaimed = true) :
    toneFor .inCall (some (offeredBy u r c)) = toneFor .inCall (some r) :=
  toneFor_unclaimed hr rfl rfl rfl

/-- An offer to a link places its CALL_OFFER and changes its record (R105). -/
theorem Turn.offerTo_toned (h : Turn u w rs r) (ht : Toned (u.line r.line) (offeredBy u r c)) :
    (holding w rs).offerTo r.id c =
      holding (w.informed c.link (.callOffer (offerOf (offeredBy u r c)))) (put rs (offeredBy u r c)) := by
  obtain ⟨a, b, hw⟩ := h.linked
  have hoff : offering (holding w rs) r c r = offeredBy u r c := by subst hw; rfl
  have hline : (holding w rs).line r.line = u.line r.line := by subst hw; rfl
  refine (offerTo_eq (s := holding w rs) h.byId h.ofLine ?_).trans ?_
  · rw [hline, hoff]
    exact ht
  · rw [hoff, h.updRecord (offering (holding w rs) r c) rfl, hoff]
    exact informed_records w c _ _

theorem Turn.offerTo (h : Turn u w rs r) (hr : r.state.unclaimed = true) :
    (holding w rs).offerTo r.id c =
      holding (w.informed c.link (.callOffer (offerOf (offeredBy u r c)))) (put rs (offeredBy u r c)) :=
  h.offerTo_toned (h.toned.change (toneFor_offered hr))

theorem Turn.offer (h : Turn u w rs r) (hr : r.state.unclaimed = true) :
    Turn u (w.informed c.link (.callOffer (offerOf (offeredBy u r c)))) (put rs (offeredBy u r c)) (offeredBy u r c) :=
  (h.change (q := offeredBy u r c) rfl rfl (toneFor_offered hr)).informed c _

/-- The first offer of a record starts its escalation timer (R106, R107). -/
theorem Turn.startOffer (h : Turn u w rs r) : (holding w rs).startOffer r.id = holding w (put rs { r with
    firstOffer := some u.tick, escalation := some (u.timer (u.timers.escalate * 1000)) }) := by
  obtain ⟨a, b, hw⟩ := h.linked
  refine Eq.trans ?_ (h.updRecord (fun q => { q with
    firstOffer := some u.tick, escalation := some (u.timer (u.timers.escalate * 1000)) }) rfl)
  rw [hw]
  rfl

/-- What is done for the record of a call id, if one stands in the register. -/
def turnOf (f : State → CallRecord → State) (s : State) (id : CallId) : State :=
  match s.recordById id with
  | some r => f s r
  | none => s

theorem turnOf_some {f : State → CallRecord → State} {s : State} {id : CallId} (h : s.recordById id = some r) :
    turnOf f s id = f s r := by
  rw [turnOf, h]

theorem eachRecord_turns (f : State → CallRecord → State) :
    u.eachRecord f = (u.registerOrder.map (·.id)).foldl (turnOf f) u := rfl

/-- The records of the register that have not had their turn yet, and those that had it. -/
theorem foldl_turns {f : State → CallRecord → State} {φ : CallRecord → CallRecord} {ψ : State → CallRecord → State}
    (ht : Tidy u) (hid : ∀ r, (φ r).id = r.id) (hline : ∀ r, (φ r).line = r.line)
    (step : ∀ w rs r, r ∈ u.records → Turn u w rs r →
      Linked u (ψ w r) ∧ f (holding w rs) r = holding (ψ w r) (put rs (φ r)))
    (xs : List CallRecord) (w : State) (done : CallRecord → Bool) (hw : Linked u w)
    (hsub : ∀ r ∈ xs, r ∈ u.records) (hnd : (xs.map (·.id)).Nodup) (hnew : ∀ r ∈ xs, done r = false) :
    (xs.map (·.id)).foldl (turnOf f)
        (holding w (u.records.map fun p => if done p then φ p else p)) =
      holding (xs.foldl ψ w) (u.records.map fun p => if done p || decide (p ∈ xs) then φ p else p) := by
  obtain ⟨hids, hlines, htone⟩ := ht
  induction xs generalizing w done with
  | nil => simp
  | cons r xs ih =>
    have hr := hsub r List.mem_cons_self
    have hn := hnew r List.mem_cons_self
    let g : CallRecord → CallRecord := fun p => if done p then φ p else p
    have hgid (p : CallRecord) : (g p).id = p.id := by dsimp only [g]; split <;> simp [hid]
    have hgline (p : CallRecord) : (g p).line = p.line := by dsimp only [g]; split <;> simp [hline]
    have hgr : g r = r := if_neg (by simp [hn])
    have find {p : CallRecord → Bool} (hp : ∀ x, p (g x) = p x) (hf : u.records.find? p = some r) :
        (u.records.map g).find? p = some r := by
      rw [List.find?_map, show p ∘ g = p from funext hp, hf, Option.map_some, hgr]
    have turn : Turn u w (u.records.map g) r :=
      { linked := hw
        byId := find (by simp [hgid]) (Tidy.recordById hids hr)
        ofLine := find (by simp [hgline]) (Tidy.recordOfLine hlines hr)
        alone := fun p hp he => by
          obtain ⟨x, hx, rfl⟩ := List.mem_map.1 hp
          rw [List.inj_on_of_nodup_map hids hx hr ((hgid x).symm.trans he), hgr]
        toned := htone r hr }
    obtain ⟨hψ, hstep⟩ := step w _ r hr turn
    have hput : put (u.records.map g) (φ r) =
        u.records.map fun p => if done p || decide (p = r) then φ p else p := by
      rw [put, List.map_map]
      refine List.map_congr_left fun p hp => ?_
      simp only [Function.comp_apply, hgid, hid]
      by_cases he : p = r
      · simp [he]
      · have hne : p.id ≠ r.id := fun h => he (List.inj_on_of_nodup_map hids hp hr h)
        simp [he, hne, g]
    rw [List.map_cons] at hnd
    obtain ⟨hnot, hnd⟩ := List.nodup_cons.1 hnd
    rw [List.map_cons, List.foldl_cons, List.foldl_cons]
    have hhead : turnOf f (holding w (u.records.map g)) r.id = holding (ψ w r) (put (u.records.map g) (φ r)) :=
      (turnOf_some (s := holding w (u.records.map g)) turn.byId).trans hstep
    refine (congrArg (fun v => (xs.map (·.id)).foldl (turnOf f) v) hhead).trans ?_
    rw [hput]
    refine (ih (ψ w r) (fun p => done p || decide (p = r)) hψ (fun q hq => hsub q (List.mem_cons_of_mem _ hq)) hnd
      fun q hq => ?_).trans ?_
    · have : q ≠ r := fun h => hnot (h ▸ List.mem_map_of_mem hq)
      simp [hnew q (List.mem_cons_of_mem _ hq), this]
    · refine congrArg (fun x => holding (xs.foldl ψ (ψ w r)) x) (List.map_congr_left fun p _ => ?_)
      simp [Bool.or_assoc]

/-- What is done for each record in register order is done to all of them at once, with the messages in register
order (R83). -/
theorem eachRecord_eq {f : State → CallRecord → State} {φ : CallRecord → CallRecord} {ψ : State → CallRecord → State}
    (ht : Tidy u) (hid : ∀ r, (φ r).id = r.id) (hline : ∀ r, (φ r).line = r.line)
    (step : ∀ w rs r, r ∈ u.records → Turn u w rs r →
      Linked u (ψ w r) ∧ f (holding w rs) r = (holding (ψ w r) (put rs (φ r)))) :
    u.eachRecord f = holding (u.registerOrder.foldl ψ u) (u.records.map φ) := by
  have hperm := registerOrder_perm u
  have h := foldl_turns ht hid hline step u.registerOrder u (fun _ => false) (Linked.refl u)
    (fun r hr => (hperm.mem_iff).1 hr) (((hperm.map _).nodup_iff).2 ht.1) fun _ _ => rfl
  simp only [Bool.false_eq_true, if_false, List.map_id', Bool.false_or, decide_eq_true_eq] at h
  exact h.trans (congrArg (fun x => holding (u.registerOrder.foldl ψ u) x)
    (List.map_congr_left fun p hp => if_pos ((mem_registerOrder u p).2 hp)))

/-- Nothing is done when nothing is done for any record. -/
theorem eachRecord_nothing {f : State → CallRecord → State} (h : ∀ r ∈ u.records, f u r = u) : u.eachRecord f = u := by
  have hall (xs : List CallId) : xs.foldl (turnOf f) u = u := by
    induction xs with
    | nil => rfl
    | cons x xs ih =>
      have hx : turnOf f u x = u := by
        unfold turnOf
        split
        · next r hr => exact h r (State.recordById_some hr).1
        · rfl
      rw [List.foldl_cons, hx, ih]
  exact hall _

/-- The CALL_OFFERs of the records that are offered, in register order. -/
theorem foldl_offers (s : State) (l : Link) (p : CallRecord → Bool) (f : CallRecord → CallRecord) (xs : List CallRecord) :
    xs.foldl (fun s r => if p r then s.informed l (.callOffer (offerOf (f r))) else s) s =
      s.offeredAll l ((xs.filter p).map f) := by
  rw [State.offeredAll, List.foldl_map, List.foldl_filter]

end

/-! ### A link that becomes usable -/

section

variable {s : State} {c : Centre}

theorem asOffered_keeps (r : CallRecord) : (s.asOffered r c).id = r.id ∧ (s.asOffered r c).line = r.line := ⟨rfl, rfl⟩

theorem offerOf_asOffered (r : CallRecord) : offerOf (s.asOffered r c) = offerOf (offeredBy s r c) := rfl

/-- A link that becomes usable is offered every record due to it, in register order (R105, R108). -/
theorem becomeUsable_eq (h : Tidy s) : s.becomeUsable c = s.welcomed c := by
  refine (eachRecord_eq (φ := fun r => if r.dueTo c then s.asOffered r c else r)
    (ψ := fun w r => if r.dueTo c then w.informed c.link (.callOffer (offerOf (s.asOffered r c))) else w) h
    (fun r => by split <;> rfl) (fun r => by split <;> rfl) fun w rs r _ turn => ?_).trans ?_
  · refine ⟨?_, ?_⟩
    · split
      · exact turn.linked.informed c _
      · exact turn.linked
    · have hkeep : holding w rs = holding w (put rs r) := by rw [put_self turn.alone]
      cases hs : r.state with
      | waiting =>
        have hdue : r.dueTo c = true := by simp [CallRecord.dueTo, hs]
        have hu : r.state.unclaimed = true := by rw [hs]; rfl
        have hoff := turn.offerTo (c := c) hu
        rw [if_pos hdue, if_pos hdue]
        simp only [State.offerOnUsable, hs, hoff, offerOf_asOffered]
        by_cases hfirst : (r.firstOffer.isNone && !r.claimedOnce) = true
        · rw [if_pos hfirst]
          refine (turn.offer (c := c) hu).startOffer.trans (congrArg (holding _) ?_)
          have hrec : s.asOffered r c = { offeredBy s r c with
              firstOffer := some s.tick, escalation := some (s.timer (s.timers.escalate * 1000)) } := by
            simp [State.asOffered, hs, hfirst, offeredBy, CallRecord.offeredTo, State.timer]
          rw [hrec]
          exact put_put rfl
        · rw [if_neg hfirst]
          have hrec : s.asOffered r c = offeredBy s r c := by
            simp [State.asOffered, hs, hfirst, offeredBy, CallRecord.offeredTo]
          rw [hrec]
      | offered =>
        have hu : r.state.unclaimed = true := by rw [hs]; rfl
        have hdue : r.dueTo c = ((r.flags.orphan || r.flags.escalated) && !r.offered.has c) := by
          simp [CallRecord.dueTo, hs]
        simp only [State.offerOnUsable, hs, hdue]
        split
        · rw [turn.offerTo hu, offerOf_asOffered]
          have hrec : s.asOffered r c = offeredBy s r c := by
            simp [State.asOffered, hs, offeredBy, CallRecord.offeredTo]
          rw [hrec]
        · exact hkeep
      | identifying | connected | held =>
        have hdue : r.dueTo c = false := by simp [CallRecord.dueTo, hs]
        simp only [State.offerOnUsable, hs, hdue, Bool.false_eq_true, if_false]
        exact hkeep
  · rw [foldl_offers s c.link (·.dueTo c) fun r => s.asOffered r c]
    rfl

theorem offeredAll_linked {u w : State} (h : Linked u w) (rs : List CallRecord) : Linked u (w.offeredAll c.link rs) := by
  induction rs generalizing w with
  | nil => exact h
  | cons r rs ih => exact ih (h.informed c _)

/-- A link that is offered nothing is left as it is. -/
theorem welcomed_nothing (h : ∀ r ∈ s.records, r.dueTo c = false) : s.welcomed c = s := by
  have hf : s.registerOrder.filter (·.dueTo c) = [] :=
    List.filter_eq_nil_iff.2 fun r hr => by simp [h r ((mem_registerOrder s r).1 hr)]
  have hm : s.records.map (fun r => if r.dueTo c then s.asOffered r c else r) = s.records :=
    (List.map_congr_left fun r hr => by rw [if_neg (by simp [h r hr]), id]).trans (List.map_id _)
  rw [State.welcomed, hf, hm]
  rfl

theorem becomeUsable_nothing (h : ∀ r ∈ s.records, r.dueTo c = false) : s.becomeUsable c = s := by
  refine eachRecord_nothing fun r hr => ?_
  have hd := h r hr
  unfold State.offerOnUsable
  cases hs : r.state <;> simp_all [CallRecord.dueTo]

/-! ### The standby fall-back -/

/-- The link is one that the fall-back returns to duty (R104). -/
def resumes (s : State) (c : Centre) : Bool := (s.centre c).duty = .standby && (s.centre c).health.heard

theorem fallback_usable (h : s.usable c = true) : s.fallback = s := by
  cases c <;> simp [State.fallback, h]

theorem fallback_eq_each (ha : s.usable c = false) (hb : s.usable c.partner = false) :
    s.fallback = s.each [.a, .b] fun s c =>
      if resumes s c then ((s.setDuty c .active).notify c.link .dutyResumed).becomeUsable c else s := by
  refine if_neg ?_
  cases c <;> simp_all [Centre.partner]

theorem usable_of_resumes (h : resumes s c = true) : s.usable c = false := by
  have hd : (s.centre c).duty = .standby := by simp_all [resumes]
  simp [State.usable, hd]

theorem becomeUsable_calledBack (h : Tidy s) :
    ((s.setDuty c .active).notify c.link .dutyResumed).becomeUsable c = s.calledBack c := by
  rw [State.notify_eq]
  refine becomeUsable_eq (h.of_eq ?_ ?_) <;> rw [informed_eq] <;> cases c <;> rfl

theorem welcomed_centre (d : Centre) : (s.welcomed c).centre d = s.centre d := by
  obtain ⟨a, b, h⟩ := offeredAll_linked (c := c) (Linked.refl s)
    ((s.registerOrder.filter (·.dueTo c)).map (s.asOffered · c))
  unfold State.welcomed
  rw [h]
  rfl

theorem calledBack_centre_partner : (s.calledBack c).centre c.partner = s.centre c.partner := by
  rw [State.calledBack, welcomed_centre, informed_eq]
  cases c <;> rfl

/-- With neither link usable and one of them no candidate, the other is called back when it is heard (R104). -/
theorem fallback_calledBack (h : Tidy s) (hu : s.usable c.partner = false) (hd : resumes s c.partner = false)
    (hr : resumes s c = true) : s.fallback = s.calledBack c := by
  have hp : resumes (s.calledBack c) c.partner = false := by
    unfold resumes
    rw [calledBack_centre_partner]
    exact hd
  rw [fallback_eq_each (usable_of_resumes hr) hu]
  cases c with
  | a =>
    dsimp only [State.each, List.foldl_cons, List.foldl_nil]
    rw [if_pos hr, becomeUsable_calledBack h]
    exact if_neg (by simp [show resumes (s.calledBack .a) .b = false from hp])
  | b =>
    dsimp only [State.each, List.foldl_cons, List.foldl_nil]
    have hd : resumes s .a = false := hd
    rw [if_neg (by simp [hd] : ¬ resumes s .a = true), if_pos hr, becomeUsable_calledBack h]

theorem fallback_none (hc : resumes s c = false) (hp : resumes s c.partner = false) : s.fallback = s := by
  cases hu : s.usable c with
  | true => exact fallback_usable hu
  | false =>
    cases hv : s.usable c.partner with
    | true => exact fallback_usable hv
    | false =>
      rw [fallback_eq_each hu hv]
      cases c <;> simp_all [State.each, Centre.partner]

end

end Sys2Proof.Proofs

/-! PROOFS. RESUME (R125) and the effects of good and bad frames on the calls (R104 to R109, R152 to R155). -/

namespace Sys2Proof.Proofs

open Sys2Proof Sys2Proof.Machine

section

variable {s : State} {c : Centre}

/-- What stands with the frame of a command keeps the calls and their lines (R41, R82). -/
theorem Tidy.answered {l : Link} {type : Byte} {code : ReplyCode} {fields : List Byte} (h : Tidy s) :
    Tidy (s.answered l type code fields) := h.of_eq (by cases l <;> rfl) (by cases l <;> rfl)

theorem Tidy.setCentre {k : CentreControl} (h : Tidy s) : Tidy (s.setCentre c k) :=
  h.of_eq (by cases c <;> rfl) (by cases c <;> rfl)

theorem Tidy.setLink {l : Link} {k : LinkController} (h : Tidy s) : Tidy (s.setLink l k) :=
  h.of_eq (by cases l <;> rfl) (by cases l <;> rfl)

theorem Tidy.informed {l : Link} {n : Notice} (h : Tidy s) : Tidy (s.informed l n) := by
  rw [informed_eq]
  exact h.setLink

/-- Two states that agree in all that an offer reads but the queues (R83, R105 to R107). -/
structure Alike (s t : State) : Prop where
  records : t.records = s.records
  tick : t.tick = s.tick
  clock : t.clock = s.clock
  groups : t.groups = s.groups
  timers : t.timers = s.timers

theorem Alike.registerOrder {t : State} (h : Alike s t) : t.registerOrder = s.registerOrder := by
  rw [State.registerOrder, h.records, h.tick, State.registerOrder]

theorem Alike.asOffered {t : State} (h : Alike s t) (r : CallRecord) : t.asOffered r c = s.asOffered r c := by
  rw [State.asOffered, h.tick, h.clock, h.timers, State.group, h.groups]
  rfl

theorem Alike.answered (s : State) (l : Link) (type : Byte) (code : ReplyCode) (fields : List Byte) :
    Alike s (s.answered l type code fields) := by
  cases l <;> exact ⟨rfl, rfl, rfl, rfl, rfl⟩

theorem Alike.setCentre (s : State) (c : Centre) (k : CentreControl) : Alike s (s.setCentre c k) := by
  cases c <;> exact ⟨rfl, rfl, rfl, rfl, rfl⟩

theorem Alike.setLink (s : State) (l : Link) (k : LinkController) : Alike s (s.setLink l k) := by
  cases l <;> exact ⟨rfl, rfl, rfl, rfl, rfl⟩

theorem Alike.trans {t u : State} (h : Alike s t) (h' : Alike t u) : Alike s u :=
  ⟨h'.records.trans h.records, h'.tick.trans h.tick, h'.clock.trans h.clock, h'.groups.trans h.groups,
    h'.timers.trans h.timers⟩

theorem Alike.welcomed {t : State} (h : Alike s t) : t.welcomed c =
    { t.offeredAll c.link ((s.registerOrder.filter (·.dueTo c)).map (s.asOffered · c)) with
      records := s.records.map fun r => if r.dueTo c then s.asOffered r c else r } := by
  unfold State.welcomed
  rw [h.registerOrder, h.records, show t.asOffered = s.asOffered from funext fun r => funext fun _ => h.asOffered r]

theorem answered_centre (s : State) (l : Link) (type : Byte) (code : ReplyCode) (fields : List Byte) (d : Centre) :
    (s.answered l type code fields).centre d = s.centre d := State.setLink_centre ..

theorem setCentre_centre_partner (s : State) (c : Centre) (k : CentreControl) :
    (s.setCentre c k).centre c.partner = s.centre c.partner :=
  (State.setCentre_centre ..).trans (if_neg (partner_ne c))

theorem usable_welcomed (d : Centre) : (s.welcomed c).usable d = s.usable d := by
  rw [State.usable, welcomed_centre, State.usable]

end

/-- Settles O26, by the duty of the link and, for a STANDBY one, its health. -/
theorem resumeReturnsToDuty : Obligations.ResumeReturnsToDuty := by
  intro s c had a b
  have he : exec (.resume c.link []) s = .next (a.resumeDuty c) := taking_centreCommand had () _
  have hback : (a.setDuty c .active).reply c.link Command.resume .ok [] = b := State.reply_eq ..
  have hcb : b.centre c = { a.centre c with duty := .active } :=
    (answered_centre ..).trans ((State.setCentre_centre ..).trans (if_pos rfl))
  have hpb : b.centre c.partner = a.centre c.partner := (answered_centre ..).trans (setCentre_centre_partner ..)
  have hstand (hd : (a.centre c).duty = .standby) : a.resumeDuty c =
      (if b.usable c then b.becomeUsable c else b).fallback := by
    rw [State.resumeDuty, hd, ← hback]
  have halike : Alike a b := (Alike.setCentre ..).trans (Alike.answered ..)
  refine ⟨fun hd => ?_, fun hd => ?_, fun hd hh => ?_, fun hd hh => ?_⟩
  · rw [he, State.resumeDuty, hd, State.refuse_eq]
  · rw [he, State.resumeDuty, hd, State.reply_eq]
  · have hu : b.usable c = true := by rw [State.usable, hcb]; simp [hh]
    refine ⟨fun hn => ?_, fun hid hc hl => ?_⟩
    · rw [he, hstand hd, if_pos hu, becomeUsable_nothing (halike.records ▸ hn), fallback_usable hu]
    · have ht : Tidy b := (tidy_of_inv hid hc hl).setCentre.answered
      rw [he, hstand hd, if_pos hu, becomeUsable_eq ht, fallback_usable (c := c) ((usable_welcomed c).trans hu)]
      exact congrArg _ halike.welcomed
  · intro d calls
    have hu : b.usable c = false := by rw [State.usable, hcb]; simp [hh]
    have hcr : resumes b c = false := by rw [resumes, hcb]; simp
    have hdr : resumes b d = calls := by rw [resumes, hpb]
    rw [he, hstand hd, if_neg (by simp [hu])]
    refine ⟨fun hn => congrArg _ (fallback_none hcr (hdr.trans hn)), fun hn hid hc hl => congrArg _ ?_⟩
    have ht : Tidy b := (tidy_of_inv hid hc hl).setCentre.answered
    refine fallback_calledBack ht ?_ ?_ (hdr.trans hn) <;> rw [show d.partner = c by cases c <;> rfl]
    · exact hu
    · exact hcr

end Sys2Proof.Proofs

/-! PROOFS. What a change of a link's health does to the calls (R104 to R109), and the health that a good frame gives
(R152 to R155). -/

namespace Sys2Proof.Proofs

open Sys2Proof Sys2Proof.Machine

/-! ### A controller keeps its receiver and its RESYNC -/

theorem place_receive (k : LinkController) (m : Message) (f : Bool) :
    (k.place m f).receive = k.receive ∧ (k.resync = true → (k.place m f).resync = true) := by
  have note (k : LinkController) (m : Message) :
      (k.noteDiscard m).receive = k.receive ∧ (k.noteDiscard m).resync = k.resync := by
    unfold LinkController.noteDiscard
    split
    · split <;> exact ⟨rfl, rfl⟩
    · exact ⟨rfl, rfl⟩
  unfold LinkController.place
  dsimp only
  split
  · exact ⟨rfl, id⟩
  · split
    · split
      · exact ⟨(note ..).1, fun _ => (note ..).2⟩
      · exact ⟨(note ..).1, fun _ => (note ..).2⟩
    · exact ⟨rfl, id⟩

theorem enqueue_receive (k : LinkController) (m : Message) (f : Bool) :
    (k.enqueue m f).receive = k.receive ∧ (k.resync = true → (k.enqueue m f).resync = true) := by
  unfold LinkController.enqueue
  split
  · dsimp only
    split
    · exact ⟨rfl, id⟩
    · exact place_receive ..
  · exact place_receive ..

theorem pump_receive (k : LinkController) (now : Tick) : (k.pump now).receive = k.receive ∧ (k.pump now).resync = k.resync := by
  unfold LinkController.pump
  split <;> exact ⟨rfl, rfl⟩

/-- Submissions and leaves leave the receiver alone, and RESYNC set where it is set (R158). -/
theorem receive_of_path {lost : Bool} {now : Tick} {k j : LinkController} (h : LinkPath lost now k j) :
    j.receive = k.receive ∧ (k.resync = true → j.resync = true) := by
  induction h with
  | refl => exact ⟨rfl, id⟩
  | tail _ hstep ih =>
    obtain ⟨hr, hs⟩ := ih
    cases hstep with
    | submit m _ =>
      exact ⟨(pump_receive ..).1.trans ((enqueue_receive ..).1.trans hr),
        fun hk => (pump_receive ..).2.trans ((enqueue_receive ..).2 (hs hk))⟩
    | leave id n _ =>
      unfold LinkController.leave
      split
      · exact ⟨hr, hs⟩
      · split
        · exact ⟨(pump_receive ..).1.trans ((enqueue_receive ..).1.trans hr),
            fun hk => (pump_receive ..).2.trans ((enqueue_receive ..).2 (hs hk))⟩
        · exact ⟨hr, hs⟩

/-! ### A change of health -/

section

variable {b : State} {c : Centre} {old : Health}

theorem healthChanged_same (h : (b.centre c).health = old) : b.healthChanged c old = b := if_pos h

theorem usable_iff : b.usable c = true ↔ (b.centre c).health.heard = true ∧ (b.centre c).duty = .active := by
  simp [State.usable]

/-- An ACTIVE link that is heard again is offered what is due to it (R108). -/
theorem healthChanged_active (h : Tidy b) (hn : (b.centre c).health.heard = true) (ho : old.heard = false)
    (hd : (b.centre c).duty = .active) : b.healthChanged c old = b.welcomed c := by
  have hne : (b.centre c).health ≠ old := fun e => by rw [e, ho] at hn; cases hn
  have hu : b.usable c = true := usable_iff.2 ⟨hn, hd⟩
  simp only [State.healthChanged, if_neg hne, ho, Bool.and_false, Bool.false_eq_true, if_false, hn, Bool.not_false,
    Bool.true_and, hd, decide_true, if_true, becomeUsable_eq h]
  exact fallback_usable ((usable_welcomed c).trans hu)

/-- A change that escalates nothing and makes no link usable is left to the fall-back (R104). -/
theorem healthChanged_fallback (hne : (b.centre c).health ≠ old)
    (hf : (b.centre c).health = .failing → old.heard = false)
    (hr : (b.centre c).health.heard = true → old.heard = true ∨ (b.centre c).duty ≠ .active) :
    b.healthChanged c old = b.fallback := by
  have h1 : (decide ((b.centre c).health = .failing) && old.heard) = false := by
    by_cases h : (b.centre c).health = .failing <;> simp [h, hf]
  have h2 : ((b.centre c).health.heard && !old.heard && decide ((b.centre c).duty = .active)) = false := by
    by_cases h : (b.centre c).health.heard = true
    · rcases hr h with h' | h' <;> simp [h']
    · simp [h]
  simp only [State.healthChanged, if_neg hne, h1, h2, Bool.false_eq_true, if_false]

end

/-! ### The health of a score -/

theorem healthOf_heard (n : Nat) : (healthOf n).heard = true ↔ n < 128 := by
  unfold healthOf
  by_cases h96 : n < 96
  · simp [h96, Health.heard, h96.trans (by decide : 96 < 128)]
  · by_cases h128 : n < 128
    · simp [h96, h128, Health.heard]
    · by_cases h : n < Config.lostScore <;> simp [h96, h128, h, Health.heard]

theorem healthOf_failing (n : Nat) : healthOf n = .failing ↔ 128 ≤ n ∧ n < 256 := by
  unfold healthOf Config.lostScore
  by_cases h96 : n < 96
  · simp [h96, show ¬ 128 ≤ n by omega]
  · by_cases h128 : n < 128
    · simp [h96, h128]
    · by_cases h : n < 256
      · simp [h96, h128, h]
        omega
      · simp [h96, h128, h]

/-! ### Good frames -/

section

variable {s : State} {c : Centre} {l : Link}

theorem validFrame_scored (h : (s.centre c).health ≠ .lost) :
    s.validFrame c = (s.setCentre c { s.centre c with
      score := (s.centre c).score - 1, health := healthOf ((s.centre c).score - 1)
      silence := some { length := 5000, due := s.clock + 5000 } }).healthChanged c (s.centre c).health := by
  rw [State.validFrame, if_neg h]
  cases c <;> rfl

theorem validFrame_counted (h : (s.centre c).health = .lost) (hn : (s.centre c).recovery + 1 < 64) :
    s.validFrame c = s.setCentre c { s.centre c with recovery := (s.centre c).recovery + 1 } := by
  rw [State.validFrame, if_pos h]
  exact if_neg (Nat.not_le.2 hn)

theorem validFrame_recovers (h : (s.centre c).health = .lost) (hn : 64 ≤ (s.centre c).recovery + 1) :
    s.validFrame c = ((s.setLink c.link { s.link c.link with resync := true }).setCentre c { s.centre c with
      score := 0, health := .good, recovery := 0
      silence := some { length := 5000, due := s.clock + 5000 } }).healthChanged c .lost := by
  rw [State.validFrame, if_pos h]
  refine (if_pos hn).trans ?_
  cases c <;> rfl

/-- The state a frame leaves when no load report waits (R80). -/
theorem heard_eq (hp : s.reportPending l = false) :
    s.heard l = ({ s with orders := [] }.setReceive l .hunt).onCentre l State.validFrame := by
  have hf : fixed (({ s with orders := [] }.setReceive l .hunt).onCentre l State.validFrame) =
      fixed { s with orders := [] } := by
    cases l
    · exact (fixed_validFrame _ .a).trans (fixed_setLink ..)
    · exact (fixed_validFrame _ .b).trans (fixed_setLink ..)
    · exact fixed_setLink ..
  have hfresh : State.reportPending { s with orders := [] } l = s.reportPending l := by cases l <;> rfl
  have h := (congrFun (reportPending_of_fixed hf).2 l).trans (hfresh.trans hp)
  exact if_neg (by simp [h])

/-- What the frame leaves of the link's centre and its controller, when the calls have followed (R149, R152). -/
theorem healthChanged_frame (b : State) (c : Centre) (old : Health) :
    (∃ d, (b.healthChanged c old).centre c = { b.centre c with duty := d }) ∧
      ((b.healthChanged c old).link c.link).receive = (b.link c.link).receive ∧
      ((b.link c.link).resync = true → ((b.healthChanged c old).link c.link).resync = true) := by
  have hw := ((Calls.refl b).healthChanged c old).wired
  exact ⟨hw.centre c, receive_of_path (hw.link c.link)⟩

end

/-- With at most one link not ACTIVE, the partner of a link that is not ACTIVE stands by for nothing (R103). -/
theorem not_resumes_partner {s : State} {c : Centre} (h : InvDuty s) (hd : (s.centre c).duty ≠ .active) :
    resumes s c.partner = false := by
  have hp : (s.centre c.partner).duty = .active := by
    obtain ⟨h1, -⟩ := h
    cases c
    · exact h1.resolve_left hd
    · exact h1.resolve_right hd
  simp [resumes, hp]

/-- A change for the better: a link that is heard again is offered what is due to it, is called back, or is left to
its partner; any other change is none of the calls' (R104, R108). -/
theorem healthChanged_improved {b : State} {c : Centre} {old : Health} (ht : Tidy b)
    (hmono : old.heard = true → (b.centre c).health.heard = true)
    (hgap : (b.centre c).health.heard = false → old.heard = false → (b.centre c).health = old)
    (hpar : (b.centre c).duty ≠ .active → resumes b c.partner = false)
    (hstand : old.heard = true → (b.centre c).duty = .standby → b.usable c.partner = true) :
    b.healthChanged c old =
      if (b.centre c).health.heard && !old.heard && decide ((b.centre c).duty = .active) then b.welcomed c
      else if (b.centre c).health.heard && !old.heard && decide ((b.centre c).duty = .standby) && !b.usable c.partner then
        b.calledBack c
      else b := by
  have hnone (hd : (b.centre c).duty = .handingOver) : b.fallback = b :=
    fallback_none (c := c) (by simp [resumes, hd]) (hpar (by simp [hd]))
  by_cases hret : ((b.centre c).health.heard && !old.heard) = true
  · obtain ⟨hnew, hold⟩ := Bool.and_eq_true_iff.1 hret
    have hold : old.heard = false := by simpa using hold
    have hfall (hd : (b.centre c).duty ≠ .active) : b.healthChanged c old = b.fallback :=
      healthChanged_fallback (fun e => by rw [e, hold] at hnew; cases hnew) (fun _ => hold) fun _ => .inr hd
    rw [hret]
    cases hd : (b.centre c).duty with
    | active => simpa using healthChanged_active ht hnew hold hd
    | standby =>
      rw [hfall (by simp [hd])]
      cases hu : b.usable c.partner with
      | true => simpa using fallback_usable hu
      | false => simpa using fallback_calledBack ht hu (hpar (by simp [hd])) (by simp [resumes, hd, hnew])
    | handingOver => simpa using (hfall (by simp [hd])).trans (hnone hd)
  · rw [Bool.eq_false_iff.2 hret]
    simp only [Bool.false_and, Bool.false_eq_true, if_false]
    by_cases hsame : (b.centre c).health = old
    · exact healthChanged_same hsame
    · have hold : old.heard = true := by
        by_contra ho
        have ho := Bool.eq_false_iff.2 ho
        exact hsame (hgap (by simpa [ho] using hret) ho)
      have hnew := hmono hold
      rw [healthChanged_fallback hsame (fun h => by rw [h] at hnew; cases hnew) fun _ => .inl hold]
      cases hd : (b.centre c).duty with
      | active => exact fallback_usable (usable_iff.2 ⟨hnew, hd⟩)
      | standby => exact fallback_usable (hstand hold hd)
      | handingOver => exact hnone hd

/-- Settles O6, by the health of the link before the frame: the score and the timers by the frame itself, the calls by
the change of health. -/
theorem validFrameImprovesHealth : Obligations.ValidFrameImprovesHealth := by
  intro s l type body hn hb hp hw hl a
  have ha : a = ({ s with orders := [] }.setReceive l .hunt).onCentre l State.validFrame := heard_eq hp
  refine ⟨fun hlost => ?_, fun hS => ?_, fun c hc => ?_⟩
  · have hne : type ≠ Command.keepalive := by rintro rfl; exact absurd hn (by decide)
    have he : exec (.unknownCommand l type body) s = s.taking fun b =>
        b.command l type .none (some body) fun s _ => s.refuse l type .unknownCommand := by
      simp [exec, execUnknownCommand, hn]
    have hup : a.heldUp l type = none := by
      simp [State.heldUp, a, heard_window, heard_load, hl, hw, hne]
      exact hlost
    have had : s.admits l type .none := ⟨hb, hup, rfl⟩
    rw [he]
    exact (taking_command had body _).trans (congrArg _ (State.refuse_eq ..))
  · subst hS
    exact ha
  · obtain rfl : l = c.link := by cases l <;> cases hc <;> rfl
    let b0 : State := { s with orders := [] }.setReceive c.link .hunt
    have ha : a = b0.validFrame c := by rw [ha]; cases c <;> rfl
    have hcen (d : Centre) : b0.centre d = s.centre d := by cases c <;> cases d <;> rfl
    have hclock : b0.clock = s.clock := by cases c <;> rfl
    have hrec : (b0.link c.link).receive = .hunt := by cases c <;> rfl
    -- the state a frame leaves on a link that is not LOST, before the calls follow
    let scored : State := b0.setCentre c { s.centre c with
      score := (s.centre c).score - 1, health := healthOf ((s.centre c).score - 1)
      silence := some { length := 5000, due := s.clock + 5000 } }
    let back : State := (b0.setLink c.link { b0.link c.link with resync := true }).setCentre c { s.centre c with
      score := 0, health := .good, recovery := 0, silence := some { length := 5000, due := s.clock + 5000 } }
    have hscored (h : (s.centre c).health ≠ .lost) : a = scored.healthChanged c (s.centre c).health := by
      rw [ha, validFrame_scored (by rwa [hcen]), hcen, hclock]
    have hback (h : (s.centre c).health = .lost) (h64 : 64 ≤ (s.centre c).recovery + 1) :
        a = back.healthChanged c .lost := by
      rw [ha, validFrame_recovers (by rwa [hcen]) (by rwa [hcen]), hcen, hclock]
    have hsc : scored.centre c = { s.centre c with
      score := (s.centre c).score - 1, health := healthOf ((s.centre c).score - 1)
      silence := some { length := 5000, due := s.clock + 5000 } } := by cases c <;> rfl
    have hbc : back.centre c = { s.centre c with
      score := 0, health := .good, recovery := 0, silence := some { length := 5000, due := s.clock + 5000 } } := by
      cases c <;> rfl
    refine ⟨?_, fun h => ?_, fun h hsame => ?_, fun h hlt => ?_, fun h h64 => ?_, fun h64 hsound hid hcalls hlines hduty => ?_⟩
    · by_cases h : (s.centre c).health = .lost
      · by_cases h64 : 64 ≤ (s.centre c).recovery + 1
        · rw [hback h h64, (healthChanged_frame back c .lost).2.1]
          cases c <;> rfl
        · rw [ha, validFrame_counted (by rwa [hcen]) (by rw [hcen]; omega)]
          cases c <;> rfl
      · rw [hscored h, (healthChanged_frame scored c _).2.1]
        cases c <;> rfl
    · obtain ⟨⟨d, hd⟩, -⟩ := healthChanged_frame scored c (s.centre c).health
      rw [hscored h, hd, hsc]
      exact ⟨rfl, rfl, rfl, rfl⟩
    · have : a = scored := (hscored h).trans (healthChanged_same (by rw [hsc]; exact hsame))
      rw [this, hsc]
      exact ⟨rfl, rfl⟩
    · rw [ha, validFrame_counted (by rwa [hcen]) (by rwa [hcen]), hcen]
    · obtain ⟨⟨d, hd⟩, -, hr⟩ := healthChanged_frame back c .lost
      rw [hback h h64]
      rw [hd, hbc]
      exact ⟨rfl, rfl, rfl, rfl, hr (by cases c <;> rfl)⟩
    · intro old recovers score better returns
      have hbetter : better.centre c = { old with
          score := score, health := healthOf score, recovery := if recovers then 0 else old.recovery
          silence := some { length := 5000, due := s.clock + 5000 } } := by cases c <;> rfl
      have hpar : better.centre c.partner = s.centre c.partner := by cases c <;> rfl
      have hab : a = better.healthChanged c old.health := by
        by_cases h : old.health = .lost
        · have hr : recovers = true := decide_eq_true h
          rw [hback h (h64 h), h]
          refine congrArg (State.healthChanged · c .lost) ?_
          simp only [back, better, score, hr, if_true, Bool.or_true]
          cases c <;> rfl
        · have hr : recovers = false := decide_eq_false h
          rw [hscored h]
          refine congrArg (State.healthChanged · c old.health) ?_
          simp only [scored, better, score, hr, Bool.false_eq_true, if_false, Bool.or_false]
          cases c <;> rfl
      have htidy : Tidy better := ((tidy_of_inv hid hcalls hlines).of_eq rfl rfl : Tidy { s with orders := [] }).setLink.setCentre
      have hmono : old.health.heard = true → (healthOf score).heard = true := fun ho => by
        have : recovers = false := decide_eq_false (fun e => by rw [e] at ho; cases ho)
        rw [show old.health = healthOf old.score from hsound, healthOf_heard] at ho
        rw [healthOf_heard]
        simp only [score, this, Bool.false_eq_true, if_false]
        omega
      have hgap (h1 : (healthOf score).heard = false) (h2 : old.health.heard = false) : healthOf score = old.health := by
        have hr : recovers = false := by
          by_contra hr
          have : score = 0 := if_pos (Bool.not_eq_false _ ▸ hr)
          rw [this] at h1
          cases h1
        have hold : old.health = healthOf old.score := hsound
        have hne : ¬ Config.lostScore ≤ old.score := fun h =>
          (of_decide_eq_false hr) (hold.trans ((healthOf_lost _).2 h))
        have hlt : score < Config.lostScore := by simp only [score, hr, Bool.false_eq_true, if_false]; omega
        have h1 : ¬ score < 128 := fun h => by rw [(healthOf_heard _).2 h] at h1; cases h1
        have h2 : ¬ old.score < 128 := fun h => by rw [hold, (healthOf_heard _).2 h] at h2; cases h2
        rw [hold, (healthOf_failing score).2 ⟨by omega, hlt⟩, (healthOf_failing old.score).2 ⟨by omega, Nat.not_le.1 hne⟩]
      have hupar : better.usable c.partner = s.usable c.partner := by rw [State.usable, hpar, State.usable]
      have hstand (hold : old.health.heard = true) (hd : old.duty = .standby) : s.usable c.partner = true := by
        by_contra hu
        have hu := Bool.eq_false_iff.2 hu
        have hc : s.usable c = false := by simp [State.usable, show (s.centre c).duty = _ from hd]
        obtain ⟨-, -, h3⟩ := hduty
        have := h3 c (by cases c <;> simp) (by cases c <;> assumption) (by cases c <;> assumption) hd
        rw [show (s.centre c).health.heard = true from hold] at this
        cases this
      have h := healthChanged_improved (old := old.health) htidy (by rw [hbetter]; exact hmono)
        (by rw [hbetter]; exact hgap) (by
          rw [hbetter, resumes, hpar]
          exact fun hd => not_resumes_partner hduty hd) (by rw [hbetter, hupar]; exact hstand)
      rw [hbetter, hupar] at h
      exact hab.trans h

end Sys2Proof.Proofs

/-! PROOFS. Escalation (R109) and the health that a bad frame gives (R149, R152, R155). -/

namespace Sys2Proof.Proofs

open Sys2Proof Sys2Proof.Machine

/-! ### Register order of changed records -/

/-- A change that register order does not see (R83). -/
def Ranked (g : CallRecord → CallRecord) : Prop :=
  ∀ r, (g r).flags.orphan = r.flags.orphan ∧ (g r).category = r.category ∧ (g r).arrival = r.arrival ∧
    (g r).line = r.line

theorem before_of_ranked {g : CallRecord → CallRecord} (h : Ranked g) (now : Tick) (r q : CallRecord) :
    (g r).before now (g q) = r.before now q := by
  obtain ⟨h1, h2, h3, h4⟩ := h r
  obtain ⟨k1, k2, k3, k4⟩ := h q
  unfold CallRecord.before
  rw [h1, h2, h3, h4, k1, k2, k3, k4]

theorem insertRecord_map {g : CallRecord → CallRecord} (h : Ranked g) (now : Tick) (r : CallRecord) (xs : List CallRecord) :
    insertRecord now (g r) (xs.map g) = (insertRecord now r xs).map g := by
  induction xs with
  | nil => rfl
  | cons x xs ih =>
    rw [List.map_cons, insertRecord, insertRecord, before_of_ranked h, ih]
    split <;> rfl

/-- Records changed so stand in the same register order. -/
theorem registerOrder_map {s t : State} {g : CallRecord → CallRecord} (h : Ranked g) (ht : t.tick = s.tick)
    (hr : t.records = s.records.map g) : t.registerOrder = s.registerOrder.map g := by
  have all (xs : List CallRecord) :
      (xs.map g).foldr (insertRecord s.tick) [] = (xs.foldr (insertRecord s.tick) []).map g := by
    induction xs with
    | nil => rfl
    | cons x xs ih => rw [List.map_cons, List.foldr_cons, List.foldr_cons, ih, insertRecord_map h]
  rw [State.registerOrder, hr, ht]
  exact all s.records

/-- Records changed with their ids, lines and tones kept (R41). -/
theorem Tidy.map {s : State} (h : Tidy s) {g : CallRecord → CallRecord} (hid : ∀ r, (g r).id = r.id)
    (hline : ∀ r, (g r).line = r.line) (ht : ∀ r ∈ s.records, toneFor .inCall (some (g r)) = toneFor .inCall (some r)) :
    Tidy (holding s (s.records.map g)) := by
  obtain ⟨h1, h2, h3⟩ := h
  refine ⟨?_, ?_, fun r hr => ?_⟩
  · show ((s.records.map g).map (·.id)).Nodup
    rwa [List.map_map, show (·.id) ∘ g = (·.id) from funext hid]
  · show ((s.records.map g).map (·.line)).Nodup
    rwa [List.map_map, show (·.line) ∘ g = (·.line) from funext hline]
  · obtain ⟨q, hq, rfl⟩ := List.mem_map.1 hr
    rw [hline]
    exact (h3 q hq).change (ht q hq)

/-! ### Escalation -/

section

variable {s : State} {d : Centre}

/-- The record of a call that is offered to the link, ESCALATED (R109). -/
def escalated (d : Centre) (r : CallRecord) : CallRecord :=
  if r.offered.has d then { r with flags := { r.flags with escalated := true } } else r

/-- The call goes on to a usable partner (R109). -/
def goesOn (s : State) (d : Centre) (r : CallRecord) : Bool :=
  s.usable d.partner && (r.offered.has d && !r.offered.has d.partner)

theorem members_of_has {x : CentreSet} (h : x.has d = true) :
    x.members = [d] ∧ x.has d.partner = false ∨ x.members = [.a, .b] ∧ x.has d.partner = true := by
  obtain ⟨a, b⟩ := x
  cases d <;> cases a <;> cases b <;> simp_all [CentreSet.has, CentreSet.members, Centre.partner]

theorem asOffered_of_offered {r : CallRecord} {c : Centre} (h : r.state = .offered) : s.asOffered r c = offeredBy s r c := by
  simp [State.asOffered, h, offeredBy, CallRecord.offeredTo]

/-- The calls offered to the link are escalated, and offered to a usable partner in register order (R109). -/
theorem escalateOffers_eq (h : Tidy s) (hs : ∀ r ∈ s.records, r.offered.has d = true → r.state = .offered) :
    s.escalateOffers d = holding
      (s.offeredAll d.partner.link ((s.registerOrder.filter (goesOn s d)).map fun r => s.asOffered (escalated d r) d.partner))
      (s.records.map fun r => if goesOn s d r then s.asOffered (escalated d r) d.partner else escalated d r) := by
  have hid (r : CallRecord) : (escalated d r).id = r.id ∧ (escalated d r).line = r.line := by
    unfold escalated; split <;> exact ⟨rfl, rfl⟩
  refine (eachRecord_eq
    (φ := fun r => if goesOn s d r then s.asOffered (escalated d r) d.partner else escalated d r)
    (ψ := fun w r => if goesOn s d r then
      w.informed d.partner.link (.callOffer (offerOf (s.asOffered (escalated d r) d.partner))) else w) h
    (fun r => by split <;> exact (hid r).1) (fun r => by split <;> exact (hid r).2) fun w rs r hr turn => ⟨?_, ?_⟩).trans ?_
  · split
    · exact turn.linked.informed ..
    · exact turn.linked
  · by_cases hd : r.offered.has d = true
    · have hst := hs r hr hd
      have hesc : escalated d r = { r with flags := { r.flags with escalated := true } } := if_pos hd
      have hust : (escalated d r).state = .offered := by rw [hesc]; exact hst
      have hun : r.state.unclaimed = true := by rw [hst]; rfl
      have hmark : (holding w rs).updRecord r.id (fun r => { r with flags := { r.flags with escalated := true } }) =
          holding w (put rs (escalated d r)) := by
        rw [turn.updRecord _ rfl, hesc]
      have turn' : Turn s w (put rs (escalated d r)) (escalated d r) := by
        rw [hesc]
        exact turn.change rfl rfl (toneFor_unclaimed hun hun rfl rfl)
      have hus (c : Centre) : (holding w (put rs (escalated d r))).usable c = s.usable c := by
        obtain ⟨a, b, hw⟩ := turn.linked
        rw [hw]
        cases c <;> rfl
      have hgo : goesOn s d r = (s.usable d.partner && !r.offered.has d.partner) := by simp [goesOn, hd]
      simp only [hst, hd, decide_true, Bool.and_true, if_true, State.escalate, hmark, hgo]
      rcases members_of_has hd with ⟨hm, hp⟩ | ⟨hm, hp⟩
      · simp only [hm, State.each, List.foldl_cons, List.foldl_nil, hus, hp]
        split
        · have hoff := turn'.offerTo (c := d.partner) (by rw [hust]; rfl)
          rw [(hid r).1] at hoff
          rw [hoff, put_put (by rfl), asOffered_of_offered hust]
        · rfl
      · have hb (c : Centre) : r.offered.has c = true := by
          rcases eq_or_eq_partner d c with rfl | rfl <;> assumption
        simp only [hm, State.each, List.foldl_cons, List.foldl_nil, hb, Bool.not_true, Bool.and_false, Bool.false_eq_true,
          if_false]
    · have hgo : goesOn s d r = false := by simp [goesOn, hd]
      have hesc : escalated d r = r := if_neg hd
      simp only [hd, hgo, hesc, Bool.and_false, Bool.false_eq_true, if_false]
      rw [put_self turn.alone]
  · rw [foldl_offers s d.partner.link (goesOn s d) fun r => s.asOffered (escalated d r) d.partner]

theorem escalated_ranked (d : Centre) : Ranked (escalated d) := fun r => by
  unfold escalated
  split <;> exact ⟨rfl, rfl, rfl, rfl⟩

theorem offeredAll_holding (s : State) (c : Centre) (rs qs : List CallRecord) :
    (holding s rs).offeredAll c.link qs = holding (s.offeredAll c.link qs) rs := by
  induction qs generalizing s with
  | nil => rfl
  | cons q qs ih => rw [State.offeredAll_cons, State.offeredAll_cons, ← ih, ← informed_records]

/-- A call that is escalated and then due to the link that is called back (R108, R109). -/
theorem calledBack_changed {b : State} {c : Centre} {g : CallRecord → CallRecord} (hg : Ranked g) :
    (holding b (b.records.map g)).calledBack c =
      holding (((b.setCentre c { b.centre c with duty := .active }).informed c.link .dutyResumed).offeredAll c.link
        ((b.registerOrder.filter fun r => (g r).dueTo c).map fun r => b.asOffered (g r) c))
        (b.records.map fun r => if (g r).dueTo c then b.asOffered (g r) c else g r) := by
  have hstart : ((holding b (b.records.map g)).setCentre c { (holding b (b.records.map g)).centre c with duty := .active }).informed
      c.link .dutyResumed =
      holding ((b.setCentre c { b.centre c with duty := .active }).informed c.link .dutyResumed) (b.records.map g) := by
    rw [← informed_records]
    cases c <;> rfl
  have halike : Alike (holding b (b.records.map g))
      (holding ((b.setCentre c { b.centre c with duty := .active }).informed c.link .dutyResumed) (b.records.map g)) := by
    rw [informed_eq]
    cases c <;> exact ⟨rfl, rfl, rfl, rfl, rfl⟩
  have hro : (holding b (b.records.map g)).registerOrder = b.registerOrder.map g := registerOrder_map hg rfl rfl
  rw [State.calledBack, hstart, halike.welcomed, hro, offeredAll_holding, List.filter_map, List.map_map]
  show holding _ ((b.records.map g).map _) = _
  rw [List.map_map]
  rfl

/-! ### Bad frames -/

theorem onCentre_link (s : State) (c : Centre) (f : State → Centre → State) : s.onCentre c.link f = f s c := by
  cases c <;> rfl

theorem badFrame_lost (h : (s.centre d).health = .lost) : s.badFrame d = s.setCentre d { s.centre d with recovery := 0 } :=
  if_pos h

theorem badFrame_scored (h : (s.centre d).health ≠ .lost) (hn : (s.centre d).score + 8 < 256) :
    s.badFrame d = (s.setCentre d { s.centre d with
      score := (s.centre d).score + 8, health := healthOf ((s.centre d).score + 8) }).healthChanged d (s.centre d).health :=
  (if_neg h).trans (if_neg (Nat.not_le.2 hn))

/-- A frame that is bad, or that its timer cuts short, is dropped (R149). -/
theorem exec_dropped {l : Link} {e : Instr} {bytes : List Byte}
    (h : e = .frameBad l bytes ∧ judgeFrame bytes = .bad ∧ (s.link l).receive.inBreak = false ∨
      e = .frameTimerExpiry l ∧ (s.link l).receive.inFrame = true) :
    exec e s = .next ({ s with orders := [] }.dropBadFrame l) := by
  rcases h with ⟨rfl, hj, hb⟩ | ⟨rfl, hf⟩
  · dsimp only [exec, execFrameBad, State.taking_eq]
    rw [receive_fresh, hb, hj]
    rfl
  · dsimp only [exec, execFrameTimerExpiry, State.taking_eq]
    rw [receive_fresh, hf]
    rfl

/-- A move into FAILING escalates the link's offers, and the fall-back may call its partner back (R104, R109). -/
theorem healthChanged_failing {b : State} {old : Health} (h : Tidy b)
    (hs : ∀ r ∈ b.records, r.offered.has d = true → r.state = .offered) (hn : (b.centre d).health = .failing)
    (ho : old.heard = true) :
    b.healthChanged d old =
      if b.usable d.partner then b.escalateOffers d
      else if resumes b d.partner then (holding b (b.records.map (escalated d))).calledBack d.partner
      else holding b (b.records.map (escalated d)) := by
  have hne : (b.centre d).health ≠ old := fun e => by rw [← e, hn] at ho; cases ho
  have hdef : b.healthChanged d old = (b.escalateOffers d).fallback := by
    rw [State.healthChanged, if_neg hne]
    simp [hn, ho]
  have hcen (c : Centre) : (b.escalateOffers d).centre c = b.centre c := by
    obtain ⟨k, j, hkj⟩ := offeredAll_linked (c := d.partner) (Linked.refl b)
      ((b.registerOrder.filter (goesOn b d)).map fun r => b.asOffered (escalated d r) d.partner)
    rw [escalateOffers_eq h hs, hkj]
    rfl
  rw [hdef]
  split
  · next hu => exact fallback_usable (c := d.partner) (by rw [State.usable, hcen]; exact hu)
  · next hu =>
    have hgo (r : CallRecord) : goesOn b d r = false := by simp [goesOn, hu]
    have hesc : b.escalateOffers d = holding b (b.records.map (escalated d)) := by
      rw [escalateOffers_eq h hs, List.filter_eq_nil_iff.2 fun r _ => by simp [hgo]]
      simp [hgo]
    have hres (c : Centre) : resumes (holding b (b.records.map (escalated d))) c = resumes b c := by cases c <;> rfl
    have hd : resumes b d = false := by simp [resumes, hn, Health.heard]
    rw [hesc]
    split
    · next hp =>
      refine fallback_calledBack ?_ ?_ ?_ ((hres _).trans hp)
      · refine h.map (fun r => ?_) (fun r => ?_) fun r hr => ?_
        · unfold escalated; split <;> rfl
        · unfold escalated; split <;> rfl
        · unfold escalated
          split
          · next hx =>
            have hun : r.state.unclaimed = true := by rw [hs r hr hx]; rfl
            exact toneFor_unclaimed hun hun rfl rfl
          · rfl
      · have hdd : d.partner.partner = d := by cases d <;> rfl
        rw [hdd]
        simp [State.usable, holding, State.centre] at hn ⊢
        cases d <;> simp_all [Health.heard]
      · have hdd : d.partner.partner = d := by cases d <;> rfl
        rw [hdd, hres, hd]
    · next hp =>
      exact fallback_none ((hres d).trans hd) ((hres _).trans (Bool.eq_false_iff.2 hp))

end

/-- Settles O8, by the health before the frame and after it; a move into FAILING is escalation and then the
fall-back. -/
theorem badFrameWorsensHealth : Obligations.BadFrameWorsensHealth := by
  intro s l e bytes he
  refine ⟨_, exec_dropped he, fun hS => by subst hS; rfl, fun d hd => ?_⟩
  obtain rfl : l = d.link := by cases l <;> cases hd <;> rfl
  let b0 : State := { s with orders := [] }.setReceive d.link .hunt
  have ht : ({ s with orders := [] }.dropBadFrame d.link) = b0.badFrame d := onCentre_link ..
  have hcen (c : Centre) : b0.centre c = s.centre c := by cases c <;> cases d <;> rfl
  rw [ht]
  refine ⟨fun h => ?_, fun h hlt => ?_⟩
  · rw [badFrame_lost (by rwa [hcen]), hcen]
  · intro new b
    have hb : b0.badFrame d = b.healthChanged d (s.centre d).health := by
      rw [badFrame_scored (by rwa [hcen]) (by rwa [hcen]), hcen]
    have hbd : b.centre d = { s.centre d with score := (s.centre d).score + 8, health := new } := by cases d <;> rfl
    have hbp : b.centre d.partner = s.centre d.partner := by cases d <;> rfl
    obtain ⟨⟨k, hk⟩, hr, -⟩ := healthChanged_frame b d (s.centre d).health
    rw [hb, hk, hbd]
    refine ⟨hr.trans (by cases d <;> rfl), rfl, rfl, rfl, fun hsame => ?_, fun hnew hold hid hcalls hlines => ?_⟩
    · rcases hsame with hsame | ⟨hn, ho, hu⟩
      · exact healthChanged_same (by rw [hbd]; exact hsame)
      · by_cases hsame : new = (s.centre d).health
        · exact healthChanged_same (by rw [hbd]; exact hsame)
        · rw [healthChanged_fallback (by rw [hbd]; exact hsame)
            (fun h => by rw [hbd] at h; rw [show new = .failing from h] at hn; cases hn) fun _ => .inl ho]
          have hup (c : Centre) : s.usable c = true → b.usable c = true := fun hc => by
            rcases eq_or_eq_partner d c with rfl | rfl
            · exact usable_iff.2 (by rw [hbd]; exact ⟨hn, (usable_iff.1 hc).2⟩)
            · exact usable_iff.2 (by rw [hbp]; exact usable_iff.1 hc)
          rcases hu with hu | hu
          · exact fallback_usable (hup _ hu)
          · exact fallback_usable (hup _ hu)
    · intro e marked resumes due becomes back
      have htidy : Tidy b := ((tidy_of_inv hid hcalls hlines).of_eq rfl rfl : Tidy { s with orders := [] }).setLink.setCentre
      have hsound : ∀ r ∈ b.records, r.offered.has d = true → r.state = .offered := fun r hr hx => by
        have hrs : r ∈ s.records := by cases d <;> exact hr
        obtain ⟨-, -, hoff, -⟩ := hcalls.2.2.2.1 r hrs
        exact hoff.1 fun he => by rw [he] at hx; cases d <;> cases hx
      have halike : Alike s b :=
        ((⟨rfl, rfl, rfl, rfl, rfl⟩ : Alike s { s with orders := [] }).trans (Alike.setLink ..)).trans (Alike.setCentre ..)
      have has (r : CallRecord) : b.asOffered r e = s.asOffered r e := halike.asOffered r
      have hue : b.usable e = s.usable e := by rw [State.usable, hbp, State.usable]
      have hre : Proofs.resumes b e = resumes := by rw [Proofs.resumes, hbp]
      rw [healthChanged_failing htidy hsound (by rw [hbd]; exact hnew) hold, hre]
      split
      · next hu =>
        have hu : s.usable e = true := hue.symm.trans hu
        have hres : resumes = false := by
          have := (usable_iff.1 hu).2
          simp [resumes, this]
        have hdue (r : CallRecord) : due r = goesOn b d r := by
          simp only [due, goesOn, hu, show b.usable d.partner = true from hue.trans hu, if_true, Bool.true_and]
          rfl
        have hbec : becomes = fun r => if goesOn b d r then b.asOffered (escalated d r) e else escalated d r :=
          funext fun r => by simp only [becomes, hdue, has]; rfl
        have hback : back = b := if_neg (by simp [hres])
        rw [escalateOffers_eq htidy hsound, halike.registerOrder, halike.records, ← hbec, hback, funext hdue]
        refine congrArg (fun x => holding (b.offeredAll e.link x) (s.records.map becomes)) (List.map_congr_left fun r hr => ?_)
        rw [hbec]
        exact (if_pos (List.mem_filter.1 hr).2).symm
      · next hu =>
        have hu : s.usable e = false := by rw [← hue]; exact Bool.eq_false_iff.2 hu
        have hdue (r : CallRecord) : due r = (resumes && (marked r).dueTo e) := if_neg (by simp [hu])
        split
        · next hres =>
          have hbec : becomes = fun r => if (escalated d r).dueTo e then b.asOffered (escalated d r) e else escalated d r :=
            funext fun r => by simp only [becomes, hdue, hres, Bool.true_and, has]; rfl
          have hback : back = (b.setCentre e { s.centre e with duty := .active }).informed e.link .dutyResumed := if_pos hres
          have hf : s.registerOrder.filter due = s.registerOrder.filter fun r => (escalated d r).dueTo e :=
            List.filter_congr fun r _ => by rw [hdue, hres]; rfl
          rw [calledBack_changed (escalated_ranked d), halike.registerOrder, halike.records, hbp, ← hback, ← hbec, hf]
          refine congrArg (fun x => holding (back.offeredAll e.link x) (s.records.map becomes)) (List.map_congr_left fun r hr => ?_)
          rw [hbec]
          exact (if_pos (List.mem_filter.1 hr).2).symm
        · next hres =>
          have hres : resumes = false := Bool.eq_false_iff.2 hres
          have hbec : becomes = escalated d := funext fun r => by simp only [becomes, hdue, hres]; rfl
          have hback : back = b := if_neg (by simp [hres])
          have hf : s.registerOrder.filter due = [] := List.filter_eq_nil_iff.2 fun r _ => by rw [hdue, hres]; simp
          rw [hf, hbec, hback, halike.records]
          rfl

end Sys2Proof.Proofs

/-! PROOFS. The handover of a link: its calls move to the partner, and it completes (R122, R123). -/

namespace Sys2Proof.Proofs

open Sys2Proof Sys2Proof.Machine

/-! ### Messages to the two links of the centres -/

/-- Two things done for each, of which one does not see the other, are done one after the other. -/
theorem foldl_split {σ α : Type} {f g : σ → α → σ} (h : ∀ w x y, f (g w y) x = g (f w x) y) (xs : List α) (w : σ) :
    xs.foldl (fun w x => g (f w x) x) w = xs.foldl g (xs.foldl f w) := by
  have swap (xs : List α) (w : σ) (y : α) : xs.foldl f (g w y) = g (xs.foldl f w) y := by
    induction xs generalizing w with
    | nil => rfl
    | cons x xs ih => rw [List.foldl_cons, List.foldl_cons, h, ih]
  induction xs generalizing w with
  | nil => rfl
  | cons x xs ih => rw [List.foldl_cons, List.foldl_cons, List.foldl_cons, ih, swap]

section

variable {s w : State} {c : Centre}

theorem leftBy_informed (w : State) (c : Centre) (id : CallId) (n m : Notice) :
    (w.informed c.partner.link m).leftBy c id n = (w.leftBy c id n).informed c.partner.link m := by
  rw [informed_eq, informed_eq]
  cases c <;> rfl

theorem informed_setDuty (w : State) (c d : Centre) (k : Duty) (n : Notice) :
    (w.setDuty c k).informed d.link n = (w.informed d.link n).setDuty c k := by
  rw [informed_eq, informed_eq]
  cases c <;> cases d <;> rfl

theorem leftBy_setDuty (w : State) (c d : Centre) (k : Duty) (id : CallId) (n : Notice) :
    (w.setDuty c k).leftBy d id n = (w.leftBy d id n).setDuty c k := by
  cases c <;> cases d <;> rfl

/-- The CALL_WITHDRAWN that a handover places for each of the records (R122, R123). -/
def handoverLeaves (s : State) (c : Centre) (rs : List CallRecord) : State :=
  rs.foldl (fun s r => s.leftBy c r.id (.callWithdrawn r.id r.line .handover)) s

theorem handoverLeaves_setDuty (d : Centre) (k : Duty) (rs : List CallRecord) :
    handoverLeaves (s.setDuty d k) c rs = (handoverLeaves s c rs).setDuty d k := by
  unfold handoverLeaves
  induction rs generalizing s with
  | nil => rfl
  | cons r rs ih => rw [List.foldl_cons, List.foldl_cons, leftBy_setDuty, ih]

theorem offeredAll_setDuty (d e : Centre) (k : Duty) (rs : List CallRecord) :
    (s.setDuty d k).offeredAll e.link rs = (s.offeredAll e.link rs).setDuty d k := by
  induction rs generalizing s with
  | nil => rfl
  | cons r rs ih => rw [State.offeredAll_cons, State.offeredAll_cons, informed_setDuty, ih]

theorem handoverLeaves_linked (h : Linked s w) (rs : List CallRecord) : Linked s (handoverLeaves w c rs) := by
  unfold handoverLeaves
  induction rs generalizing w with
  | nil => exact h
  | cons r rs ih => exact ih (h.leftBy ..)

/-- The withdrawals enter the link's own queue. -/
theorem handoverLeaves_eq (rs : List CallRecord) : handoverLeaves s c rs = s.setLink c.link
    (rs.foldl (fun k r => k.leave r.id (if s.isLost c.link then none else some (.callWithdrawn r.id r.line .handover))
      s.tick) (s.link c.link)) := by
  unfold handoverLeaves
  induction rs generalizing s with
  | nil => exact (s.setLink_self _).symm
  | cons r rs ih =>
    rw [List.foldl_cons, ih]
    cases c <;> rfl

/-! ### The move of the calls -/

theorem movedFrom_keeps (r : CallRecord) :
    (s.movedFrom r c).id = r.id ∧ (s.movedFrom r c).line = r.line ∧ (s.movedFrom r c).claimant = r.claimant := by
  unfold State.movedFrom
  dsimp only
  split
  · exact ⟨rfl, rfl, rfl⟩
  · split <;> exact ⟨rfl, rfl, rfl⟩

theorem has_remove (x : CentreSet) : (x.remove c).has c = false ∧ (x.remove c).has c.partner = x.has c.partner := by
  cases c <;> exact ⟨rfl, rfl⟩

theorem remove_empty {x : CentreSet} (h : x.has c.partner = false) : x.remove c = .empty := by
  obtain ⟨a, b⟩ := x
  cases c <;> simp_all [CentreSet.has, CentreSet.remove, Centre.partner, CentreSet.empty]

theorem remove_add {x : CentreSet} : (x.remove c).add c.partner = CentreSet.empty.add c.partner := by
  cases c <;> rfl

/-- A record that a handover takes from a link and offers to the partner (R122, R123). -/
def movesOn (s : State) (c : Centre) (r : CallRecord) : Bool :=
  r.offered.has c && (s.usable c.partner && !r.offered.has c.partner)

theorem toneFor_movedFrom {r : CallRecord} (h : r.state = .offered) :
    toneFor .inCall (some (s.movedFrom r c)) = toneFor .inCall (some r) := by
  have hu : r.state.unclaimed = true := by rw [h]; rfl
  unfold State.movedFrom
  dsimp only
  split
  · exact toneFor_unclaimed hu hu rfl rfl
  · split <;> exact toneFor_unclaimed hu rfl rfl rfl

/-- A record that leaves a link's offered set, and goes to the partner or waits (R123). -/
theorem Turn.moveFrom {u : State} {rs : List CallRecord} {r : CallRecord} (turn : Turn u w rs r) (hst : r.state = .offered)
    (n : Notice) :
    (let v := ((holding w rs).updRecord r.id fun r => { r with offered := r.offered.remove c }).leftBy c r.id n
      if r.offered.has c.partner then v else v.offerOrWait r.id c.partner) =
      holding (if u.usable c.partner && !r.offered.has c.partner then
          (w.leftBy c r.id n).informed c.partner.link (.callOffer (offerOf (u.movedFrom r c)))
        else w.leftBy c r.id n) (put rs (u.movedFrom r c)) := by
  let left : CallRecord := { r with offered := r.offered.remove c }
  have hu : r.state.unclaimed = true := by rw [hst]; rfl
  have hupd : ((holding w rs).updRecord r.id fun r => { r with offered := r.offered.remove c }).leftBy c r.id n =
      holding (w.leftBy c r.id n) (put rs left) := by
    rw [turn.updRecord _ rfl, leftBy_records]
  have turn' : Turn u (w.leftBy c r.id n) (put rs left) left :=
    (turn.change (q := left) rfl rfl (toneFor_unclaimed hu hu rfl rfl)).leftBy ..
  have hus (rs : List CallRecord) : (holding (w.leftBy c r.id n) rs).usable c.partner = u.usable c.partner := by
    obtain ⟨a, b, hw⟩ := turn'.linked
    rw [hw]
    cases c <;> rfl
  dsimp only
  rw [hupd]
  by_cases hp : r.offered.has c.partner = true
  · have hm : u.movedFrom r c = left := if_pos hp
    simp only [hp, if_true, Bool.not_true, Bool.and_false, Bool.false_eq_true, if_false, hm]
  · have hp : r.offered.has c.partner = false := Bool.eq_false_iff.2 hp
    simp only [hp, Bool.false_eq_true, if_false, State.offerOrWait, hus, Bool.not_false, Bool.and_true]
    by_cases hc : u.usable c.partner = true
    · have hm : u.movedFrom r c = offeredBy u left c.partner := by
        unfold State.movedFrom
        dsimp only
        rw [if_neg (by simp [hp]), if_pos hc]
        exact asOffered_of_offered hst
      rw [if_pos hc, if_pos hc, hm]
      exact (turn'.offerTo hu).trans (congrArg (holding _) (put_put rfl))
    · have hm : u.movedFrom r c = { left with state := .waiting } := by
        unfold State.movedFrom
        dsimp only
        rw [if_neg (by simp [hp]), if_neg hc]
      have hby : (holding (w.leftBy c r.id n) (put rs left)).recordById r.id = some left := turn'.byId
      have hq : ({ left with state := .waiting, offered := .empty } : CallRecord) = { left with state := .waiting } := by
        dsimp only [left]
        rw [remove_empty hp]
      have hput : (holding (w.leftBy c r.id n) (put rs left)).updRecord r.id
          (fun r => { r with state := .waiting, offered := .empty }) =
          holding (w.leftBy c r.id n) (put (put rs left) { left with state := .waiting }) := by
        rw [← hq]
        exact turn'.updRecord _ rfl
      rw [if_neg hc, if_neg hc, hby, hm]
      dsimp only
      rw [hput]
      refine ((turn'.change (q := { left with state := .waiting }) rfl rfl
        (toneFor_unclaimed hu rfl rfl rfl)).retone).trans (congrArg (holding _) (put_put rfl))

/-- The withdrawals and the offers of the moved records, in register order. -/
theorem foldl_moves (s : State) (c : Centre) (p : CallRecord → Bool) (f : CallRecord → CallRecord)
    (xs : List CallRecord) :
    xs.foldl (fun w r => if r.offered.has c then
        (if p r then (w.leftBy c r.id (.callWithdrawn r.id r.line .handover)).informed c.partner.link (.callOffer (offerOf (f r)))
          else w.leftBy c r.id (.callWithdrawn r.id r.line .handover))
        else w) s =
      (handoverLeaves s c (xs.filter fun r => r.offered.has c)).offeredAll c.partner.link
        (((xs.filter fun r => r.offered.has c).filter p).map f) := by
  rw [handoverLeaves, List.foldl_filter, List.filter_filter, ← foldl_offers, ← foldl_split]
  · refine congrArg (fun g => xs.foldl g s) (funext fun w => funext fun r => ?_)
    by_cases hc : r.offered.has c = true <;> by_cases hp : p r = true <;> simp [hc, hp]
  · intro w x y
    split
    · split
      · exact leftBy_informed ..
      · rfl
    · rfl

/-! ### The completion of a handover -/

/-- The completion of a handover whose link keeps no call (R104, R123). -/
theorem completeHandover_eq (h : Tidy s) (hs : ∀ r ∈ s.records, r.offered.has c = true → r.state = .offered)
    (hp : resumes s c.partner = false) : s.completeHandover c = s.handedOver c := by
  let u := s.setDuty c .standby
  have hut : Tidy u := h.setCentre
  have hur : u.records = s.records := by cases c <;> rfl
  have huro : u.registerOrder = s.registerOrder := by cases c <;> rfl
  have husp : u.usable c.partner = s.usable c.partner := by cases c <;> rfl
  have hmv (r : CallRecord) : u.movedFrom r c = s.movedFrom r c := by cases c <;> rfl
  let f (r : CallRecord) : CallRecord := if r.offered.has c then s.movedFrom r c else r
  let moves := s.registerOrder.filter fun r => r.offered.has c
  let told := (handoverLeaves s c moves).offeredAll c.partner.link
    ((moves.filter fun r => s.usable c.partner && !r.offered.has c.partner).map (s.movedFrom · c))
  have htold : Linked s told := offeredAll_linked (handoverLeaves_linked (Linked.refl s) _) _
  have hrec : u.eachRecord (fun s r =>
      if r.offered.has c then
        let s := s.updRecord r.id fun r => { r with offered := r.offered.remove c }
        let s := s.withdrawFrom r c .handover
        if r.offered.has c.partner then s else s.offerOrWait r.id c.partner
      else s) = holding (told.setDuty c .standby) (s.records.map f) := by
    refine (eachRecord_eq (φ := f)
      (ψ := fun w r => if r.offered.has c then
        (if s.usable c.partner && !r.offered.has c.partner then
            (w.leftBy c r.id (.callWithdrawn r.id r.line .handover)).informed c.partner.link
              (.callOffer (offerOf (s.movedFrom r c)))
          else w.leftBy c r.id (.callWithdrawn r.id r.line .handover))
        else w) hut
      (fun r => by dsimp only [f]; split <;> simp [movedFrom_keeps])
      (fun r => by dsimp only [f]; split <;> simp [movedFrom_keeps]) fun w rs r hr turn => ⟨?_, ?_⟩).trans ?_
    · split
      · split
        · exact (turn.linked.leftBy ..).informed ..
        · exact turn.linked.leftBy ..
      · exact turn.linked
    · by_cases hc : r.offered.has c = true
      · simp only [f, hc, if_true]
        have := turn.moveFrom (hs r (hur ▸ hr) hc) (c := c) (.callWithdrawn r.id r.line .handover)
        rw [husp, hmv] at this
        exact this
      · have hc : r.offered.has c = false := Bool.eq_false_iff.2 hc
        have hkeep : put rs r = rs := put_self turn.alone
        simp only [f, hc, Bool.false_eq_true, if_false, hkeep]
    · rw [foldl_moves u c _ (s.movedFrom · c), huro, hur]
      refine congrArg (holding · _) ?_
      rw [← offeredAll_setDuty, ← handoverLeaves_setDuty]
  have hcen (d : Centre) : told.centre d = s.centre d := by
    obtain ⟨a, b, hab⟩ := htold
    rw [hab]
    cases d <;> rfl
  let done := ((holding told (s.records.map f)).setCentre c { s.centre c with duty := .standby }).informed c.link .handoverDone
  have hdone : (holding (told.setDuty c .standby) (s.records.map f)).notify c.link .handoverDone = done := by
    rw [State.notify_eq, State.setDuty, hcen]
    refine congrArg (State.informed · c.link .handoverDone) ?_
    cases c <;> rfl
  have hdc : done.centre c = { s.centre c with duty := .standby } := by
    dsimp only [done]
    rw [informed_eq, State.setLink_centre, State.setCentre_centre, if_pos rfl]
  have hdp : done.centre c.partner = s.centre c.partner := by
    dsimp only [done]
    rw [informed_eq, State.setLink_centre, State.setCentre_centre, if_neg (partner_ne c)]
    exact hcen _
  have htidy : Tidy done := by
    refine Tidy.informed (Tidy.setCentre ?_)
    have := h.map (g := f) (fun r => by dsimp only [f]; split <;> simp [movedFrom_keeps])
      (fun r => by dsimp only [f]; split <;> simp [movedFrom_keeps]) fun r hr => by
        dsimp only [f]
        split
        · next hc => exact toneFor_movedFrom (hs r hr hc)
        · rfl
    obtain ⟨a, b, hab⟩ := htold
    exact this.of_eq rfl (by rw [hab]; rfl)
  have hend : s.completeHandover c = done.fallback := by
    rw [← hdone, ← hrec]
    rfl
  have hgoal : s.handedOver c =
      if s.usable c.partner || !(s.centre c).health.heard then done else done.calledBack c := rfl
  have hup : done.usable c.partner = s.usable c.partner := by rw [State.usable, hdp, State.usable]
  have hrp : resumes done c.partner = false := by rw [resumes, hdp]; exact hp
  have hrc : resumes done c = (s.centre c).health.heard := by rw [resumes, hdc]; simp
  rw [hend, hgoal]
  cases hu : s.usable c.partner with
  | true => exact fallback_usable (hup.trans hu)
  | false =>
    cases hh : (s.centre c).health.heard with
    | true => exact fallback_calledBack htidy (hup.trans hu) hrp (hrc.trans hh)
    | false => exact fallback_none (hrc.trans hh) hrp

/-- With none of its calls left to move, a link hands over with HANDOVER_DONE alone (R123). -/
theorem completeHandover_nothing (h : ∀ r ∈ s.records, r.offered.has c = false) (hu : s.usable c.partner = true) :
    s.completeHandover c = (s.setDuty c .standby).informed c.link .handoverDone := by
  have hrec : (s.setDuty c .standby).eachRecord (fun s r =>
      if r.offered.has c then
        let s := s.updRecord r.id fun r => { r with offered := r.offered.remove c }
        let s := s.withdrawFrom r c .handover
        if r.offered.has c.partner then s else s.offerOrWait r.id c.partner
      else s) = s.setDuty c .standby :=
    eachRecord_nothing fun r hr => by
      have hr : r ∈ s.records := by cases c <;> exact hr
      simp [h r hr]
  have hup : ((s.setDuty c .standby).informed c.link .handoverDone).usable c.partner = s.usable c.partner := by
    rw [informed_eq]
    cases c <;> rfl
  have hdef : s.completeHandover c = ((s.setDuty c .standby).notify c.link .handoverDone).fallback :=
    congrArg (fun v : State => (v.notify c.link .handoverDone).fallback) hrec
  rw [hdef, State.notify_eq]
  exact fallback_usable (hup.trans hu)

theorem claimsAny_eq : (!s.claimsAny c) = s.records.all fun r => r.claimant ≠ some c := by
  unfold State.claimsAny
  rw [List.not_any_eq_all_not]
  simp

/-- The check made when a claimed record leaves its claimant (R123). -/
theorem checkHandoverOf_eq (k : Option Centre)
    (h : ∀ c, k = some c → (s.centre c).duty = .handingOver →
      Tidy s ∧ (∀ r ∈ s.records, r.offered.has c = true → r.state = .offered) ∧ resumes s c.partner = false) :
    s.checkHandoverOf k = s.handoverChecked k := by
  cases k with
  | none => rfl
  | some c =>
    have h := h c rfl
    show s.checkHandover c = _
    simp only [State.checkHandover, State.handoverChecked, claimsAny_eq]
    split
    · next hc =>
      obtain ⟨h1, h2, h3⟩ := h (of_decide_eq_true (Bool.and_eq_true_iff.1 hc).1)
      exact completeHandover_eq h1 h2 h3
    · rfl

end

end Sys2Proof.Proofs

/-! PROOFS. HANDOVER_REQUEST (R122) and TRANSFER (R118). -/

namespace Sys2Proof.Proofs

open Sys2Proof Sys2Proof.Machine

section

variable {s : State} {c : Centre}

theorem State.checkHandover_eq_of (s : State) (c : Centre) (h : (s.centre c).duty = .handingOver) :
    s.checkHandover c = if s.claimsAny c then s else s.completeHandover c := by
  simp only [State.checkHandover, h, decide_true, Bool.true_and]
  by_cases hc : s.claimsAny c = true <;> simp [hc]

theorem remove_of_partner {x : CentreSet} (h : x.has c.partner = true) : x.remove c = CentreSet.empty.add c.partner := by
  obtain ⟨a, b⟩ := x
  cases c <;> simp_all [CentreSet.has, CentreSet.remove, CentreSet.add, Centre.partner, CentreSet.empty]

/-- The record that HANDOVER_REQUEST moves to the partner (R122). -/
def handedTo (s : State) (c : Centre) (r : CallRecord) : CallRecord :=
  if r.offered.has c then
    { r with
      offered := CentreSet.empty.add c.partner
      flags := if r.offered.has c.partner then r.flags else
        { r.flags with
          unsupervised := (s.group r.line.group).health = .silent
          doubtful := (s.group r.line.group).health = .pathFault } }
  else r

theorem handedTo_keeps (r : CallRecord) : (handedTo s c r).id = r.id ∧ (handedTo s c r).line = r.line ∧
    (handedTo s c r).claimant = r.claimant ∧ (handedTo s c r).offered.has c = false := by
  unfold handedTo
  split
  · exact ⟨rfl, rfl, rfl, by cases c <;> rfl⟩
  · next h => exact ⟨rfl, rfl, rfl, Bool.eq_false_iff.2 h⟩

/-- The record of a call leaves the link's offers for the partner's (R122). -/
theorem Turn.handTo {u w : State} {rs : List CallRecord} {r : CallRecord} (turn : Turn u w rs r)
    (hc : r.offered.has c = true) (hst : r.state = .offered) (n : Notice) :
    (let v := (holding w rs).updRecord r.id (fun r => { r with offered := r.offered.remove c })
     State.leftBy (if r.offered.has c.partner then v else v.offerTo r.id c.partner) c r.id n) =
      holding ((if !r.offered.has c.partner then w.informed c.partner.link (.callOffer (offerOf (handedTo u c r)))
        else w).leftBy c r.id n) (put rs (handedTo u c r)) := by
  let left : CallRecord := { r with offered := r.offered.remove c }
  have hu : r.state.unclaimed = true := by rw [hst]; rfl
  have hupd : (holding w rs).updRecord r.id (fun r => { r with offered := r.offered.remove c }) =
      holding w (put rs left) := turn.updRecord _ rfl
  have turn' : Turn u w (put rs left) left := turn.change (q := left) rfl rfl (toneFor_unclaimed hu hu rfl rfl)
  dsimp only
  rw [hupd]
  by_cases hp : r.offered.has c.partner = true
  · have hm : handedTo u c r = left := by
      simp [handedTo, hc, hp, left, remove_of_partner hp]
    simp only [hp, if_true, Bool.not_true, Bool.false_eq_true, if_false, hm, leftBy_records]
  · have hp : r.offered.has c.partner = false := Bool.eq_false_iff.2 hp
    have hm : handedTo u c r = offeredBy u left c.partner := by
      simp [handedTo, hc, hp, offeredBy, CallRecord.offeredTo, left, remove_add, hst]
    simp only [hp, Bool.false_eq_true, if_false, Bool.not_false, if_true, hm]
    have hoff := turn'.offerTo (c := c.partner) hu
    rw [hoff, leftBy_records]
    exact congrArg (holding _) (put_put rfl)

/-- The calls of a link that is asked to hand over go to its partner, in register order (R122). -/
theorem takeHandover_moves (h : Tidy s) (hs : ∀ r ∈ s.records, r.offered.has c = true → r.state = .offered) :
    s.eachRecord (fun s r =>
      if r.state.unclaimed && r.offered.has c then
        let s := s.updRecord r.id fun r => { r with offered := r.offered.remove c }
        let s := if r.offered.has c.partner then s else s.offerTo r.id c.partner
        s.withdrawFrom r c .handover
      else s) =
    holding (handoverLeaves (s.offeredAll c.partner.link
      (((s.registerOrder.filter fun r => r.offered.has c).filter fun r => !r.offered.has c.partner).map (handedTo s c))) c
      (s.registerOrder.filter fun r => r.offered.has c)) (s.records.map (handedTo s c)) := by
  refine (eachRecord_eq (φ := handedTo s c)
    (ψ := fun w r => if r.offered.has c then
      ((if !r.offered.has c.partner then w.informed c.partner.link (.callOffer (offerOf (handedTo s c r)))
        else w).leftBy c r.id (.callWithdrawn r.id r.line .handover)) else w) h
    (fun r => (handedTo_keeps r).1) (fun r => (handedTo_keeps r).2.1) fun w rs r hr turn => ⟨?_, ?_⟩).trans ?_
  · split
    · refine Linked.leftBy ?_ ..
      split
      · exact turn.linked.informed ..
      · exact turn.linked
    · exact turn.linked
  · by_cases hc : r.offered.has c = true
    · have hst := hs r hr hc
      have hu : r.state.unclaimed = true := by rw [hst]; rfl
      simp only [hu, hc, Bool.and_self, if_true]
      exact turn.handTo hc hst _
    · have hc : r.offered.has c = false := Bool.eq_false_iff.2 hc
      have hkeep : put rs (handedTo s c r) = rs := by
        rw [handedTo, if_neg (by simp [hc])]
        exact put_self turn.alone
      simp only [hc, Bool.and_false, Bool.false_eq_true, if_false, hkeep]
  · refine congrArg (holding · _) ?_
    rw [handoverLeaves, List.foldl_filter, List.filter_filter, ← foldl_offers, ← foldl_split]
    · refine congrArg (fun g => s.registerOrder.foldl g s) (funext fun w => funext fun r => ?_)
      by_cases hc : r.offered.has c = true <;> by_cases hp : r.offered.has c.partner = true <;> simp [hc, hp]
    · intro w x y
      split
      · split
        · exact (leftBy_informed ..).symm
        · rfl
      · rfl

/-- The offers enter the queue of their link, one after the other. -/
theorem offeredAll_link (s : State) (l : Link) (rs : List CallRecord) : (s.offeredAll l rs).link l =
    rs.foldl (fun k r => if s.isLost l then k else (k.enqueue (.notice (.callOffer (offerOf r))) false).pump s.tick)
      (s.link l) := by
  induction rs generalizing s with
  | nil => rfl
  | cons r rs ih =>
    rw [State.offeredAll_cons, ih, List.foldl_cons, informed_eq, State.setLink_isLost, State.setLink_tick,
      State.setLink_link, if_pos rfl]
    rfl

theorem offeredAll_link_ne (s : State) {l m : Link} (h : m ≠ l) (rs : List CallRecord) :
    (s.offeredAll l rs).link m = s.link m := by
  obtain ⟨k, hk⟩ := s.offeredAll_spec l rs
  rw [hk, State.setLink_link, if_neg h]

theorem link_partner_ne (c : Centre) : c.link ≠ c.partner.link ∧ c.partner.link ≠ c.link := by cases c <;> decide

/-- The state in which HANDOVER_REQUEST moves the calls (R122). -/
def asked (s : State) (c : Centre) : State :=
  (s.setDuty c .handingOver).answered c.link Command.handoverRequest .ok []

/-- The state once the calls have moved (R122). -/
def movedOver (s : State) (c : Centre) : State :=
  holding (handoverLeaves ((asked s c).offeredAll c.partner.link
    (((s.registerOrder.filter fun r => r.offered.has c).filter fun r => !r.offered.has c.partner).map (handedTo s c))) c
    (s.registerOrder.filter fun r => r.offered.has c)) (s.records.map (handedTo s c))

theorem asked_alike : Alike s (asked s c) := (Alike.setCentre ..).trans (Alike.answered ..)

theorem movedOver_linked : Linked (holding (asked s c) (s.records.map (handedTo s c))) (movedOver s c) := by
  obtain ⟨a, b, h⟩ := handoverLeaves_linked (c := c) (offeredAll_linked (c := c.partner) (Linked.refl (asked s c))
    (((s.registerOrder.filter fun r => r.offered.has c).filter fun r => !r.offered.has c.partner).map (handedTo s c)))
    (s.registerOrder.filter fun r => r.offered.has c)
  refine ⟨a, b, ?_⟩
  unfold movedOver
  rw [h]
  rfl

theorem movedOver_centre : (movedOver s c).centre c = { s.centre c with duty := .handingOver } ∧
    (movedOver s c).centre c.partner = s.centre c.partner := by
  have hcen (d : Centre) : (movedOver s c).centre d = (asked s c).centre d := by
    obtain ⟨a, b, h⟩ := movedOver_linked (s := s) (c := c)
    rw [h]
    cases d <;> rfl
  rw [hcen, hcen, asked, answered_centre, answered_centre, State.setDuty, State.setCentre_centre, if_pos rfl,
    setCentre_centre_partner]
  exact ⟨rfl, rfl⟩

/-- HANDOVER_REQUEST moves the calls, and completes at once with no call claimed (R122, R123). -/
theorem takeHandover_eq (h : Tidy s) (hs : ∀ r ∈ s.records, r.offered.has c = true → r.state = .offered)
    (hu : s.usable c.partner = true) :
    s.takeHandover c = if s.claimsAny c then movedOver s c
      else ((movedOver s c).setDuty c .standby).informed c.link .handoverDone := by
  have halike := asked_alike (s := s) (c := c)
  have hhand : handedTo (asked s c) c = handedTo s c := funext fun r => by
    unfold handedTo
    rw [State.group, halike.groups]
    rfl
  have hdef : s.takeHandover c = (movedOver s c).checkHandover c := by
    have := takeHandover_moves (s := asked s c) (c := c) h.setCentre.answered (by rw [halike.records]; exact hs)
    rw [hhand, halike.registerOrder, halike.records] at this
    unfold movedOver
    rw [← this, asked, ← State.reply_eq]
    rfl
  obtain ⟨hc, hp⟩ := movedOver_centre (s := s) (c := c)
  have hclaims : (movedOver s c).claimsAny c = s.claimsAny c := by
    show (s.records.map (handedTo s c)).any _ = _
    rw [List.any_map]
    refine congrArg (List.any s.records) (funext fun r => ?_)
    show decide ((handedTo s c r).claimant = some c) = _
    rw [(handedTo_keeps r).2.2.1]
  have hfree : ∀ r ∈ (movedOver s c).records, r.offered.has c = false := fun r hr => by
    obtain ⟨q, -, rfl⟩ := List.mem_map.1 (show r ∈ s.records.map (handedTo s c) from hr)
    exact (handedTo_keeps q).2.2.2
  rw [hdef, State.checkHandover_eq_of _ _ (by rw [hc]), hclaims]
  split
  · rfl
  · exact completeHandover_nothing hfree (by rw [State.usable, hp]; exact hu)

/-- The queues of the two links once the calls have moved. -/
theorem movedOver_link (hl : s.isLost c.link = false) :
    (movedOver s c).link c.link = (s.registerOrder.filter fun r => r.offered.has c).foldl
        (fun k r => k.leave r.id (some (.callWithdrawn r.id r.line .handover)) s.tick)
        ((s.answered c.link Command.handoverRequest .ok []).link c.link) ∧
      (movedOver s c).link c.partner.link = (s.offeredAll c.partner.link
        (((s.registerOrder.filter fun r => r.offered.has c).filter fun r => !r.offered.has c.partner).map
          (handedTo s c))).link c.partner.link := by
  have hask : (asked s c).link c.link = (s.answered c.link Command.handoverRequest .ok []).link c.link ∧
      (asked s c).link c.partner.link = s.link c.partner.link ∧ ∀ l, (asked s c).isLost l = s.isLost l := by
    refine ⟨by cases c <;> rfl, by cases c <;> rfl, fun l => ?_⟩
    rw [asked, State.answered, State.told, State.setLink_isLost]
    cases c <;> cases l <;> rfl
  obtain ⟨h1, h2, h3⟩ := hask
  let xs := ((s.registerOrder.filter fun r => r.offered.has c).filter fun r => !r.offered.has c.partner).map (handedTo s c)
  obtain ⟨k, hk⟩ := (asked s c).offeredAll_spec c.partner.link xs
  have hlost : ((asked s c).offeredAll c.partner.link xs).isLost c.link = false := by
    rw [hk, State.setLink_isLost, h3, hl]
  have htick : ((asked s c).offeredAll c.partner.link xs).tick = s.tick := by
    rw [hk, State.setLink_tick]
    exact asked_alike.tick
  have hlink (l : Link) : (movedOver s c).link l = (handoverLeaves ((asked s c).offeredAll c.partner.link xs) c
      (s.registerOrder.filter fun r => r.offered.has c)).link l := by cases l <;> rfl
  refine ⟨?_, ?_⟩
  · rw [hlink, handoverLeaves_eq, State.setLink_link, if_pos rfl, offeredAll_link_ne _ (link_partner_ne c).1, h1, hlost,
      htick]
    rfl
  · rw [hlink, handoverLeaves_eq, State.setLink_link, if_neg (link_partner_ne c).2, offeredAll_link, offeredAll_link, h2,
      h3, asked_alike.tick]

theorem isLost_link : s.isLost c.link = decide ((s.centre c).health = .lost) := by cases c <;> rfl

theorem movedOver_frame : movedOver s c = { s with
    records := (movedOver s c).records, linkA := (movedOver s c).linkA, linkB := (movedOver s c).linkB
    centreA := (movedOver s c).centreA, centreB := (movedOver s c).centreB } := by
  obtain ⟨a, b, h⟩ := movedOver_linked (s := s) (c := c)
  obtain ⟨i, j, x, y, hask⟩ : ∃ i j x y, asked s c = { s with linkA := i, linkB := j, centreA := x, centreB := y } := by
    cases c <;> exact ⟨_, _, _, _, rfl⟩
  rw [hask] at h
  rw [h]
  rfl

/-- What HANDOVER_REQUEST leaves of the two queues, the two centres and the register (R122, R123). -/
theorem takeHandover_spec (h : Tidy s) (hs : ∀ r ∈ s.records, r.offered.has c = true → r.state = .offered)
    (hu : s.usable c.partner = true) (hl : s.isLost c.link = false) :
    let queue := (s.registerOrder.filter fun r => r.offered.has c).foldl
      (fun k r => k.leave r.id (some (.callWithdrawn r.id r.line .handover)) s.tick)
      ((s.answered c.link Command.handoverRequest .ok []).link c.link)
    let t := s.takeHandover c
    t.link c.link = (if s.claimsAny c then queue else (queue.enqueue (.notice .handoverDone) false).pump s.tick) ∧
      t.link c.partner.link = (s.offeredAll c.partner.link
        (((s.registerOrder.filter fun r => r.offered.has c).filter fun r => !r.offered.has c.partner).map
          (handedTo s c))).link c.partner.link ∧
      t = { s with records := t.records, linkA := t.linkA, linkB := t.linkB, centreA := t.centreA, centreB := t.centreB } ∧
      t.centre c.partner = s.centre c.partner ∧
      t.centre c = { s.centre c with duty := if s.claimsAny c then .handingOver else .standby } ∧
      t.records = s.records.map (handedTo s c) := by
  intro queue t
  obtain ⟨hc, hp⟩ := movedOver_centre (s := s) (c := c)
  obtain ⟨hq, ho⟩ := movedOver_link (s := s) (c := c) hl
  have ht : t = if s.claimsAny c then movedOver s c
      else ((movedOver s c).setDuty c .standby).informed c.link .handoverDone := takeHandover_eq h hs hu
  have hrec : (movedOver s c).records = s.records.map (handedTo s c) := rfl
  have hframe := movedOver_frame (s := s) (c := c)
  generalize movedOver s c = v at ht hc hp hq ho hrec hframe
  by_cases hclaims : s.claimsAny c = true
  · rw [if_pos hclaims] at ht
    simp only [hclaims, if_true, ht]
    exact ⟨hq, ho, hframe, hp, hc, hrec⟩
  · rw [if_neg hclaims] at ht
    have hlost : (v.setDuty c .standby).isLost c.link = false := by
      rw [isLost_link]
      have hl := isLost_link (s := s) (c := c) ▸ hl
      rw [State.setDuty, State.setCentre_centre, if_pos rfl, hc]
      exact hl
    have htick : v.tick = s.tick := by rw [hframe]
    simp only [hclaims, ht, informed_eq, Bool.false_eq_true, if_false, State.setLink_link, if_true,
      (link_partner_ne c).2]
    refine ⟨?_, ?_, ?_, ?_, ?_, ?_⟩
    · rw [hearing, hlost]
      simp [State.setDuty, hq, htick, queue]
    · simp [State.setDuty, ho]
    · rw [hframe]
      cases c <;> rfl
    · rw [State.setLink_centre, State.setDuty, setCentre_centre_partner, hp]
    · rw [State.setLink_centre, State.setDuty, State.setCentre_centre, if_pos rfl, hc]
    · rw [State.setLink_records, State.setDuty, State.setCentre_records, hrec]

/-- HANDOVER_REQUEST of a link that no call is offered to (R122, R123). -/
theorem takeHandover_nothing (h : ∀ r ∈ s.records, r.offered.has c = false) (hu : s.usable c.partner = true) :
    s.takeHandover c = if s.claimsAny c then
        (s.setCentre c { s.centre c with duty := .handingOver }).answered c.link Command.handoverRequest .ok []
      else ((s.setCentre c { s.centre c with duty := .standby }).answered c.link
        Command.handoverRequest .ok []).informed c.link .handoverDone := by
  have hrecs : (asked s c).records = s.records := asked_alike.records
  have hmoves : (asked s c).eachRecord (fun s r =>
      if r.state.unclaimed && r.offered.has c then
        let s := s.updRecord r.id fun r => { r with offered := r.offered.remove c }
        let s := if r.offered.has c.partner then s else s.offerTo r.id c.partner
        s.withdrawFrom r c .handover
      else s) = asked s c := eachRecord_nothing fun r hr => by simp [h r (hrecs ▸ hr)]
  have hdef : s.takeHandover c = (asked s c).checkHandover c := by
    refine Eq.trans ?_ (congrArg (State.checkHandover · c) hmoves)
    unfold asked
    rw [← State.reply_eq]
    rfl
  have hc : (asked s c).centre c = { s.centre c with duty := .handingOver } := by
    rw [asked, answered_centre, State.setDuty, State.setCentre_centre, if_pos rfl]
  have hp : (asked s c).centre c.partner = s.centre c.partner := by
    rw [asked, answered_centre, State.setDuty, setCentre_centre_partner]
  rw [hdef, State.checkHandover_eq_of _ _ (by rw [hc]), State.claimsAny, hrecs]
  refine if_congr Iff.rfl rfl ?_
  rw [completeHandover_nothing (hrecs ▸ h) (by rw [State.usable, hp]; exact hu)]
  refine congrArg (State.informed · c.link .handoverDone) ?_
  rw [State.setDuty, hc, asked]
  cases c <;> rfl

end

/-- A command that is not held up comes on a link that is not LOST (R150). -/
theorem not_lost_of_admits {s : State} {l : Link} {type : Byte} {right : Right} (h : s.admits l type right)
    (hk : type ≠ Command.keepalive) : (s.heard l).isLost l = false := by
  obtain ⟨-, h, -⟩ := h
  unfold State.heldUp at h
  by_contra hl
  have hl : (s.heard l).isLost l = true := by simpa using hl
  rw [hl, if_neg hk] at h
  split at h
  · cases h
  · split at h <;> cases h

theorem offered_of_calls {s : State} (h : InvCalls s) (c : Centre) :
    ∀ r ∈ s.records, r.offered.has c = true → r.state = .offered := fun r hr hx => by
  obtain ⟨-, -, -, hsound, -⟩ := h
  obtain ⟨-, -, hoff, -⟩ := hsound r hr
  exact hoff.1 fun he => by rw [he] at hx; cases c <;> cases hx

/-- Settles O25, by the duty of the link; an ACTIVE one moves its calls and then looks whether it claims any. -/
theorem handoverRequestMovesOffers : Obligations.HandoverRequestMovesOffers := by
  intro s c had
  have hlost := not_lost_of_admits had (by decide)
  intro a no command
  have he : exec command s = .next (a.handoverRequest c) := taking_centreCommand had () _
  refine ⟨fun hd => ?_, fun hd => ?_, fun hd hu => ?_, fun hd hu => ⟨fun hid hcalls hlines => ?_, fun hnone => ?_⟩⟩
  · rw [he, State.handoverRequest, hd]
    exact congrArg _ (State.refuse_eq ..)
  · rw [he, State.handoverRequest, hd]
    exact congrArg _ (State.refuse_eq ..)
  · rw [he, State.handoverRequest, hd, hu]
    exact congrArg _ (State.refuse_eq ..)
  · have ht : exec command s = .next (a.takeHandover c) := by rw [he, State.handoverRequest, hd, hu]; rfl
    intro moves becomes queue
    have hmap : (moves.filter fun r => !r.offered.has c.partner).map (handedTo a c) =
        (moves.filter fun r => !r.offered.has c.partner).map becomes :=
      List.map_congr_left fun r hr => if_pos (List.mem_filter.1 (List.mem_filter.1 hr).1).2
    obtain ⟨h1, h2, h3, h4, h5, h6⟩ := takeHandover_spec (tidy_of_inv hid hcalls hlines) (offered_of_calls hcalls c) hu hlost
    exact ⟨_, ht, h1, h2.trans (by rw [← hmap]), h3, h4, h5, h6⟩
  · have ht : exec command s = .next (a.takeHandover c) := by rw [he, State.handoverRequest, hd, hu]; rfl
    rw [ht, takeHandover_nothing hnone hu]

end Sys2Proof.Proofs

/-! PROOFS. TRANSFER (R118). -/

namespace Sys2Proof.Proofs

open Sys2Proof Sys2Proof.Machine

section

variable {a s t : State} {c : Centre} {r : CallRecord}

/-- The channel table without the channel of a record (R134). -/
def freedOf (xs : Vector Channel 6) : Option ChannelId → Vector Channel 6
  | some ch => xs.set ch .free
  | none => xs

/-- The order that breaks the connection of a record's channel (R133). -/
def breaks (n : LineId) : Option ChannelId → List Order
  | some ch => [.breakPoint ch n]
  | none => []

/-- A channel that a record may hold is freed, with its crosspoint connection (R133). -/
theorem freeHeld_eq {ch : Option ChannelId} {n : LineId} {c : Centre} {id : CallId}
    (h : ∀ x ∈ ch, s.channel x = .connected n c id) :
    s.freeHeld ch = { s with channels := freedOf s.channels ch, orders := s.orders ++ breaks n ch } := by
  cases ch with
  | none =>
    show s = { s with orders := s.orders ++ [] }
    rw [List.append_nil]
  | some x => exact freeHeld_connected (h x rfl)

/-- An offer, with the tone that follows it (R41, R105). -/
theorem offerTo_retoned (h : s.recordById r.id = some r) : s.offerTo r.id c =
    ((s.updRecord r.id (offering s r c)).informed c.link (.callOffer (offerOf (offering s r c r)))).retone r.line := by
  have hid : (s.updRecord r.id (offering s r c)).recordById r.id = some (offering s r c r) :=
    recordById_changed (fun _ => rfl) h
  have hplace : (s.updRecord r.id (offering s r c)).placeOffer r.id c =
      (s.updRecord r.id (offering s r c)).informed c.link (.callOffer (offerOf (offering s r c r))) := by
    simp only [State.placeOffer, hid, State.notify_eq]
  rw [← hplace]
  simp only [State.offerTo, h]
  rfl

/-- One record is changed, and its line has the tone that follows from it (R41). -/
theorem Tidy.change (h : Tidy s) (hr : r ∈ s.records) {f : CallRecord → CallRecord} (hid : ∀ q, (f q).id = q.id)
    (hline : ∀ q, (f q).line = q.line) (hrecs : t.records = s.records.map fun q => if q.id = r.id then f q else q)
    (hlines : t.lines = s.lines.set r.line { condition := .inCall, tone := toneFor .inCall (some (f r)) }) : Tidy t := by
  obtain ⟨h1, h2, h3⟩ := h
  refine ⟨?_, ?_, fun q hq => ?_⟩
  · have : ((·.id) ∘ fun q : CallRecord => if q.id = r.id then f q else q) = (·.id) := by
      funext q
      dsimp only [Function.comp_apply]
      split <;> simp [hid]
    rwa [hrecs, List.map_map, this]
  · have : ((·.line) ∘ fun q : CallRecord => if q.id = r.id then f q else q) = (·.line) := by
      funext q
      dsimp only [Function.comp_apply]
      split <;> simp [hline]
    rwa [hrecs, List.map_map, this]
  · rw [hrecs] at hq
    obtain ⟨p, hp, rfl⟩ := List.mem_map.1 hq
    unfold State.line
    rw [hlines]
    by_cases he : p.id = r.id
    · obtain rfl : p = r := List.inj_on_of_nodup_map h1 hp hr he
      rw [if_pos rfl, hline]
      simp [Toned]
    · have hne : r.line.val ≠ p.line.val := fun e =>
        he (congrArg _ (List.inj_on_of_nodup_map h2 hp hr (Fin.ext e.symm)))
      rw [if_neg he]
      have := h3 p hp
      unfold State.line at this
      simpa [Vector.getElem_set_ne, hne] using this

/-- The record that TRANSFER offers to the partner alone (R118). -/
def transferring (a : State) (c : Centre) (r q : CallRecord) : CallRecord :=
  { q with
    state := .offered, offered := CentreSet.empty.add c.partner, claimant := none, channel := none,
    origin := some c, longTimer := none, longWaits := false,
    flags := { q.flags with
      unsupervised := (a.group r.line.group).health = .silent
      doubtful := (a.group r.line.group).health = .pathFault } }

/-- The state TRANSFER leaves before the handover of the requester is looked at (R118). -/
def transferred (a : State) (c : Centre) (r : CallRecord) : State :=
  { (a.told c.partner.link (.notice (.callOffer (offerOf (transferring a c r r))))).answered c.link
      Command.transfer .ok [] with
    records := a.records.map fun q => if q.id = r.id then
      { transferring a c r q with
        transferTimer := some { length := a.timers.escalate * 1000, due := a.clock + a.timers.escalate * 1000 } } else q
    channels := freedOf a.channels r.channel
    lines := a.lines.set r.line { condition := .inCall, tone := .hold }
    orders := a.orders ++ breaks r.line r.channel ++ (if (a.line r.line).tone = .hold then [] else [.tone r.line .hold]) }

/-- The steps of TRANSFER (R118). -/
theorem transferCall_eq (hr : a.recordById r.id = some r) (hl : a.recordOfLine r.line = some r)
    (hi : (a.line r.line).condition = .inCall) (hu : a.usable c.partner = true)
    (hch : ∀ ch ∈ r.channel, a.channel ch = .connected r.line c r.id) :
    a.transferCall c r = (transferred a c r).checkHandover c := by
  let left (q : CallRecord) : CallRecord :=
    { q with
      channel := none, origin := some c, claimant := none, longTimer := none, longWaits := false, offered := .empty }
  let free : State := a.freeHeld r.channel
  have hfree : free = _ := freeHeld_eq hch
  have hby : free.recordById r.id = some r := by rw [hfree]; exact hr
  have hof : free.recordOfLine r.line = some r := by rw [hfree]; exact hl
  let u := free.updRecord r.id left
  have hoff (q : CallRecord) : offering u (left r) c.partner (left q) = transferring a c r q := by
    dsimp only [u]
    rw [hfree]
    rfl
  have hupd : u.updRecord r.id (offering u (left r) c.partner) = free.updRecord r.id (transferring a c r) := by
    refine (updRecord_updRecord left (offering u (left r) c.partner) fun _ => rfl).trans ?_
    exact congrArg _ (funext hoff)
  have hlost : a.isLost c.partner.link = false := by
    obtain ⟨hh, -⟩ := usable_iff.1 hu
    rw [isLost_link]
    cases he : (a.centre c.partner).health <;> simp_all [Health.heard]
  have hoffer : u.offerTo r.id c.partner =
      ((free.updRecord r.id (transferring a c r)).informed c.partner.link
        (.callOffer (offerOf (transferring a c r r)))).retone r.line := by
    refine (offerTo_retoned (s := u) (r := left r)
      (recordById_changed (f := left) (fun _ => rfl) hby)).trans ?_
    rw [hoff, show (left r).id = r.id from rfl, hupd]
  have hdef : a.transferCall c r = (((u.offerTo r.id c.partner).updRecord r.id fun q => { q with
      transferTimer := some ((u.offerTo r.id c.partner).timer ((u.offerTo r.id c.partner).timers.escalate * 1000)) }).reply
        c.link Command.transfer .ok []).checkHandover c := rfl
  have hq : (free.updRecord r.id (transferring a c r)).recordOfLine r.line = some (transferring a c r r) :=
    recordOfLine_changed (fun _ => rfl) hof
  rw [hdef, State.reply_eq]
  refine congrArg (State.checkHandover · c) ?_
  rw [hoffer, retone_inCall (r := r) (q := transferring a c r r) (t := .hold) (by rw [informed_line, hfree]; exact hi)
    (by rw [informed_recordOfLine]; exact hq)
    (by simp [toneFor, transferring]), informed_eq, hfree, hearing]
  have hrecs : ((a.records.map fun q => if q.id = r.id then transferring a c r q else q).map fun q =>
      if q.id = r.id then
        { q with transferTimer := some { length := a.timers.escalate * 1000, due := a.clock + a.timers.escalate * 1000 } }
      else q) = (transferred a c r).records := by
    rw [List.map_map]
    refine List.map_congr_left fun q _ => ?_
    by_cases hq : q.id = r.id <;> simp [hq, transferring]
  refine Eq.trans ?_ (congrArg (fun x => { transferred a c r with records := x }) hrecs)
  rw [if_neg]
  · cases c <;> rfl
  · rw [isLost_link] at hlost ⊢
    cases c <;> exact Bool.eq_false_iff.1 hlost

/-- What the handover of the requester is looked at in (R123). -/
theorem transferred_centre (d : Centre) : (transferred a c r).centre d = a.centre d := by
  cases c <;> cases d <;> rfl

theorem transferred_tidy (h : Tidy a) (hr : r ∈ a.records) : Tidy (transferred a c r) :=
  h.change hr (f := fun q => { transferring a c r q with
      transferTimer := some { length := a.timers.escalate * 1000, due := a.clock + a.timers.escalate * 1000 } })
    (fun _ => rfl) (fun _ => rfl) rfl (by simp [toneFor, transferring, transferred])

theorem transferred_offered (d : Centre) (h : ∀ q ∈ a.records, q.offered.has d = true → q.state = .offered) :
    ∀ q ∈ (transferred a c r).records, q.offered.has d = true → q.state = .offered := fun q hq hd => by
  obtain ⟨p, hp, rfl⟩ := List.mem_map.1 hq
  by_cases he : p.id = r.id
  · rw [if_pos he]
    rfl
  · rw [if_neg he] at hd ⊢
    exact h p hp hd

theorem spoken_iff (k : CallState) : k.spoken = true ↔ k = .connected ∨ k = .held := by
  cases k <;> simp [CallState.spoken]

end

/-- Settles O22, by the checks in their order; the transfer itself is an offer to the partner. -/
theorem transferOffersPartner : Obligations.TransferOffersPartner := by
  intro s c id r had a no
  have he : ∀ t, a.withClaimed c Command.transfer id (fun r =>
      if !r.state.spoken then a.refuse c.link Command.transfer .wrongState
      else if !a.usable c.partner then a.refuse c.link Command.transfer .partnerUnavailable
      else a.transferCall c r) = t → exec (.transfer c.link [id]) s = .next t := fun t ht =>
    (taking_centreCommand had id _).trans (congrArg _ ht)
  refine ⟨fun code hc => he _ (withClaimed_refused hc), fun h0 hr hc => ⟨fun hs => he _ ?_, fun hs hu => he _ ?_⟩,
    fun h0 hr hc hl hi hs hu hand hch => ?_⟩
  · have hs : r.state.spoken = false := Bool.eq_false_iff.2 (mt (spoken_iff _).1 hs)
    rw [withClaimed_some h0 hr hc, hs]
    exact State.refuse_eq ..
  · have hs : r.state.spoken = true := (spoken_iff _).2 hs
    rw [withClaimed_some h0 hr hc, hs, hu]
    exact State.refuse_eq ..
  · have hs : r.state.spoken = true := (spoken_iff _).2 hs
    obtain ⟨hmem, hid⟩ := State.recordById_some hr
    refine he _ ?_
    rw [withClaimed_some h0 hr hc, hs, hu]
    refine (transferCall_eq (hid ▸ hr) hl hi hu hch).trans ?_
    refine checkHandoverOf_eq (some c) fun d hd hduty => ?_
    obtain rfl : c = d := Option.some.inj hd
    rw [transferred_centre] at hduty
    obtain ⟨hids, hcalls, hlines, hdut⟩ := hand hduty
    refine ⟨transferred_tidy (tidy_of_inv hids hcalls hlines) hmem, transferred_offered c (offered_of_calls hcalls c), ?_⟩
    rw [resumes, transferred_centre]
    exact not_resumes_partner hdut (by simp [hduty])

end Sys2Proof.Proofs

/-! PROOFS. The call id that the register issues next (R84). -/

namespace Sys2Proof.Proofs

open Sys2Proof Sys2Proof.Machine

/-- The values from a call id on, 255 being followed by 1 (R84). -/
def candidate (id : CallId) (k : Nat) : CallId := Fin.ofNat 256 ((id.val - 1 + k) % 255 + 1)

theorem candidate_val (id : CallId) (k : Nat) : (candidate id k).val = (id.val - 1 + k) % 255 + 1 := by
  have : (id.val - 1 + k) % 255 < 255 := Nat.mod_lt _ (by decide)
  exact Nat.mod_eq_of_lt (by omega)

theorem candidate_zero {id : CallId} (h : id ≠ 0) : candidate id 0 = id := by
  have h0 : id.val ≠ 0 := fun e => h (Fin.ext e)
  have := id.isLt
  exact Fin.ext (by rw [candidate_val]; omega)

theorem candidate_wraps {id : CallId} (h : id ≠ 0) : candidate id 255 = id := by
  have h0 : id.val ≠ 0 := fun e => h (Fin.ext e)
  have := id.isLt
  exact Fin.ext (by rw [candidate_val]; omega)

theorem nextCandidate_val {id : CallId} (h : id ≠ 0) : (nextCandidate id).val = id.val % 255 + 1 := by
  have h0 : id.val ≠ 0 := fun e => h (Fin.ext e)
  have hlt := id.isLt
  unfold nextCandidate
  by_cases h255 : id = 255
  · subst h255
    rfl
  · have hne : id.val ≠ 255 := fun e => h255 (Fin.ext e)
    rw [if_neg h255, Fin.val_add]
    show (id.val + 1) % 256 = _
    omega

theorem nextCandidate_ne {id : CallId} (h : id ≠ 0) : nextCandidate id ≠ 0 := fun e => by
  have h1 := nextCandidate_val h
  rw [e] at h1
  exact absurd h1 (by simp)

theorem candidate_next {id : CallId} (h : id ≠ 0) (k : Nat) : candidate (nextCandidate id) k = candidate id (k + 1) := by
  have h0 : id.val ≠ 0 := fun e => h (Fin.ext e)
  refine Fin.ext ?_
  rw [candidate_val, candidate_val, nextCandidate_val h]
  have := id.isLt
  omega

/-- The first of the values from an id on that is not held. -/
theorem findFreeId_eq (held : CallId → Bool) (n : Nat) {id : CallId} (h : id ≠ 0) :
    findFreeId held n id = (((List.range n).map (candidate id)).find? fun x => !held x).getD (candidate id n) := by
  induction n generalizing id with
  | zero => exact (candidate_zero h).symm
  | succ n ih =>
    have hmap : ((List.range n).map Nat.succ).map (candidate id) = (List.range n).map (candidate (nextCandidate id)) := by
      rw [List.map_map]
      exact List.map_congr_left fun k _ => (candidate_next h k).symm
    rw [findFreeId, List.range_succ_eq_map, List.map_cons, List.find?_cons, candidate_zero h, hmap]
    cases hh : held id with
    | true => simpa [candidate_next h] using ih (nextCandidate_ne h)
    | false => rfl

/-- The register issues the first value from its counter on that neither a record nor an abandoned entry holds
(R84). -/
theorem nextId_eq (s : State) (h : s.idCounter ≠ 0) :
    s.nextId = issuedId (s.records.map (·.id) ++ s.abandoned.map (·.id)) s.idCounter := by
  have hheld : (fun x => !s.idHeld x) = fun x => decide (x ∉ s.records.map (·.id) ++ s.abandoned.map (·.id)) := by
    funext x
    have : s.idHeld x = true ↔ x ∈ s.records.map (·.id) ++ s.abandoned.map (·.id) := by
      simp [State.idHeld]
    by_cases hx : x ∈ s.records.map (·.id) ++ s.abandoned.map (·.id)
    · rw [this.2 hx, decide_eq_false (not_not_intro hx)]
      rfl
    · rw [Bool.eq_false_iff.2 (mt this.1 hx), decide_eq_true hx]
      rfl
  rw [State.nextId, findFreeId_eq _ _ h, candidate_wraps h, hheld]
  rfl

/-- A value that is issued is no 0 (R84). -/
theorem issuedId_ne_zero (held : List CallId) {counter : CallId} (h : counter ≠ 0) : issuedId held counter ≠ 0 := by
  unfold issuedId
  cases hf : ((List.range 255).map fun k => Fin.ofNat 256 ((counter.val - 1 + k) % 255 + 1)).find? fun id =>
      decide (id ∉ held) with
  | none => exact h
  | some x =>
    obtain ⟨k, -, rfl⟩ := List.mem_map.1 (List.mem_of_find?_eq_some hf)
    intro e
    have := candidate_val counter k
    rw [candidate, show Fin.ofNat 256 ((counter.val - 1 + k) % 255 + 1) = 0 from e] at this
    exact absurd this (by simp)

/-- With fewer than 255 ids held, a value that is issued is not held (R84). -/
theorem issuedId_not_mem {held : List CallId} (counter : CallId) (hn : held.length < 255) : issuedId held counter ∉ held := by
  unfold issuedId
  cases hf : ((List.range 255).map fun k => Fin.ofNat 256 ((counter.val - 1 + k) % 255 + 1)).find? fun id =>
      decide (id ∉ held) with
  | some x => exact of_decide_eq_true (List.find?_some (p := fun id => decide (id ∉ held)) hf)
  | none =>
    have hsub : (List.range 255).map (candidate counter) ⊆ held := fun x hx => by
      have := List.find?_eq_none.1 hf x hx
      simpa using this
    have hnd : ((List.range 255).map (candidate counter)).Nodup := by
      refine List.Nodup.map_on (fun i hi j hj he => ?_) List.nodup_range
      have hi := List.mem_range.1 hi
      have hj := List.mem_range.1 hj
      have := congrArg Fin.val he
      rw [candidate_val, candidate_val] at this
      omega
    have := (hnd.subperm hsub).length_le
    rw [List.length_map, List.length_range] at this
    omega

end Sys2Proof.Proofs

/-! PROOFS. The promotion of the first overflow entry (R88). -/

namespace Sys2Proof.Proofs

open Sys2Proof Sys2Proof.Machine

/-! ### Messages apart from the rest of a state -/

/-- A state with the links of another. -/
def relinked (s w : State) : State := { s with linkA := w.linkA, linkB := w.linkB, linkS := w.linkS }

/-- Two states whose links hear alike (R157). -/
structure Hears (s w : State) : Prop where
  tick : w.tick = s.tick
  lost : ∀ l, w.isLost l = s.isLost l

section

variable {s t w : State}

theorem Hears.refl (s : State) : Hears s s := ⟨rfl, fun _ => rfl⟩

theorem relinked_self (s : State) : relinked s s = s := rfl

theorem relinked_link (s w : State) (l : Link) : (relinked s w).link l = w.link l := by cases l <;> rfl

theorem Hears.setLink (h : Hears s w) (l : Link) (k : LinkController) : Hears s (w.setLink l k) :=
  ⟨(State.setLink_tick ..).trans h.tick, fun m => (State.setLink_isLost ..).trans (h.lost m)⟩

theorem Hears.informed (h : Hears s w) (l : Link) (n : Notice) : Hears s (w.informed l n) := by
  rw [informed_eq]
  exact h.setLink ..

theorem Hears.leftBy (h : Hears s w) (c : Centre) (id : CallId) (n : Notice) : Hears s (w.leftBy c id n) := h.setLink ..

theorem Hears.announced (h : Hears s w) (n : Notice) : Hears s (w.announced n) :=
  ((h.informed ..).informed ..).informed ..

theorem relinked_isLost (s w : State) (l : Link) : (relinked s w).isLost l = s.isLost l := by
  cases l <;> rfl

theorem relinked_setLink (s w : State) (l : Link) (k : LinkController) :
    (relinked s w).setLink l k = relinked s (w.setLink l k) := by
  cases l <;> rfl

/-- A notice goes to the same queue in a state with other calls and lines. -/
theorem relinked_informed (h : Hears s w) (l : Link) (n : Notice) :
    (relinked s w).informed l n = relinked s (w.informed l n) := by
  rw [informed_eq, informed_eq, relinked_setLink]
  refine congrArg (fun k => relinked s (w.setLink l k)) ?_
  rw [hearing, hearing, relinked_isLost, relinked_link, h.lost, show (relinked s w).tick = w.tick from h.tick.symm]

theorem relinked_leftBy (h : Hears s w) (c : Centre) (id : CallId) (n : Notice) :
    (relinked s w).leftBy c id n = relinked s (w.leftBy c id n) := by
  unfold State.leftBy
  rw [relinked_setLink, relinked_isLost, relinked_link, h.lost, show (relinked s w).tick = w.tick from h.tick.symm]

theorem relinked_announced (h : Hears s w) (n : Notice) :
    (relinked s w).announced n = relinked s (w.announced n) := by
  unfold State.announced
  rw [relinked_informed h, relinked_informed (h.informed ..), relinked_informed ((h.informed ..).informed ..)]

/-- Messages to one link after another. -/
theorem relinked_foldl {α : Type} {f : State → α → State}
    (hf : ∀ w x, Hears s w → Hears s (f w x) ∧ f (relinked s w) x = relinked s (f w x)) (h : Hears s w) (xs : List α) :
    Hears s (xs.foldl f w) ∧ xs.foldl f (relinked s w) = relinked s (xs.foldl f w) := by
  induction xs generalizing w with
  | nil => exact ⟨h, rfl⟩
  | cons x xs ih =>
    obtain ⟨h1, h2⟩ := hf w x h
    rw [List.foldl_cons, List.foldl_cons, h2]
    exact ih h1

end

/-! ### A promoted record -/

section

variable {v u w : State} {e : OverflowEntry} {rs : List CallRecord} {r : CallRecord}

/-- The record of a promotion before its first offer (R81, R88). -/
def madeOf (v : State) (e : OverflowEntry) (id : CallId) : CallRecord :=
  CallRecord.create id e.line e.arrival (v.overdueTimerFor e.arrival)

/-- The record of a promotion after the first offer of a result it holds (R88). -/
def firstOf (v : State) (e : OverflowEntry) (id : CallId) : CallRecord :=
  match e.result with
  | some res => v.offeredFirst ((madeOf v e id).resolved v.acceptance (v.entry e.line) res)
  | none => madeOf v e id

theorem overdueTimerFor_eq (v : State) (arrival : Tick) : v.overdueTimerFor arrival =
    if v.timers.overdue * 1000 ≤ (v.tick - arrival).toNat * 10 then none
    else some { length := v.timers.overdue * 1000,
                due := v.clock - v.subTick + (v.timers.overdue * 1000 - (v.tick - arrival).toNat * 10) } := by
  unfold State.overdueTimerFor
  dsimp only
  by_cases h : v.timers.overdue * 1000 ≤ (v.tick - arrival).toNat * 10
  · rw [if_pos h]
    exact if_neg (Nat.not_lt.2 h)
  · rw [if_neg h]
    exact if_pos (Nat.not_le.1 h)

theorem overdueTimerFor_isNone (v : State) (arrival : Tick) : (v.overdueTimerFor arrival).isNone =
    decide (v.timers.overdue * 1000 ≤ (v.tick - arrival).toNat * 10) := by
  rw [overdueTimerFor_eq]
  by_cases h : v.timers.overdue * 1000 ≤ (v.tick - arrival).toNat * 10
  · rw [if_pos h, decide_eq_true h]
    rfl
  · rw [if_neg h, decide_eq_false h]
    rfl

/-- A record with OVERDUE as it is given (R110). -/
def overdueAs (q : CallRecord) (late : Bool) : CallRecord := { q with flags := { q.flags with overdue := late } }

theorem promoted_eq (v : State) (e : OverflowEntry) (id : CallId) :
    v.promoted e id = overdueAs (firstOf v e id) (v.overdueTimerFor e.arrival).isNone := by
  have hmade : madeOf v e id = CallRecord.create id e.line e.arrival
      (if decide (v.timers.overdue * 1000 ≤ (v.tick - e.arrival).toNat * 10) = true then none
        else some { length := v.timers.overdue * 1000,
                    due := v.clock - v.subTick + (v.timers.overdue * 1000 - (v.tick - e.arrival).toNat * 10) }) := by
    rw [madeOf, overdueTimerFor_eq]
    simp only [decide_eq_true_eq]
  rw [overdueTimerFor_isNone, firstOf, hmade]
  rfl

/-- The register after a promotion, the line of the entry in call (R88). -/
def promoting (v : State) (e : OverflowEntry) (rest : List OverflowEntry) (id : CallId) : State :=
  { v with
    records := v.records ++ [madeOf v e id], overflow := rest, idCounter := nextCandidate id
    lines := v.lines.set e.line { condition := .inCall, tone := .registered }
    orders := v.orders ++ toned v e.line .registered }

theorem find?_line_append (hnone : v.recordOfLine e.line = none) (hr : r.line = e.line) :
    (v.records ++ [r]).find? (·.line = e.line) = some r := by
  rw [List.find?_append, show v.records.find? (·.line = e.line) = none from hnone]
  simp [hr]

theorem addRecord_eq {rest : List OverflowEntry} (hnone : v.recordOfLine e.line = none) :
    State.addRecord { v with overflow := rest } e.line e.arrival = promoting v e rest v.nextId := by
  have hq : (State.createRecord { v with overflow := rest } e.line e.arrival).recordOfLine e.line =
      some (madeOf v e v.nextId) := find?_line_append hnone rfl
  refine (enter_eq ..).trans ?_
  rw [hq]
  rfl

theorem put_append {m q : CallRecord} (hid : q.id = m.id) (hfresh : ∀ p ∈ rs, p.id ≠ m.id) :
    put (rs ++ [m]) q = rs ++ [q] := by
  have h : put rs q = rs := put_self fun p hp he => absurd (he.trans hid) (hfresh p hp)
  show (rs ++ [m]).map _ = _
  rw [List.map_append]
  show put rs q ++ _ = _
  rw [h]
  simp [hid]

theorem find?_id_append {m : CallRecord} (hfresh : ∀ p ∈ rs, p.id ≠ m.id) : (rs ++ [m]).find? (·.id = m.id) = some m := by
  rw [List.find?_append, List.find?_eq_none.2 fun p hp => by simpa using hfresh p hp]
  simp

/-- The CALL_OFFERs of a record, to the links it is offered to. -/
def offersOf (s : State) (q : CallRecord) : State :=
  q.offered.members.foldl (fun s c => s.informed c.link (.callOffer (offerOf q))) s

/-- The first offer of a record that no link was offered yet (R105 to R107). -/
theorem Turn.firstOffer (turn : Turn u w rs r) (hun : r.state.unclaimed = true) (ho : r.offered = .empty)
    (hf : r.firstOffer = none) (hc : r.claimedOnce = false) :
    (holding w rs).makeFirstOffer r.id = holding (offersOf w (u.offeredFirst r)) (put rs (u.offeredFirst r)) := by
  have huse (c : Centre) : (holding w rs).usable c = u.usable c := by
    obtain ⟨a, b, hw⟩ := turn.linked
    rw [hw]
    cases c <;> rfl
  have hentry : (holding w rs).entry r.line = u.entry r.line := by
    obtain ⟨a, b, hw⟩ := turn.linked
    rw [hw]
    rfl
  have offers (c : Centre) : ((holding w rs).offerTo r.id c).startOffer r.id =
      holding (offersOf w (u.asOffered { r with state := .waiting } c)) (put rs (u.asOffered { r with state := .waiting } c)) := by
    have hrec : u.asOffered { r with state := .waiting } c = { offeredBy u r c with
        firstOffer := some u.tick, escalation := some (u.timer (u.timers.escalate * 1000)) } := by
      simp [State.asOffered, hf, hc, offeredBy, CallRecord.offeredTo, State.timer]
    have hmem : (offeredBy u r c).offered.members = [c] := by
      show (r.offered.add c).members = _
      rw [ho, members_single]
    have hmsg : offersOf w (u.asOffered { r with state := .waiting } c) =
        w.informed c.link (.callOffer (offerOf (offeredBy u r c))) := by
      rw [hrec, offersOf, hmem]
      rfl
    rw [hmsg, hrec, turn.offerTo hun]
    refine (turn.offer (c := c) hun).startOffer.trans (congrArg (holding _) ?_)
    exact put_put rfl
  rw [makeFirstOffer_eq (s := holding w rs) (r := r) turn.byId, hentry, huse, huse]
  unfold State.offeredFirst
  dsimp only
  split
  · exact offers _
  · split
    · exact offers _
    · have hwait : ({ r with state := .waiting, offered := .empty } : CallRecord) = { r with state := .waiting } := by
        rw [← ho]
      have hupd := turn.updRecord (fun r => { r with state := .waiting, offered := .empty }) rfl
      have turn' := turn.change (q := { r with state := .waiting, offered := .empty }) rfl rfl
        (toneFor_unclaimed hun rfl rfl rfl)
      rw [hupd, offersOf, show ({ r with state := .waiting } : CallRecord).offered.members = [] by rw [ho]; rfl]
      refine turn'.retone.trans ?_
      rw [hwait]
      rfl

theorem offeredFirst_keeps (v : State) (r : CallRecord) :
    (v.offeredFirst r).id = r.id ∧ (v.offeredFirst r).line = r.line ∧
      (v.offeredFirst r).flags.overdue = r.flags.overdue ∧ (v.offeredFirst r).flags.orphan = r.flags.orphan ∧
      (v.offeredFirst r).origin = r.origin ∧ (v.offeredFirst r).state.unclaimed = true := by
  unfold State.offeredFirst
  dsimp only
  split
  · exact ⟨rfl, rfl, rfl, rfl, rfl, rfl⟩
  · split <;> exact ⟨rfl, rfl, rfl, rfl, rfl, rfl⟩

theorem firstOf_keeps (v : State) (e : OverflowEntry) (id : CallId) :
    (firstOf v e id).id = id ∧ (firstOf v e id).line = e.line ∧ (firstOf v e id).flags.overdue = false ∧
      (firstOf v e id).flags.orphan = false ∧ (firstOf v e id).origin = none ∧
      (firstOf v e id).state.unclaimed = true := by
  unfold firstOf
  split
  · exact offeredFirst_keeps ..
  · exact ⟨rfl, rfl, rfl, rfl, rfl, rfl⟩

/-- A promoted record that holds a result is resolved (R88). -/
def resolvedNow (u : State) (e : OverflowEntry) : State :=
  match u.recordOfLine e.line, e.result with
  | some r, some res => u.resolve r res
  | _, _ => u

/-- A promoted record whose overdue moment has passed is marked (R88, R110). -/
def markedNow (u : State) (n : LineId) (late : Bool) : State :=
  match u.recordOfLine n with
  | some r => if late then u.markOverdue r else u
  | none => u

theorem promote_steps {rest : List OverflowEntry} (hv : v.overflow = e :: rest) (hnone : v.recordOfLine e.line = none) :
    v.promote = markedNow (resolvedNow (promoting v e rest v.nextId) e) e.line (v.overdueTimerFor e.arrival).isNone := by
  rw [← addRecord_eq hnone, State.promote, hv]
  rfl

/-- What is told of a promoted record: its offers, and that it is overdue (R105, R110). -/
theorem promotionTold_eq (v : State) (q : CallRecord) (late : Bool) (ho : q.flags.overdue = false) :
    v.promotionTold (overdueAs q late) = if late then
      (offersOf v q).announced (.callOverdue q.id q.line q.category ((v.tick - q.arrival).toNat / 100))
    else offersOf v q := by
  have hback : overdueAs (overdueAs q late) false = q := by
    rw [← ho]
    rfl
  have htick : (offersOf v q).tick = v.tick :=
    (relinked_foldl (s := v) (w := v) (f := fun s c => s.informed (Centre.link c) (.callOffer (offerOf q)))
      (fun w c hw => ⟨hw.informed .., relinked_informed hw ..⟩) (Hears.refl v) q.offered.members).1.tick
  have hoff : (overdueAs q late).offered.members.foldl (fun s c => s.informed (Centre.link c)
      (.callOffer (offerOf (overdueAs (overdueAs q late) false)))) v = offersOf v q := by
    rw [hback]
    rfl
  unfold State.promotionTold
  cases late with
  | false => exact hoff
  | true =>
    refine (congrArg (fun w : State => w.announced (.callOverdue q.id q.line q.category
      ((w.tick - q.arrival).toNat / 100))) hoff).trans ?_
    rw [htick]
    rfl

/-- The messages of a promotion stand apart from the register and the line (R105, R110). -/
theorem promotion_links (v u : State) (q : CallRecord) (late : Bool) (hu : Hears u v) (hs : relinked u v = u)
    (hof : (v.records ++ [q]).find? (·.line = q.line) = some q) (hfresh : ∀ p ∈ v.records, p.id ≠ q.id)
    (ho : q.flags.overdue = false) :
    markedNow (holding (offersOf u q) (v.records ++ [q])) q.line late =
      relinked (holding u (v.records ++ [overdueAs q late]))
        (if late then (offersOf v q).announced (.callOverdue q.id q.line q.category ((v.tick - q.arrival).toNat / 100))
          else offersOf v q) := by
  obtain ⟨hears, hoff⟩ := relinked_foldl (s := u) (w := v) (f := fun s c => s.informed (Centre.link c) (.callOffer (offerOf q)))
    (fun w c hw => ⟨hw.informed .., relinked_informed hw ..⟩) hu q.offered.members
  rw [hs] at hoff
  have hoff : offersOf u q = relinked u (offersOf v q) := hoff
  have hfind : (holding (offersOf u q) (v.records ++ [q])).recordOfLine q.line = some q := hof
  rw [markedNow, hfind]
  cases late with
  | false =>
    rw [show overdueAs q false = q by rw [overdueAs, ← ho]]
    exact congrArg (holding · _) hoff
  | true =>
    have hput : put (v.records ++ [q]) (overdueAs q true) = v.records ++ [overdueAs q true] := put_append rfl hfresh
    have hupd : (holding (offersOf u q) (v.records ++ [q])).updRecord q.id
        (fun p => { p with flags := { p.flags with overdue := true } }) =
        relinked (holding u (v.records ++ [overdueAs q true])) (offersOf v q) := by
      refine Eq.trans ?_ ((congrArg (holding (offersOf u q)) hput).trans (congrArg (holding · _) hoff))
      refine congrArg (holding (offersOf u q)) (List.map_congr_left fun p hp => ?_)
      rcases List.mem_append.1 hp with hp | hp
      · exact (if_neg (hfresh p hp)).trans (if_neg (hfresh p hp)).symm
      · rw [List.mem_singleton.1 hp]
        rfl
    have htick : (holding (offersOf u q) (v.records ++ [q])).tick = v.tick := by
      rw [hoff]
      exact hu.tick.symm
    show ((holding (offersOf u q) (v.records ++ [q])).updRecord q.id _).notifyAll _ = _
    rw [hupd, State.notifyAll_eq, htick]
    exact relinked_announced (s := holding u (v.records ++ [overdueAs q true]))
      ⟨hears.tick, fun l => (hears.lost l).trans (by cases l <;> rfl)⟩ _

/-- A promotion makes the record of the first overflow entry, offers it and tells when it is overdue (R88, R105 to
R107, R110). -/
theorem promote_eq {rest : List OverflowEntry} (hv : v.overflow = e :: rest) (hnone : v.recordOfLine e.line = none)
    (hfresh : ∀ p ∈ v.records, p.id ≠ v.nextId) :
    v.promote = relinked (holding (promoting v e rest v.nextId) (v.records ++ [v.promoted e v.nextId]))
      (v.promotionTold (v.promoted e v.nextId)) := by
  let id := v.nextId
  let u := promoting v e rest id
  let q := firstOf v e id
  obtain ⟨hqid, hqline, hqover, -, -, -⟩ := firstOf_keeps v e id
  have hline : u.line e.line = { condition := .inCall, tone := .registered } := by simp [u, promoting, State.line]
  have turn : Turn u u u.records (madeOf v e id) :=
    { linked := Linked.refl u
      byId := find?_id_append (m := madeOf v e id) hfresh
      ofLine := find?_line_append hnone rfl
      alone := fun p hp he => by
        rcases List.mem_append.1 hp with hp | hp
        · exact absurd he (hfresh p hp)
        · exact List.mem_singleton.1 hp
      toned := toned_inCall (congrArg LineUnit.condition hline) (congrArg LineUnit.tone hline) }
  have hput {x : CallRecord} (hx : x.id = id) : put u.records x = v.records ++ [x] :=
    put_append (m := madeOf v e id) hx hfresh
  -- the record with the result it holds, resolved and first offered
  have hfirst : resolvedNow u e = holding (offersOf u q) (v.records ++ [q]) := by
    rw [resolvedNow, show u.recordOfLine e.line = some (madeOf v e id) from turn.ofLine]
    cases hres : e.result with
    | none =>
      have hq : q = madeOf v e id := by simp only [q, firstOf, hres]
      rw [hq]
      rfl
    | some res =>
      have hq : q = u.offeredFirst ((madeOf v e id).resolved v.acceptance (v.entry e.line) res) := by
        simp only [q, firstOf, hres]
        rfl
      have hupd : u.updRecord (madeOf v e id).id (fun p => p.resolved v.acceptance (v.entry e.line) res) =
          holding u (put u.records ((madeOf v e id).resolved v.acceptance (v.entry e.line) res)) :=
        turn.updRecord (fun p => p.resolved v.acceptance (v.entry e.line) res) rfl
      have turn' := turn.change (q := (madeOf v e id).resolved v.acceptance (v.entry e.line) res) rfl rfl
        (toneFor_unclaimed rfl rfl rfl rfl)
      have hoff := turn'.firstOffer rfl rfl rfl rfl
      rw [← hq, put_put (by exact hqid), hput hqid] at hoff
      show (u.updRecord (madeOf v e id).id fun p => p.resolved v.acceptance (v.entry e.line) res).makeFirstOffer _ = _
      rw [hupd]
      exact hoff
  have hlink := promotion_links v u q (v.overdueTimerFor e.arrival).isNone ⟨rfl, fun l => by cases l <;> rfl⟩ rfl
    (by rw [hqline]; exact find?_line_append hnone hqline) (fun p hp => by rw [hqid]; exact hfresh p hp) hqover
  have hq' : overdueAs q (v.overdueTimerFor e.arrival).isNone = v.promoted e id := (promoted_eq v e id).symm
  rw [promote_steps hv hnone, hfirst, ← hqline, hlink, ← promotionTold_eq v q _ hqover, hq']

end

end Sys2Proof.Proofs

/-! PROOFS. The end of a call (R91, R92). -/

namespace Sys2Proof.Proofs

open Sys2Proof Sys2Proof.Machine

section

variable {s t w v : State} {r : CallRecord} {x : EndReason}

theorem dropCapture_eq (s : State) (n : LineId) : s.dropCapture n = s.uncaptured n := by
  unfold State.dropCapture State.uncaptured
  cases hc : s.capture n with
  | none => rfl
  | some k =>
    dsimp only
    rw [leaveReceiver_eq]
    rfl

/-! ### What a record leaves behind -/

/-- The messages of a record that ends: to its claimant, to the links it is offered to and to its transfer origin
(R92). -/
def endTold (s : State) (r : CallRecord) (x : EndReason) : State :=
  (match r.claimant with
    | some c => s.informed c.link (.callEnded r.id r.line x)
    | none => s).withdrawnAll r x

/-- The register, the channels and the abandoned list without the record (R92, R95). -/
def removed (s : State) (r : CallRecord) : State :=
  { s with
    records := s.records.filter fun q => q.id ≠ r.id
    channels := freedOf s.channels r.channel
    orders := s.orders ++ breaks r.line r.channel
    abandoned := if r.state.unclaimed then abandonedWith s.abandoned (s.leftBehind r) else s.abandoned
    overflowed := s.overflowed || (r.state.unclaimed && decide (16 ≤ s.abandoned.length)) }

theorem relinked_withdrawnAll (h : Hears s w) : Hears s (w.withdrawnAll r x) ∧
    (relinked s w).withdrawnAll r x = relinked s (w.withdrawnAll r x) := by
  obtain ⟨h1, h2⟩ := relinked_foldl (s := s) (w := w)
    (f := fun s c => s.leftBy c r.id (.callWithdrawn r.id r.line x))
    (fun w c hw => ⟨hw.leftBy .., relinked_leftBy hw ..⟩) h r.offered.members
  unfold State.withdrawnAll
  dsimp only
  rw [h2]
  cases r.origin with
  | none => exact ⟨h1, rfl⟩
  | some o =>
    dsimp only
    split
    · exact ⟨h1, rfl⟩
    · exact ⟨h1.informed .., relinked_informed h1 ..⟩

theorem endTold_hears (h : Hears s w) : Hears s (endTold w r x) ∧
    endTold (relinked s w) r x = relinked s (endTold w r x) := by
  unfold endTold
  cases r.claimant with
  | none => exact relinked_withdrawnAll h
  | some c =>
    dsimp only
    rw [relinked_informed h]
    exact relinked_withdrawnAll (h.informed ..)

theorem withdrawnAll_eq (s : State) (r : CallRecord) (x : EndReason) :
    (s.each r.offered.members fun s c => s.withdrawFrom r c x).notifyOrigin r (.callWithdrawn r.id r.line x) =
      s.withdrawnAll r x := by
  show State.notifyOrigin (r.offered.members.foldl (fun s c => s.leftBy c r.id (.callWithdrawn r.id r.line x)) s) r _ = _
  unfold State.withdrawnAll State.notifyOrigin
  cases r.origin with
  | none => rfl
  | some o =>
    dsimp only
    cases r.offered.has o with
    | true => rfl
    | false =>
      rw [Bool.false_or, State.notify_eq]
      unfold State.informed
      split <;> simp

theorem addAbandoned_eq (s : State) (e : AbandonedEntry) : s.addAbandoned e =
    { s with abandoned := abandonedWith s.abandoned e, overflowed := s.overflowed || decide (16 ≤ s.abandoned.length) } := by
  unfold State.addAbandoned abandonedWith
  by_cases h : s.abandoned.length < 16
  · refine (if_pos h).trans ?_
    rw [if_pos h, decide_eq_false (Nat.not_le.2 h), Bool.or_false]
  · rw [if_neg h, decide_eq_true (Nat.not_lt.1 h), Bool.or_true]
    refine (if_neg h).trans ?_
    rw [List.drop_one]

/-- A record ends, and a full register promotes (R92). -/
theorem endRecord_eq (hch : ∀ ch ∈ r.channel, ∃ d, s.channel ch = .connected r.line d r.id) :
    s.endRecord r x = if Config.registerCapacity ≤ s.records.length then (relinked (removed s r) (endTold s r x)).promote
      else relinked (removed s r) (endTold s r x) := by
  let m : State := { s with
    records := s.records.filter fun q => q.id ≠ r.id
    channels := freedOf s.channels r.channel
    orders := s.orders ++ breaks r.line r.channel }
  have hfree : (s.removeRecord r.id).freeHeld r.channel = m := by
    cases hc : r.channel with
    | none => exact (freeHeld_eq (ch := none) (n := r.line) (c := .a) (id := r.id) fun _ h => nomatch h).trans (by
        simp only [m, hc]
        rfl)
    | some ch =>
      obtain ⟨d, hd⟩ := hch ch hc
      refine (freeHeld_eq (s := s.removeRecord r.id) (ch := some ch) (n := r.line) (c := d) (id := r.id) ?_).trans (by
        simp only [m, hc]
        rfl)
      rintro _ ⟨⟩
      exact hd
  have hms : Hears m s := ⟨rfl, fun l => by cases l <;> rfl⟩
  obtain ⟨ht, hte⟩ := endTold_hears (r := r) (x := x) hms
  have htold : State.notifyOrigin (State.each (match r.claimant with
        | some c => m.notify c.link (.callEnded r.id r.line x)
        | none => m) r.offered.members fun s c => s.withdrawFrom r c x) r (.callWithdrawn r.id r.line x) =
      relinked m (endTold s r x) := by
    rw [withdrawnAll_eq, ← hte]
    unfold endTold
    cases r.claimant with
    | none => rfl
    | some c =>
      dsimp only
      rw [State.notify_eq]
      rfl
  have hgone : (if r.state.unclaimed then (relinked m (endTold s r x)).addAbandoned
        (abandonedOfRecord r (relinked m (endTold s r x)).tick) else relinked m (endTold s r x)) =
      relinked (removed s r) (endTold s r x) := by
    cases hu : r.state.unclaimed with
    | true =>
      rw [if_pos rfl, addAbandoned_eq, removed, hu]
      rfl
    | false =>
      rw [if_neg Bool.false_ne_true, removed, hu, Bool.false_and, Bool.or_false]
      rfl
  rw [← hgone, ← htold, ← hfree]
  rfl

/-! ### The register, the line and the receiver after a call -/

/-- The part after the end of a call, before its capture is dropped (R88, R91, R92). -/
def endedCore (s : State) (r : CallRecord) (x : EndReason) (line : LineUnit) (p : Option CallRecord) : State :=
  { (match p with
      | some q => (endTold s r x).promotionTold q
      | none => endTold s r x) with
    records := (s.records.filter fun q => q.id ≠ r.id) ++ p.toList
    overflow := if p.isSome then s.overflow.tail else s.overflow
    idCounter := match p with
      | some q => nextCandidate q.id
      | none => s.idCounter
    channels := freedOf s.channels r.channel
    abandoned := if r.state.unclaimed then abandonedWith s.abandoned (s.leftBehind r) else s.abandoned
    overflowed := s.overflowed || (r.state.unclaimed && decide (16 ≤ s.abandoned.length))
    lines := (match p with
      | some q => s.lines.set q.line { condition := .inCall, tone := .registered }
      | none => s.lines).set r.line line
    orders := s.orders ++ breaks r.line r.channel ++
      (match p with
        | some q => toned s q.line .registered
        | none => []) ++ toned s r.line line.tone }

theorem ended_eq (s : State) (r : CallRecord) (x : EndReason) (line : LineUnit) (p : Option CallRecord) :
    s.ended r x line p = ((endedCore s r x line p).uncaptured r.line).handoverChecked r.claimant := rfl

theorem relinked_promotionTold {q : CallRecord} (h : Hears s w) :
    (relinked s w).promotionTold q = relinked s (w.promotionTold q) := by
  obtain ⟨h1, h2⟩ := relinked_foldl (s := s) (w := w)
    (f := fun s c => s.informed (Centre.link c) (.callOffer (offerOf (overdueAs q false))))
    (fun w c hw => ⟨hw.informed .., relinked_informed hw ..⟩) h q.offered.members
  unfold State.promotionTold
  cases ho : q.flags.overdue with
  | false => exact h2
  | true =>
    refine (congrArg (fun v : State => v.announced (.callOverdue q.id q.line q.category
      ((v.tick - q.arrival).toNat / 100))) h2).trans ?_
    rw [relinked_announced h1]
    refine congrArg (fun k : Tick => relinked s (State.announced _ (.callOverdue q.id q.line q.category
      ((k - q.arrival).toNat / 100)))) ?_
    exact h1.tick.symm

/-- The promotion that the end of a record leaves room for (R88). -/
structure Promotes (s : State) (r : CallRecord) (e : OverflowEntry) : Prop where
  first : s.overflow = e :: s.overflow.tail
  full : Config.registerCapacity ≤ s.records.length
  apart : e.line ≠ r.line
  unlisted : s.recordOfLine e.line = none
  issued : s.idCounter ≠ 0
  fresh : ∀ p ∈ s.records, p.id ≠ r.id → s.promotedId r ≠ p.id

/-- A call ends with its line as it is given, and with the promoted record when the register was full (R91, R92). -/
theorem endRecord_enter {line : LineUnit} {p : Option CallRecord}
    (hch : ∀ ch ∈ r.channel, ∃ d, s.channel ch = .connected r.line d r.id)
    (hline : ∀ q, toneFor line.condition q = line.tone)
    (hp : p = none ∧ (s.records.length < 16 ∨ s.overflow = []) ∨
      ∃ e, Promotes s r e ∧ p = some (s.promoted e (s.promotedId r))) :
    (s.endRecord r x).enter r.line line.condition = endedCore s r x line p := by
  rw [enter_eq, hline]
  rcases hp with ⟨rfl, hroom⟩ | ⟨e, he, rfl⟩
  · have hend : s.endRecord r x = relinked (removed s r) (endTold s r x) := by
      rw [endRecord_eq hch]
      split
      · next hfull =>
        have ho : s.overflow = [] := hroom.resolve_left (Nat.not_lt.2 hfull)
        unfold State.promote
        rw [show (relinked (removed s r) (endTold s r x)).overflow = [] from ho]
      · rfl
    have hM := (endTold_hears (r := r) (x := x) (Hears.refl s)).2
    rw [hend]
    unfold endedCore
    rw [relinked_self] at hM
    generalize endTold s r x = M at hM ⊢
    rw [hM, Option.toList_none, List.append_nil]
    dsimp only
    rw [List.append_nil]
    rfl
  · let v := relinked (removed s r) (endTold s r x)
    let q := s.promoted e (s.promotedId r)
    have hears := (endTold_hears (r := r) (x := x) (Hears.refl s)).1
    have hid : v.nextId = s.promotedId r := nextId_eq v he.issued
    have hq : v.promoted e v.nextId = q := by
      rw [hid]
      rfl
    have hmem : ∀ p ∈ v.records, p.id ≠ v.nextId := fun p hp => by
      obtain ⟨hp, hne⟩ := List.mem_filter.1 hp
      rw [hid]
      exact (he.fresh p hp (by simpa using hne)).symm
    have hnone : v.recordOfLine e.line = none := by
      refine List.find?_eq_none.2 fun p hp => ?_
      exact List.find?_eq_none.1 he.unlisted p (List.mem_filter.1 hp).1
    have hqid : q.id = s.promotedId r ∧ q.line = e.line := by
      have := firstOf_keeps s e (s.promotedId r)
      rw [show q = _ from promoted_eq s e (s.promotedId r)]
      exact ⟨this.1, this.2.1⟩
    have hend : s.endRecord r x = relinked (holding (promoting v e s.overflow.tail q.id) (v.records ++ [q]))
        ((endTold s r x).promotionTold q) := by
      rw [endRecord_eq hch, if_pos he.full, promote_eq (v := v) he.first hnone hmem, hq, hid, ← hqid.1]
      refine (congrArg (relinked _) (relinked_promotionTold (s := removed s r) (q := q) ⟨hears.tick, hears.lost⟩)).trans rfl
    have hne : e.line.val ≠ r.line.val := fun h => he.apart (Fin.ext h)
    have htoned (M : State) : toned (relinked (holding (promoting v e s.overflow.tail q.id) (v.records ++ [q])) M) r.line
        line.tone = toned s r.line line.tone := by
      have hrl : (promoting v e s.overflow.tail q.id).line r.line = s.line r.line := by
        simp [promoting, State.line, v, relinked, removed, Vector.getElem_set_ne, hne]
      exact congrArg (fun u : LineUnit => if u.tone = line.tone then [] else [Order.tone r.line line.tone]) hrl
    have hM := relinked_promotionTold (s := s) (w := endTold s r x) (q := q) hears
    rw [← (endTold_hears (r := r) (x := x) (Hears.refl s)).2, relinked_self] at hM
    rw [hend]
    unfold endedCore
    dsimp only
    have hlines : s.lines.set q.line { condition := .inCall, tone := .registered } =
        s.lines.set e.line { condition := .inCall, tone := .registered } :=
      congrArg (fun n : LineId => s.lines.set n { condition := .inCall, tone := .registered }) hqid.2
    rw [htoned, show s.promoted e (s.promotedId r) = q from rfl, hlines,
      show toned s q.line .registered = toned s e.line .registered from congrArg (toned s · .registered) hqid.2]
    generalize (endTold s r x).promotionTold q = M at hM ⊢
    rw [hM]
    rfl

theorem uncaptured_keeps (s : State) (n : LineId) : (s.uncaptured n).records = s.records ∧
    (s.uncaptured n).lines = s.lines ∧ (s.uncaptured n).centre = s.centre := by
  unfold State.uncaptured
  dsimp only
  split <;> exact ⟨rfl, rfl, rfl⟩

theorem endedCore_centre (s : State) (r : CallRecord) (x : EndReason) (line : LineUnit) (p : Option CallRecord) :
    (endedCore s r x line p).centre = s.centre := by
  obtain ⟨ht, hM⟩ := endTold_hears (r := r) (x := x) (Hears.refl s)
  rw [relinked_self] at hM
  cases p with
  | none =>
    show (fun c => _) = _
    funext c
    unfold endedCore
    generalize endTold s r x = M at hM ⊢
    rw [hM]
    cases c <;> rfl
  | some q =>
    have hq := relinked_promotionTold (s := s) (w := endTold s r x) (q := q) ht
    rw [← hM] at hq
    funext c
    unfold endedCore
    dsimp only
    generalize (endTold s r x).promotionTold q = M at hq ⊢
    rw [hq]
    cases c <;> rfl

/-- One record leaves and another comes, on a line of its own that has its tone (R41). -/
theorem Tidy.replace {q : CallRecord} (h : Tidy s) (hr : r ∈ s.records)
    (hfresh : ∀ p ∈ s.records, p.id ≠ r.id → q.id ≠ p.id) (hnew : ∀ p ∈ s.records, p.line ≠ q.line)
    (hrecs : t.records = (s.records.filter fun p => p.id ≠ r.id) ++ [q])
    (hother : ∀ m, m ≠ r.line → m ≠ q.line → t.line m = s.line m)
    (hq : t.line q.line = { condition := .inCall, tone := toneFor .inCall (some q) }) : Tidy t := by
  obtain ⟨h1, h2, h3⟩ := h
  have hsub : (s.records.filter fun p => p.id ≠ r.id).Sublist s.records := List.filter_sublist
  refine ⟨?_, ?_, fun p hp => ?_⟩
  · rw [hrecs, List.map_append]
    refine (h1.sublist (hsub.map _)).append (List.nodup_singleton _) ?_
    rw [List.map_singleton, List.disjoint_singleton]
    intro hm
    obtain ⟨p, hp, hpe⟩ := List.mem_map.1 hm
    obtain ⟨hp, hpn⟩ := List.mem_filter.1 hp
    exact hfresh p hp (by simpa using hpn) hpe.symm
  · rw [hrecs, List.map_append]
    refine (h2.sublist (hsub.map _)).append (List.nodup_singleton _) ?_
    rw [List.map_singleton, List.disjoint_singleton]
    intro hm
    obtain ⟨p, hp, hpe⟩ := List.mem_map.1 hm
    exact hnew p (List.mem_filter.1 hp).1 hpe
  · rw [hrecs] at hp
    rcases List.mem_append.1 hp with hp | hp
    · obtain ⟨hp, hpn⟩ := List.mem_filter.1 hp
      have hne : p.line ≠ r.line := fun he => by
        have : p = r := List.inj_on_of_nodup_map h2 hp hr he
        simp [this] at hpn
      rw [hother _ hne (hnew p hp)]
      exact h3 p hp
    · obtain rfl : p = q := List.mem_singleton.1 hp
      rw [hq]
      exact rfl

/-- The calls that are left, and the one promoted, stand with the tones of their lines (R41, R88). -/
theorem endedCore_tidy {line : LineUnit} {p : Option CallRecord} (h : Tidy s) (hr : r ∈ s.records)
    (hp : p = none ∧ (s.records.length < 16 ∨ s.overflow = []) ∨
      ∃ e, Promotes s r e ∧ p = some (s.promoted e (s.promotedId r))) : Tidy (endedCore s r x line p) := by
  obtain ⟨h1, h2, h3⟩ := h
  have hsub : (s.records.filter fun q => q.id ≠ r.id).Sublist s.records := List.filter_sublist
  have hother : ∀ q ∈ s.records.filter fun q => q.id ≠ r.id, q ∈ s.records ∧ r.line.val ≠ q.line.val := fun q hq => by
    obtain ⟨hq, hne⟩ := List.mem_filter.1 hq
    refine ⟨hq, fun he => ?_⟩
    have : r = q := List.inj_on_of_nodup_map h2 hr hq (Fin.ext he)
    simp [this] at hne
  rcases hp with ⟨rfl, -⟩ | ⟨e, he, rfl⟩
  · have hrec : (endedCore s r x line none).records = s.records.filter fun q => q.id ≠ r.id := List.append_nil _
    refine ⟨?_, ?_, fun q hq => ?_⟩
    · rw [hrec]; exact h1.sublist (hsub.map _)
    · rw [hrec]; exact h2.sublist (hsub.map _)
    · rw [hrec] at hq
      obtain ⟨hq, hne⟩ := hother q hq
      have hl : (endedCore s r x line none).line q.line = s.line q.line :=
        Vector.getElem_set_ne r.line.isLt q.line.isLt hne
      rw [hl]
      exact h3 q hq
  · obtain ⟨k1, k2, -, k3, k4, k5⟩ := firstOf_keeps s e (s.promotedId r)
    have hq : s.promoted e (s.promotedId r) = overdueAs (firstOf s e (s.promotedId r)) _ := promoted_eq ..
    have hid : (s.promoted e (s.promotedId r)).id = s.promotedId r := by rw [hq]; exact k1
    have hline : (s.promoted e (s.promotedId r)).line = e.line := by rw [hq]; exact k2
    have htone : toneFor .inCall (some (s.promoted e (s.promotedId r))) = .registered := by
      rw [hq]
      exact toneFor_unclaimed (r := CallRecord.create 0 0 0 none) (q := overdueAs _ _) rfl k5 k3 k4
    generalize s.promoted e (s.promotedId r) = q at hid hline htone
    have hne : r.line.val ≠ e.line.val := fun h => he.apart (Fin.ext h.symm)
    have hl (n : LineId) (hn : r.line.val ≠ n.val) : (endedCore s r x line (some q)).line n =
        (s.lines.set q.line { condition := .inCall, tone := .registered })[n] :=
      Vector.getElem_set_ne r.line.isLt n.isLt hn
    refine Tidy.replace ⟨h1, h2, h3⟩ hr (t := endedCore s r x line (some q)) (q := q) (fun p hp hpn => ?_) (fun p hp hpl => ?_)
      rfl (fun m hm hmq => ?_) ?_
    · rw [hid]
      exact he.fresh p hp hpn
    · exact absurd (List.find?_eq_none.1 he.unlisted p hp) (by simp [hpl, hline])
    · rw [hl m fun h => hm (Fin.ext h.symm), Fin.getElem_fin,
        Vector.getElem_set_ne q.line.isLt m.isLt fun h => hmq (Fin.ext h.symm)]
      rfl
    · rw [hl _ (by rw [hline]; exact hne), htone, Fin.getElem_fin, Vector.getElem_set_self]

theorem firstOf_offered {e : OverflowEntry} {id : CallId} {c : Centre} (h : (firstOf v e id).offered.has c = true) :
    (firstOf v e id).state = .offered := by
  have hempty : CentreSet.empty.has c ≠ true := by cases c <;> decide
  unfold firstOf at h ⊢
  split at h
  · unfold State.offeredFirst at h ⊢
    dsimp only at h ⊢
    split at h
    · next hu => rw [if_pos hu]; rfl
    · next hu =>
      rw [if_neg hu]
      split at h
      · next hp => rw [if_pos hp]; rfl
      · exact absurd h hempty
  · exact absurd h hempty

theorem endedCore_offered {line : LineUnit} {p : Option CallRecord} {c : Centre}
    (h : ∀ q ∈ s.records, q.offered.has c = true → q.state = .offered)
    (hp : p = none ∧ (s.records.length < 16 ∨ s.overflow = []) ∨
      ∃ e, Promotes s r e ∧ p = some (s.promoted e (s.promotedId r))) :
    ∀ q ∈ (endedCore s r x line p).records, q.offered.has c = true → q.state = .offered := fun q hq hc => by
  rcases List.mem_append.1 (show q ∈ (s.records.filter fun q => q.id ≠ r.id) ++ p.toList from hq) with hq | hq
  · exact h q (List.mem_filter.1 hq).1 hc
  · rcases hp with ⟨rfl, -⟩ | ⟨e, -, rfl⟩
    · cases hq
    · obtain rfl : q = s.promoted e (s.promotedId r) := List.mem_singleton.1 hq
      rw [promoted_eq] at hc ⊢
      exact firstOf_offered (v := s) hc

/-- The end of a call (R91, R92, R123). -/
theorem endCall_eq {line : LineUnit} {p : Option CallRecord}
    (hch : ∀ ch ∈ r.channel, ∃ d, s.channel ch = .connected r.line d r.id)
    (hline : ∀ q, toneFor line.condition q = line.tone)
    (hp : p = none ∧ (s.records.length < 16 ∨ s.overflow = []) ∨
      ∃ e, Promotes s r e ∧ p = some (s.promoted e (s.promotedId r)))
    (hhand : ∀ c, r.claimant = some c → (s.centre c).duty = .handingOver →
      (Tidy s ∧ r ∈ s.records) ∧ (∀ q ∈ s.records, q.offered.has c = true → q.state = .offered) ∧
        resumes s c.partner = false) :
    s.endCall r x line.condition = s.ended r x line p := by
  have hend : s.endCall r x line.condition = ((endedCore s r x line p).uncaptured r.line).checkHandoverOf r.claimant := by
    rw [← endRecord_enter hch hline hp, ← dropCapture_eq]
    rfl
  obtain ⟨k1, k2, k3⟩ := uncaptured_keeps (endedCore s r x line p) r.line
  have hcen : ((endedCore s r x line p).uncaptured r.line).centre = s.centre := k3.trans (endedCore_centre ..)
  rw [hend, ended_eq]
  refine checkHandoverOf_eq _ fun c hc hd => ?_
  rw [hcen] at hd
  obtain ⟨⟨ht, hr⟩, ho, hres⟩ := hhand c hc hd
  refine ⟨(endedCore_tidy ht hr hp).of_eq k1 k2, ?_, ?_⟩
  · rw [k1]
    exact endedCore_offered ho hp
  · rw [resumes, hcen]
    exact hres

end

end Sys2Proof.Proofs

/-! PROOFS. RELEASE (R116). -/

namespace Sys2Proof.Proofs

open Sys2Proof Sys2Proof.Machine

section

variable {s a : State} {r : CallRecord} {c : Centre}

theorem abandonedWith_length (xs : List AbandonedEntry) (e : AbandonedEntry) (h : xs.length ≤ 16) :
    (abandonedWith xs e).length ≤ 16 := by
  unfold abandonedWith
  split <;> simp <;> omega

/-- The abandoned list once a record has ended (R92, R95). -/
def abandonedAfter (s : State) (r : CallRecord) : List AbandonedEntry :=
  if r.state.unclaimed then abandonedWith s.abandoned (s.leftBehind r) else s.abandoned

/-- The id of a promoted record is new (R84). -/
theorem promotedId_fresh (h : InvIds s) (r : CallRecord) : s.promotedId r ≠ 0 ∧
    (∀ p ∈ s.records, p.id ≠ r.id → s.promotedId r ≠ p.id) ∧ ∀ p ∈ abandonedAfter s r, s.promotedId r ≠ p.id := by
  obtain ⟨hlen, hab, -, -, -, -, hcount, -⟩ := h
  have hablen : (abandonedAfter s r).length ≤ 16 := by
    unfold abandonedAfter
    split
    · exact abandonedWith_length _ _ hab
    · exact hab
  have hnot : s.promotedId r ∉ (s.records.filter fun q => q.id ≠ r.id).map (·.id) ++ (abandonedAfter s r).map (·.id) := by
    refine issuedId_not_mem s.idCounter ?_
    have := List.length_filter_le (fun q : CallRecord => decide (q.id ≠ r.id)) s.records
    have hlen : s.records.length ≤ 16 := hlen
    rw [List.length_append, List.length_map, List.length_map]
    omega
  refine ⟨issuedId_ne_zero _ hcount, fun p hp hne he => hnot ?_, fun p hp he => hnot ?_⟩
  · exact List.mem_append_left _ (List.mem_map.2 ⟨p, List.mem_filter.2 ⟨hp, by simpa using hne⟩, he.symm⟩)
  · exact List.mem_append_right _ (List.mem_map.2 ⟨p, hp, he.symm⟩)

/-- A reply leaves all that the end of a call reads (R92). -/
theorem answered_promotes {type : Byte} {code : ReplyCode} {e : OverflowEntry} (h : Promotes a r e) :
    Promotes (a.answered c.link type code []) r e := by
  cases c <;> exact ⟨h.first, h.full, h.apart, h.unlisted, h.issued, h.fresh⟩

theorem answered_promoted {type : Byte} {code : ReplyCode} (e : OverflowEntry) :
    (a.answered c.link type code []).promoted e ((a.answered c.link type code []).promotedId r) =
      a.promoted e (a.promotedId r) := by
  cases c <;> rfl

theorem answered_channel {type : Byte} {code : ReplyCode} (ch : ChannelId) :
    (a.answered c.link type code []).channel ch = a.channel ch := by
  cases c <;> rfl

theorem answered_records {type : Byte} {code : ReplyCode} : (a.answered c.link type code []).records = a.records := by
  cases c <;> rfl

theorem answered_overflow {type : Byte} {code : ReplyCode} : (a.answered c.link type code []).overflow = a.overflow := by
  cases c <;> rfl

/-- The line of a released call (R39). -/
def parkedLine (s : State) : LineUnit :=
  { condition := .parked (some { length := s.timers.parkNotice * 1000, due := s.clock + s.timers.parkNotice * 1000 }) false
      s.tick
    tone := .clear }

/-- RELEASE of a call that its requester speaks on (R116). -/
theorem release_eq {p : Option CallRecord} (hr : r ∈ a.records) (hc : r.claimant = some c)
    (hch : ∀ ch ∈ r.channel, a.channel ch = .connected r.line c r.id)
    (hhand : (a.centre c).duty = .handingOver → InvIds a ∧ InvCalls a ∧ InvLines a ∧ InvDuty a)
    (hp : p = none ∧ (a.records.length < 16 ∨ a.overflow = []) ∨
      ∃ e, Promotes a r e ∧ p = some (a.promoted e (a.promotedId r))) :
    (a.refuse c.link Command.release .ok).endCall r .released a.parkedNow =
      (a.answered c.link Command.release .ok []).ended r .released (parkedLine a) p := by
  rw [State.refuse_eq]
  refine endCall_eq (line := parkedLine a) (fun ch h => ⟨c, (answered_channel ch).trans (hch ch h)⟩) (fun _ => rfl) ?_ ?_
  · rcases hp with ⟨rfl, hroom⟩ | ⟨e, he, rfl⟩
    · exact .inl ⟨rfl, by rw [answered_records, answered_overflow]; exact hroom⟩
    · exact .inr ⟨e, answered_promotes he, congrArg some (answered_promoted e).symm⟩
  · intro d hd hduty
    obtain rfl : c = d := Option.some.inj (hc.symm.trans hd)
    rw [answered_centre] at hduty
    obtain ⟨hids, hcalls, hlines, hdut⟩ := hhand hduty
    refine ⟨⟨(tidy_of_inv hids hcalls hlines).answered, by rw [answered_records]; exact hr⟩, ?_, ?_⟩
    · rw [answered_records]
      exact offered_of_calls hcalls c
    · rw [resumes, answered_centre]
      exact not_resumes_partner hdut (by simp [hduty])

end

/-- Settles O21, by the checks in their order; the release itself is the end of a call. -/
theorem releaseParksLine : Obligations.ReleaseParksLine := by
  intro s c id r had a no
  have he : ∀ t, a.withClaimed c Command.release id (fun r =>
      if r.state.spoken then (a.refuse c.link Command.release .ok).endCall r .released a.parkedNow
      else a.refuse c.link Command.release .wrongState) = t → exec (.release c.link [id]) s = .next t := fun t ht =>
    (taking_centreCommand had id _).trans (congrArg _ ht)
  refine ⟨fun code hc => he _ (withClaimed_refused hc), fun h0 hr hc hs => he _ ?_, fun h0 hr hc hs hch hhand => ?_⟩
  · have hs : r.state.spoken = false := Bool.eq_false_iff.2 (mt (spoken_iff _).1 hs)
    rw [withClaimed_some h0 hr hc, hs]
    exact State.refuse_eq ..
  · have hs : r.state.spoken = true := (spoken_iff _).2 hs
    obtain ⟨hmem, hid⟩ := State.recordById_some hr
    intro b park parked
    have hrel {p : Option CallRecord} (hp : p = none ∧ (a.records.length < 16 ∨ a.overflow = []) ∨
        ∃ e, Promotes a r e ∧ p = some (a.promoted e (a.promotedId r))) :
        exec (.release c.link [id]) s = .next (b.ended r .released parked p) := he _ (by
      rw [withClaimed_some h0 hr hc, if_pos hs]
      exact release_eq hmem hc hch hhand hp)
    refine ⟨fun hroom => hrel (.inl ⟨rfl, hroom⟩), fun e hhead hfull hids hne hnone => ?_⟩
    obtain ⟨f0, f1, f2⟩ := promotedId_fresh hids r
    have hab : abandonedAfter a r = a.abandoned := by
      have : r.state.unclaimed = false := by
        cases hst : r.state <;> simp_all [CallState.unclaimed, CallState.spoken]
      rw [abandonedAfter, this]
      rfl
    rw [hab] at f2
    refine ⟨f0, f1, f2, hrel (.inr ⟨e, ?_, rfl⟩)⟩
    obtain ⟨-, -, -, -, -, -, hcount, -⟩ := hids
    exact ⟨(List.eq_cons_of_mem_head? hhead), hfull, hne, hnone, hcount, f1⟩

end Sys2Proof.Proofs

/-! PROOFS. The overflow list, the start of a capture and the abandoned entry of a queued line (R55, R85, R87, R93). -/

namespace Sys2Proof.Proofs

open Sys2Proof Sys2Proof.Machine

section

variable {s : State} {n : LineId} {c : LoopClass} {kind : FaultKind}

/-! ### The overflow list -/

/-- The entries of the overflow list that stand before another (R87). -/
def standsBefore (now : Tick) (e q : OverflowEntry) : Bool :=
  !decide (ticksSince now q.arrival < ticksSince now e.arrival ∨
    (ticksSince now e.arrival = ticksSince now q.arrival ∧ e.line.val < q.line.val))

/-- An entry takes its place behind those that stand before it (R87). -/
theorem insertOverflow_eq (now : Tick) (e : OverflowEntry) (xs : List OverflowEntry) :
    insertOverflow now e xs = xs.takeWhile (standsBefore now e) ++ [e] ++ xs.dropWhile (standsBefore now e) := by
  induction xs with
  | nil => rfl
  | cons x xs ih =>
    rw [insertOverflow, ih, List.takeWhile_cons, List.dropWhile_cons]
    by_cases h : ticksSince now x.arrival < ticksSince now e.arrival ∨
        (ticksSince now e.arrival = ticksSince now x.arrival ∧ e.line.val < x.line.val)
    · have hb : standsBefore now e x = false := by rw [standsBefore, decide_eq_true h]; rfl
      rw [if_pos h, hb]
      simp
    · have hb : standsBefore now e x = true := by rw [standsBefore, decide_eq_false h]; rfl
      rw [if_neg h, hb]
      simp

theorem insertOverflow_length (now : Tick) (e : OverflowEntry) (xs : List OverflowEntry) :
    (insertOverflow now e xs).length = xs.length + 1 := by
  rw [insertOverflow_eq, List.length_append, List.length_append, List.length_singleton, Nat.add_right_comm,
    ← List.length_append, List.takeWhile_append_dropWhile]

/-- An entry that arrives now stands behind all but those of this tick on higher lines (R87). -/
theorem standsBefore_now (s : State) (n : LineId) (q : OverflowEntry) :
    standsBefore s.tick { line := n, arrival := s.tick, result := none } q =
      (decide (s.tick ≠ q.arrival) || decide (q.line.val ≤ n.val)) := by
  unfold standsBefore ticksSince
  rw [BitVec.sub_self]
  by_cases ha : s.tick = q.arrival
  · have h0 : (s.tick - q.arrival).toNat = 0 := by rw [ha, BitVec.sub_self]; rfl
    rw [h0, decide_eq_false (p := s.tick ≠ q.arrival) (fun h => h ha), Bool.false_or, ← decide_not]
    exact decide_eq_decide.2 (by simp)
  · have h0 : (s.tick - q.arrival).toNat ≠ 0 := fun h => ha (by
      have : s.tick - q.arrival = 0#32 := BitVec.eq_of_toNat_eq h
      exact sub_eq_zero.1 this)
    simp only [BitVec.toNat_zero, Nat.not_lt_zero, false_or, ne_eq, ha, not_false_eq_true, decide_true, Bool.true_or]
    rw [decide_eq_false fun h => h0 h.1.symm]
    rfl

/-- A line goes to the overflow list and is QUEUED (R87). -/
theorem queueLine_eq (s : State) (n : LineId) : s.queueLine n =
    { s with
      lines := s.lines.set n { condition := .queued, tone := .wait }
      orders := s.orders ++ toned s n .wait }.announced (.overflow n s.overflow.length) := by
  unfold State.queueLine
  rw [enter_eq, State.notifyAll_eq]
  rfl

/-! ### The start of a capture -/

/-- The line in its receiver's place (R55). -/
def Receiver.joined (r : Receiver) (n : LineId) : Receiver :=
  match r.listening with
  | none => { r with listening := some n }
  | some _ => { r with waiting := r.waiting ++ [n] }

/-- The order of a receiver that was free (R55). -/
def Receiver.hearing (r : Receiver) (n : LineId) : List Order :=
  match r.listening with
  | none => [.listen n.group (some n)]
  | some _ => []

theorem startCapture_eq (s : State) (n : LineId) (arrival : Tick) : s.startCapture n arrival = { s with
    captures := s.captures.set n (some
      { arrival := arrival, window := { length := 3000, due := s.clock - s.subTick + 3000 } })
    receivers := s.receivers.set n.group (Receiver.joined (s.receiver n.group) n)
    orders := s.orders ++ Receiver.hearing (s.receiver n.group) n } := by
  unfold State.startCapture Receiver.joined Receiver.hearing
  have hr : (s.setCapture n (some
      { arrival := arrival, window := { length := 3000, due := s.clock - s.subTick + 3000 } })).receiver n.group =
      s.receiver n.group := rfl
  dsimp only
  rw [show s.timerFromTick Config.windowTime = { length := 3000, due := s.clock - s.subTick + 3000 } from rfl, hr]
  cases hl : (s.receiver n.group).listening with
  | none => rfl
  | some m =>
    dsimp only
    rw [List.append_nil]
    rfl

/-! ### The abandoned entry of a queued line -/

theorem overflowLeft_eq (s : State) (e : OverflowEntry) (id : CallId) : s.overflowLeft e id =
    { id := id, line := e.line, arrival := e.arrival, ended := s.tick, offered := .empty, orphan := false
      category := match e.result with
        | some res => (categoryAndCheck s.acceptance none res).1
        | none => .emergency } := by
  unfold State.overflowLeft
  cases e.result with
  | none => rfl
  | some res =>
    cases res with
    | notReceived => rfl
    | received b =>
      refine congrArg (fun k => ({
        id := id, line := e.line, arrival := e.arrival, ended := s.tick, offered := .empty, orphan := false
        category := k } : AbandonedEntry)) ?_
      dsimp only [categoryAndCheck]
      by_cases h1 : b.code = 1#2
      · simp [h1]
      · by_cases h2 : b.code = 2#2
        · have hhit (k : Fin 4) : s.acceptance[k].hit b.identity = true ↔ s.acceptance[k].enable = true ∧
              (b.identity &&& s.acceptance[k].mask) = (s.acceptance[k].pattern &&& s.acceptance[k].mask) := by
            simp [Acceptance.hit]
          rw [if_neg h1, if_pos h2]
          by_cases hk : ∃ k : Fin 4, s.acceptance[k].enable = true ∧
              (b.identity &&& s.acceptance[k].mask) = (s.acceptance[k].pattern &&& s.acceptance[k].mask)
          · rw [if_pos ⟨h2, hk⟩]
            cases ha : acceptanceHit s.acceptance b.identity with
            | some k => rfl
            | none =>
              obtain ⟨k, hk⟩ := hk
              exact absurd ((hhit k).2 hk) (by simpa using List.find?_eq_none.1 ha k (List.mem_finRange k))
          · rw [if_neg fun h => hk h.2, acceptanceHit_eq_none fun k => Bool.eq_false_iff.2 fun h => hk ⟨k, (hhit k).1 h⟩]
        · rw [if_neg h1, if_neg (fun h => h2 h.1), if_neg h2, if_neg h1]

/-- A queued line's entry leaves the overflow list for the abandoned one, under a new id (R93, R94). -/
theorem dropOverflow_eq {e : OverflowEntry} (h : s.overflow.find? (·.line = n) = some e) : s.dropOverflow n = { s with
    overflow := s.overflow.filter fun q => q.line ≠ n
    idCounter := nextCandidate s.nextId
    abandoned := abandonedWith s.abandoned (s.overflowLeft e s.nextId)
    overflowed := s.overflowed || decide (16 ≤ s.abandoned.length) } := by
  unfold State.dropOverflow
  rw [h]
  dsimp only [State.abandonOverflow]
  rw [addAbandoned_eq, overflowLeft_eq]
  rfl

theorem abandonedWith_getLast (xs : List AbandonedEntry) (e : AbandonedEntry) :
    (abandonedWith xs e).getLast? = some e := by
  simp [abandonedWith]

/-- The id that is issued next is new (R84). -/
theorem nextId_fresh (h : InvIds s) : s.nextId = issuedId (s.records.map (·.id) ++ s.abandoned.map (·.id)) s.idCounter ∧
    s.nextId ≠ 0 ∧ (∀ q ∈ s.records, q.id ≠ s.nextId) ∧ ∀ q ∈ s.abandoned, q.id ≠ s.nextId := by
  obtain ⟨hlen, hab, -, -, -, -, hcount, -⟩ := h
  have hid := nextId_eq s hcount
  have hnot : s.nextId ∉ s.records.map (·.id) ++ s.abandoned.map (·.id) := by
    rw [hid]
    refine issuedId_not_mem s.idCounter ?_
    have hlen : s.records.length ≤ 16 := hlen
    have hab : s.abandoned.length ≤ 16 := hab
    rw [List.length_append, List.length_map, List.length_map]
    omega
  refine ⟨hid, hid ▸ issuedId_ne_zero _ hcount, fun q hq he => hnot ?_, fun q hq he => hnot ?_⟩
  · exact List.mem_append_left _ (List.mem_map.2 ⟨q, hq, he⟩)
  · exact List.mem_append_right _ (List.mem_map.2 ⟨q, hq, he⟩)

end

end Sys2Proof.Proofs

/-! PROOFS. What a confirmed class does to its line (R35 to R38, R43, R85 to R93). -/

namespace Sys2Proof.Proofs

open Sys2Proof Sys2Proof.Machine

section

variable {s : State} {n : LineId} {c : LoopClass} {kind : FaultKind}

/-! ### What a handover leaves alone -/

/-- The state without what a handover changes. -/
def undutied (s : State) : State :=
  { s with records := [], linkA := .initial, linkB := .initial, centreA := .initial 0, centreB := .initial 0 }

theorem undutied_linked {s t : State} (h : Linked s t) : undutied t = undutied s := by
  obtain ⟨a, b, rfl⟩ := h
  rfl

theorem undutied_setCentre (s : State) (d : Centre) (k : CentreControl) : undutied (s.setCentre d k) = undutied s := by
  cases d <;> rfl

theorem undutied_informed (s : State) (d : Centre) (x : Notice) : undutied (s.informed d.link x) = undutied s :=
  undutied_linked ((Linked.refl s).informed d x)

theorem undutied_holding (s : State) (rs : List CallRecord) : undutied (holding s rs) = undutied s := rfl

theorem undutied_calledBack (s : State) (d : Centre) : undutied (s.calledBack d) = undutied s := by
  have hw (t : State) : undutied (t.welcomed d) = undutied t :=
    (undutied_holding ..).trans (undutied_linked (offeredAll_linked (Linked.refl t) _))
  rw [State.calledBack, hw, undutied_informed, undutied_setCentre]

theorem undutied_handoverChecked (s : State) (k : Option Centre) : undutied (s.handoverChecked k) = undutied s := by
  have hover (d : Centre) : undutied (s.handedOver d) = undutied s := by
    let told := (handoverLeaves s d (s.registerOrder.filter fun r => r.offered.has d)).offeredAll d.partner.link
      (((s.registerOrder.filter fun r => r.offered.has d).filter fun r =>
        s.usable d.partner && !r.offered.has d.partner).map (s.movedFrom · d))
    have htold : Linked s told := offeredAll_linked (handoverLeaves_linked (Linked.refl s) _) _
    have hdone : undutied (((holding told (s.records.map fun r => if r.offered.has d then s.movedFrom r d else r)).setCentre d
        { s.centre d with duty := .standby }).informed d.link .handoverDone) = undutied s := by
      rw [undutied_informed, undutied_setCentre, undutied_holding]
      exact undutied_linked htold
    unfold State.handedOver
    dsimp only
    split
    · exact hdone
    · rw [undutied_calledBack]
      exact hdone
  cases k with
  | none => rfl
  | some d =>
    unfold State.handoverChecked
    dsimp only
    split
    · exact hover d
    · rfl

theorem of_undutied {s t : State} (h : undutied t = undutied s) :
    t.lines = s.lines ∧ t.classifiers = s.classifiers ∧ t.abandoned = s.abandoned :=
  have h1 := congrArg State.lines h
  have h2 := congrArg State.classifiers h
  have h3 := congrArg State.abandoned h
  ⟨h1, h2, h3⟩

/-! ### The line of a call that has ended -/

theorem uncaptured_leaves (s : State) (n : LineId) : (s.uncaptured n).lines = s.lines ∧
    (s.uncaptured n).classifiers = s.classifiers ∧ (s.uncaptured n).abandoned = s.abandoned := by
  unfold State.uncaptured
  dsimp only
  split <;> exact ⟨rfl, rfl, rfl⟩

theorem endedCore_classifiers (s : State) (r : CallRecord) (x : EndReason) (line : LineUnit) (p : Option CallRecord) :
    (endedCore s r x line p).classifiers = s.classifiers := by
  obtain ⟨ht, hM⟩ := endTold_hears (r := r) (x := x) (Hears.refl s)
  rw [relinked_self] at hM
  cases p with
  | none =>
    show (endTold s r x).classifiers = _
    rw [hM]
    rfl
  | some q =>
    have hq := relinked_promotionTold (s := s) (w := endTold s r x) (q := q) ht
    rw [← hM] at hq
    show ((endTold s r x).promotionTold q).classifiers = _
    rw [hq]
    rfl

/-- The line, its classifier and the abandoned list once a call has ended (R91, R94). -/
theorem ended_leaves (s : State) (r : CallRecord) (x : EndReason) (line : LineUnit) (p : Option CallRecord) :
    (s.ended r x line p).line r.line = line ∧ (∀ m, (s.ended r x line p).classifier m = s.classifier m) ∧
      (s.ended r x line p).abandoned = abandonedAfter s r := by
  obtain ⟨h1, h2, h3⟩ := of_undutied (undutied_handoverChecked ((endedCore s r x line p).uncaptured r.line) r.claimant)
  obtain ⟨k1, k2, k3⟩ := uncaptured_leaves (endedCore s r x line p) r.line
  rw [← ended_eq] at h1 h2 h3
  refine ⟨?_, fun m => ?_, h3.trans k3⟩
  · unfold State.line
    rw [h1, k1]
    exact Vector.getElem_set_self r.line.isLt
  · unfold State.classifier
    rw [h2, k2, endedCore_classifiers]

/-- The loss of a line ends its call, and reports the line (R37). -/
theorem ended_reported (r : CallRecord) (x : EndReason) (p : Option CallRecord) :
    (s.ended r x { condition := .fault kind, tone := .none } p).notifyCondition r.line =
      (s.ended r x { condition := .fault kind, tone := .none } p).reported r.line
        (.lineCondition r.line (.fault kind) (s.classifier r.line).leaky) := by
  obtain ⟨h1, h2, -⟩ := ended_leaves s r x { condition := .fault kind, tone := .none } p
  rw [notifyCondition_eq, h1, h2]

/-! ### A class change in a call -/

theorem fault?_cases (h : c.fault? = some kind) : c ≠ .idle ∧ c ≠ .offhook := by
  cases c <;> simp_all [LoopClass.fault?]

theorem changeInCall_idle {r : CallRecord} (h : s.recordOfLine n = some r) :
    s.changeInCall n .idle = s.endCall r .callerCleared .idle := by
  rw [State.changeInCall, h]

theorem changeInCall_fault {r : CallRecord} (h : s.recordOfLine n = some r) (hf : c.fault? = some kind) :
    s.changeInCall n c = (s.endCall r .lineLost (.fault kind)).notifyCondition n := by
  rw [State.changeInCall, h]
  cases c <;> cases hf <;> rfl

theorem changeQueued_fault (hf : c.fault? = some kind) : s.changeQueued n c =
    (((s.dropOverflow n).enter n (.fault kind)).dropCapture n).notifyCondition n := by
  cases c <;> cases hf <;> rfl

/-- What the end of a call by its line needs of the part (R37, R92). -/
theorem endCall_line {r : CallRecord} {x : EndReason} {k : Condition} {p : Option CallRecord} (hr : s.recordOfLine n = some r)
    (hch : ∀ ch ∈ r.channel, ∃ d, s.channel ch = .connected n d r.id) (hk : ∀ q, toneFor k q = .none)
    (hhand : ∀ d ∈ r.claimant, (s.centre d).duty = .handingOver → InvIds s ∧ InvCalls s ∧ InvLines s ∧ InvDuty s)
    (hp : p = none ∧ (s.records.length < 16 ∨ s.overflow = []) ∨
      ∃ e, Promotes s r e ∧ p = some (s.promoted e (s.promotedId r))) :
    s.endCall r x k = s.ended r x { condition := k, tone := .none } p := by
  obtain ⟨hmem, hline⟩ := State.recordOfLine_some hr
  subst hline
  refine endCall_eq (line := { condition := k, tone := .none }) hch hk hp fun d hd hduty => ?_
  obtain ⟨hids, hcalls, hlines, hdut⟩ := hhand d hd hduty
  exact ⟨⟨tidy_of_inv hids hcalls hlines, hmem⟩, offered_of_calls hcalls d, not_resumes_partner hdut (by simp [hduty])⟩

end

end Sys2Proof.Proofs

/-! PROOFS. The answered recall (R43, R89, R90), and the changes of confirmed class (section 3.2). -/

namespace Sys2Proof.Proofs

open Sys2Proof Sys2Proof.Machine

section

variable {s v w : State} {i : CallId} {n : LineId} {d : Centre} {ch : ChannelId}

/-! ### The RECALL record -/

/-- The RECALL record of an answered recall, under the id that is issued (R89). -/
def recalled (v : State) (i : CallId) (n : LineId) (d : Centre) (ch : ChannelId) : CallRecord :=
  recallRecord i n d ch v.tick (v.entry n) (v.timerFromTick (v.timers.longCall * 1000))

/-- The abandoned list without the entries of a line (R97). -/
def without (v : State) (n : LineId) : List AbandonedEntry := v.abandoned.filter fun e => e.line ≠ n

/-- The register and the line with the recall answered (R43, R89, R97). -/
def recalling (v : State) (i : CallId) (n : LineId) (d : Centre) (ch : ChannelId) : State :=
  { v with
    records := v.records ++ [recalled v i n d ch]
    idCounter := nextCandidate i
    channels := v.channels.set ch (.connected n d i)
    lines := v.lines.set n { condition := .inCall, tone := .none }
    abandoned := without v n
    overflowed := v.overflowed && !(without v n).isEmpty
    orders := v.orders ++ [.makePoint ch n d] }

/-- The steps of an answered recall once the register has room (R43, R89, R97, R132). -/
def answering (v : State) (i : CallId) (n : LineId) (d : Centre) (ch : ChannelId) : State :=
  let r := recalled v i n d ch
  let s := { v.issue i with records := v.records ++ [r] }
  let s := (s.connectChannel ch n d i).enter n .inCall
  let s := if s.abandoned.any (·.line = n) then s.setAbandoned (s.abandoned.filter fun e => e.line ≠ n) else s
  s.notify d.link (.callTaken i n d)

theorem answering_eq (hnone : v.recordOfLine n = none) (htone : (v.line n).tone = .none)
    (hover : v.overflowed = true → v.abandoned ≠ []) :
    answering v i n d ch = (recalling v i n d ch).informed d.link (.callTaken i n d) := by
  let u : State := ({ v.issue i with records := v.records ++ [recalled v i n d ch] } : State).connectChannel ch n d
    i
  have hof : u.recordOfLine n = some (recalled v i n d ch) := by
    show (v.records ++ [recalled v i n d ch]).find? _ = _
    rw [List.find?_append, show v.records.find? (·.line = n) = none from hnone]
    simp [recalled, recallRecord, CallRecord.create]
  have henter : u.enter n .inCall = { u with lines := v.lines.set n { condition := .inCall, tone := .none } } := by
    rw [enter_eq, hof]
    show { u with lines := v.lines.set n { condition := .inCall, tone := .none }, orders := u.orders ++ toned u n .none } = _
    rw [toned_of_eq (s := u) htone, List.append_nil]
  have hdrop : (if v.abandoned.any (·.line = n) then State.setAbandoned { u with
          lines := v.lines.set n { condition := .inCall, tone := .none } } (without v n)
        else { u with lines := v.lines.set n { condition := .inCall, tone := .none } }) = recalling v i n d ch := by
    split
    · rfl
    · next hany =>
      have hall : without v n = v.abandoned := List.filter_eq_self.2 fun e he => by
        have : e.line ≠ n := fun h => hany (List.any_eq_true.2 ⟨e, he, by simp [h]⟩)
        simp [this]
      have hov : (v.overflowed && !v.abandoned.isEmpty) = v.overflowed := by
        cases ho : v.overflowed with
        | false => rfl
        | true => simpa using hover ho
      rw [recalling, hall, hov]
      rfl
  show State.notify (if (u.enter n .inCall).abandoned.any _ then _ else u.enter n .inCall) d.link _ = _
  rw [henter, State.notify_eq]
  exact congrArg (fun t : State => t.informed d.link (.callTaken i n d)) hdrop

/-! ### The displaced record -/

/-- The overflow entry of a displaced record (R90). -/
def entryOf (r : CallRecord) : OverflowEntry :=
  { line := r.line, arrival := r.arrival, result := if r.category = .recall then some .notReceived else r.capture }

/-- The messages of a displacement (R90). -/
def displaceTold (s : State) (r : CallRecord) : State :=
  if r.state = .held then
    match r.claimant with
    | some c => s.informed c.link (.callWithdrawn r.id r.line .displaced)
    | none => s
  else s.withdrawnAll r .displaced

theorem displaceTold_hears {r : CallRecord} (h : Hears s w) :
    Hears s (displaceTold w r) ∧ displaceTold (relinked s w) r = relinked s (displaceTold w r) := by
  unfold displaceTold
  split
  · cases r.claimant with
    | none => exact ⟨h, rfl⟩
    | some c => exact ⟨h.informed .., relinked_informed h ..⟩
  · exact relinked_withdrawnAll h

/-- The register and the lines with a record displaced (R87, R90). -/
def displacing (s : State) (r : CallRecord) : State :=
  { s with
    records := s.records.filter fun q => q.id ≠ r.id
    overflow := insertOverflow s.tick (entryOf r) s.overflow
    lines := s.lines.set r.line { condition := .queued, tone := .wait }
    orders := s.orders ++ toned s r.line .wait }

theorem displace_eq {r : CallRecord} (hheld : r.state = .held → r.origin = none) : s.displace r =
    relinked (displacing s r) ((displaceTold s r).announced (.overflow r.line (s.overflow.length + 1))) := by
  let m : State := { s with records := s.records.filter fun q => q.id ≠ r.id }
  have hms : Hears m s := ⟨rfl, fun l => by cases l <;> rfl⟩
  have htold : State.notifyOrigin (match r.state with
        | .held =>
          match r.claimant with
          | some c => m.notify c.link (.callWithdrawn r.id r.line .displaced)
          | none => m
        | _ => m.each r.offered.members fun s c => s.withdrawFrom r c .displaced) r (.callWithdrawn r.id r.line .displaced) =
      relinked m (displaceTold s r) := by
    rw [← (displaceTold_hears hms).2]
    have hwith : (m.each r.offered.members fun s c => s.withdrawFrom r c .displaced).notifyOrigin r
        (.callWithdrawn r.id r.line .displaced) = m.withdrawnAll r .displaced := withdrawnAll_eq ..
    unfold displaceTold
    cases hst : r.state with
    | held =>
      have ho := hheld hst
      cases r.claimant with
      | none => simp only [State.notifyOrigin, ho]; rfl
      | some c => simp only [State.notifyOrigin, ho, State.notify_eq]; rfl
    | identifying | waiting | offered | connected =>
      rw [if_neg (by simp)]
      exact hwith
  have hdef : s.displace r = ((State.notifyOrigin (match r.state with
        | .held =>
          match r.claimant with
          | some c => m.notify c.link (.callWithdrawn r.id r.line .displaced)
          | none => m
        | _ => m.each r.offered.members fun s c => s.withdrawFrom r c .displaced) r
        (.callWithdrawn r.id r.line .displaced)).insertEntry (entryOf r)).queueLine r.line := rfl
  rw [hdef, htold, queueLine_eq]
  have hlen : ((relinked m (displaceTold s r)).insertEntry (entryOf r)).overflow.length = s.overflow.length + 1 :=
    insertOverflow_length ..
  rw [hlen]
  exact relinked_announced (s := displacing s r) ⟨(displaceTold_hears hms).1.tick, fun l =>
    ((displaceTold_hears hms).1.lost l).trans (by cases l <;> rfl)⟩ _

end

end Sys2Proof.Proofs

/-! PROOFS. A call request, and the end of a call or of an overflow entry by a confirmed class (R35 to R37). -/

namespace Sys2Proof.Proofs

open Sys2Proof Sys2Proof.Machine

section

variable {s : State} {n : LineId} {c : LoopClass} {kind : FaultKind}

/-! ### A call request -/

/-- A line whose capture has just been started (R55). -/
def heardNow (s : State) (n : LineId) : State :=
  { s with
    captures := s.captures.set n (some
      { arrival := s.tick, window := { length := 3000, due := s.clock - s.subTick + 3000 } })
    receivers := s.receivers.set n.group (Receiver.joined (s.receiver n.group) n) }

/-- The overdue timer of a call that arrives now runs its whole length (R106). -/
theorem overdueTimerFor_now (h : 0 < s.timers.overdue) : s.overdueTimerFor s.tick = some
    { length := s.timers.overdue * 1000, due := s.clock - s.subTick + s.timers.overdue * 1000 } := by
  rw [overdueTimerFor_eq, BitVec.sub_self, if_neg (by simp only [BitVec.toNat_zero]; omega)]
  rfl

/-- A call request that finds room in the register (R35, R85). -/
theorem callRequest_room (hline : s.line n = { condition := .idle, tone := .none }) (hroom : s.records.length < 16)
    (hnone : s.recordOfLine n = none) (ho : 0 < s.timers.overdue) : s.callRequest n s.tick = { heardNow s n with
      records := s.records ++ [CallRecord.create s.nextId n s.tick (some
        { length := s.timers.overdue * 1000, due := s.clock - s.subTick + s.timers.overdue * 1000 })]
      idCounter := nextCandidate s.nextId
      lines := s.lines.set n { condition := .inCall, tone := .registered }
      orders := s.orders ++ Receiver.hearing (s.receiver n.group) n ++ [Order.tone n .registered] } := by
  rw [State.callRequest_of_room _ _ _ hroom, State.createRecord_spec, overdueTimerFor_now ho]
  generalize s.nextId = i
  let r := CallRecord.create i n s.tick (some
        { length := s.timers.overdue * 1000, due := s.clock - s.subTick + s.timers.overdue * 1000 })
  let v : State := { s with records := s.records ++ [r], idCounter := nextCandidate i }
  have hof : (v.startCapture n s.tick).recordOfLine n = some r := by
    rw [startCapture_eq]
    show (s.records ++ [r]).find? _ = _
    rw [List.find?_append, show s.records.find? (·.line = n) = none from hnone]
    simp [r, CallRecord.create]
  show (v.startCapture n s.tick).enter n .inCall = _
  rw [enter_eq, hof, startCapture_eq]
  refine congrArg (fun o : List Order => ({ heardNow s n with
      records := s.records ++ [r]
      idCounter := nextCandidate i
      lines := s.lines.set n { condition := .inCall, tone := .registered }
      orders := s.orders ++ Receiver.hearing (s.receiver n.group) n ++ o } : State)) (if_neg ?_)
  show (s.line n).tone ≠ _
  rw [hline]
  exact fun h => Tone.noConfusion h

/-- A call request that finds the register full (R35, R87). -/
theorem callRequest_full (hline : s.line n = { condition := .idle, tone := .none }) (hfull : 16 ≤ s.records.length) :
    s.callRequest n s.tick = ({ heardNow s n with
      overflow := insertOverflow s.tick { line := n, arrival := s.tick, result := none } s.overflow
      lines := s.lines.set n { condition := .queued, tone := .wait }
      orders := s.orders ++ Receiver.hearing (s.receiver n.group) n ++ [Order.tone n .wait] } : State).announced
        (.overflow n (s.overflow.length + 1)) := by
  unfold State.callRequest
  rw [if_neg (c := s.records.length < Config.registerCapacity) (Nat.not_lt.2 hfull), queueLine_eq, startCapture_eq]
  have hlen := insertOverflow_length s.tick { line := n, arrival := s.tick, result := none } s.overflow
  refine (congrArg (fun k => State.announced _ (.overflow n k)) hlen).trans ?_
  refine congrArg (fun o : List Order => State.announced { heardNow s n with
      overflow := insertOverflow s.tick { line := n, arrival := s.tick, result := none } s.overflow
      lines := s.lines.set n { condition := .queued, tone := .wait }
      orders := s.orders ++ Receiver.hearing (s.receiver n.group) n ++ o } (.overflow n (s.overflow.length + 1)))
    (if_neg ?_)
  show (s.line n).tone ≠ _
  rw [hline]
  exact fun h => Tone.noConfusion h

/-! ### A line whose overflow entry ends -/

/-- A queued line with its overflow entry abandoned under an id (R37, R93). -/
def unqueued (s : State) (n : LineId) (x : AbandonedEntry) (condition : Condition) : State :=
  { s with
    overflow := s.overflow.filter fun q => q.line ≠ n
    idCounter := nextCandidate x.id
    abandoned := abandonedWith s.abandoned x
    overflowed := s.overflowed || 16 ≤ s.abandoned.length
    lines := s.lines.set n { condition := condition, tone := .none }
    orders := s.orders ++ toned s n .none }.uncaptured n

theorem dropQueued_eq {e : OverflowEntry} {k : Condition} (h : s.overflow.find? (·.line = n) = some e)
    (hk : ∀ q, toneFor k q = .none) :
    ((s.dropOverflow n).enter n k).dropCapture n = unqueued s n (s.overflowLeft e s.nextId) k := by
  rw [dropOverflow_eq h, dropCapture_eq, enter_eq, hk]
  rfl

theorem unqueued_reported {x : AbandonedEntry} :
    (unqueued s n x (.fault kind)).notifyCondition n =
      (unqueued s n x (.fault kind)).reported n (.lineCondition n (.fault kind) (s.classifier n).leaky) := by
  obtain ⟨h1, h2, -⟩ := uncaptured_leaves { s with
    overflow := s.overflow.filter fun q => q.line ≠ n
    idCounter := nextCandidate x.id
    abandoned := abandonedWith s.abandoned x
    overflowed := s.overflowed || 16 ≤ s.abandoned.length
    lines := s.lines.set n { condition := .fault kind, tone := .none }
    orders := s.orders ++ toned s n .none } n
  have hline : (unqueued s n x (.fault kind)).line n = { condition := .fault kind, tone := .none } := by
    unfold State.line unqueued
    rw [h1]
    exact Vector.getElem_set_self n.isLt
  have hcls : (unqueued s n x (.fault kind)).classifier n = s.classifier n := by
    unfold State.classifier unqueued
    rw [h2]
  rw [notifyCondition_eq, hline, hcls]

end

end Sys2Proof.Proofs

/-! PROOFS. The answered recall (R43, R89, R90). -/

namespace Sys2Proof.Proofs

open Sys2Proof Sys2Proof.Machine

section

variable {s : State} {n : LineId} {d : Centre} {ch : ChannelId}

/-- The ringing signal of a line is removed (R43). -/
def unrung (s : State) (n : LineId) : State := { s with orders := s.orders ++ [.ring n false] }

theorem answerRecall_room (hroom : s.records.length < 16) (hnone : s.recordOfLine n = none)
    (htone : (s.line n).tone = .none) (hover : s.overflowed = true → s.abandoned ≠ []) :
    s.answerRecall n d ch = (recalling (unrung s n) s.nextId n d ch).informed d.link (.callTaken s.nextId n d) := by
  have hdef : s.answerRecall n d ch = answering (unrung s n) s.nextId n d ch := by
    unfold State.answerRecall
    dsimp only
    rw [if_pos (c := (s.give (.ring n false)).records.length < Config.registerCapacity) hroom]
    rfl
  rw [hdef]
  exact answering_eq hnone htone hover

/-- The record that a full register displaces (R90). -/
def displacedOf (s : State) : Option CallRecord :=
  ((s.registerOrder.filter (·.state.unclaimed)).getLast?).or ((s.registerOrder.filter (·.state = .held)).getLast?)

theorem displaced_eq : s.displaced = displacedOf s := by
  unfold State.displaced displacedOf
  cases (s.registerOrder.filter (·.state.unclaimed)).getLast? <;> rfl

/-- The state of the answered recall once a record has been displaced, but for the messages (R43, R89, R90). -/
def displacedFor (s : State) (v : CallRecord) (n : LineId) : State := displacing (unrung s n) v

/-- The id of the RECALL record that takes a displaced record's place (R84, R89). -/
def recallId (s : State) (v : CallRecord) : CallId :=
  issuedId ((s.records.filter fun q => q.id ≠ v.id).map (·.id) ++ s.abandoned.map (·.id)) s.idCounter

theorem nextId_displacedFor {w : State} {v : CallRecord} (h : s.idCounter ≠ 0) :
    (relinked (displacedFor s v n) w).nextId = recallId s v :=
  nextId_eq (relinked (displacedFor s v n) w) h

/-- The messages of an answered recall that displaces a record (R43, R90). -/
def recallTold (s : State) (v : CallRecord) (i : CallId) (n : LineId) (d : Centre) : State :=
  ((displaceTold s v).announced (.overflow v.line (s.overflow.length + 1))).informed d.link (.callTaken i n d)

/-- The links of a state with the same time and centres hear alike (R157). -/
theorem Hears.of_centres {t w : State} (h : Hears s w) (ht : t.tick = s.tick) (ha : t.centreA = s.centreA)
    (hb : t.centreB = s.centreB) : Hears t w := by
  refine ⟨h.tick.trans ht.symm, fun l => (h.lost l).trans ?_⟩
  have hc (c : Centre) : t.centre c = s.centre c := by cases c <;> assumption
  unfold State.isLost
  cases l.centre? with
  | none => rfl
  | some c => simp only [hc]

theorem displaceTold_unrung (v : CallRecord) :
    displaceTold (unrung s n) v = relinked (unrung s n) (displaceTold s v) :=
  (displaceTold_hears (s := unrung s n) (w := s) (r := v) ((Hears.refl s).of_centres rfl rfl rfl)).2

theorem answerRecall_full {v : CallRecord} (hfull : 16 ≤ s.records.length) (hv : displacedOf s = some v)
    (hne : v.line ≠ n) (hnone : s.recordOfLine n = none) (htone : (s.line n).tone = .none)
    (hover : s.overflowed = true → s.abandoned ≠ []) (hcount : s.idCounter ≠ 0)
    (hheld : v.state = .held → v.origin = none) :
    s.answerRecall n d ch =
      (relinked (recalling (displacedFor s v n) (recallId s v) n d ch) (recallTold s v (recallId s v) n d)).checkHandoverOf v.claimant := by
  let g := (displaceTold s v).announced (.overflow v.line (s.overflow.length + 1))
  have htold : Hears s (displaceTold s v) := (displaceTold_hears (Hears.refl s)).1
  have hdisp : (unrung s n).displace v = relinked (displacedFor s v n) g := by
    rw [displace_eq hheld, displaceTold_unrung]
    rw [relinked_announced (s := unrung s n) (htold.of_centres rfl rfl rfl)]
    rfl
  have hdef : s.answerRecall n d ch =
      (answering ((unrung s n).displace v) ((unrung s n).displace v).nextId n d ch).checkHandoverOf v.claimant := by
    have hd : (s.give (.ring n false)).displaced = some v := (displaced_eq (s := s)).trans hv
    unfold State.answerRecall
    dsimp only
    rw [if_neg (c := (s.give (.ring n false)).records.length < Config.registerCapacity) (Nat.not_lt.2 hfull), hd]
    rfl
  rw [hdef, hdisp, nextId_displacedFor hcount]
  refine congrArg (fun t : State => t.checkHandoverOf v.claimant) ?_
  have hof : (relinked (displacedFor s v n) g).recordOfLine n = none :=
    List.find?_eq_none.2 fun q hq => List.find?_eq_none.1 hnone q (List.mem_filter.1 hq).1
  have hline : (relinked (displacedFor s v n) g).line n = s.line n :=
    Vector.getElem_set_ne v.line.isLt n.isLt fun h => hne (Fin.ext h)
  have hg : Hears (recalling (displacedFor s v n) (recallId s v) n d ch) g :=
    (htold.announced _).of_centres rfl rfl rfl
  refine (answering_eq hof (hline ▸ htone) hover).trans ?_
  exact relinked_informed hg ..

/-- The calls that are left by an answered recall stand with the tones of their lines (R41, R90). -/
theorem recalling_tidy {v : CallRecord} {w : State} (h : Tidy s) (hv : v ∈ s.records)
    (hfresh : ∀ q ∈ s.records, q.id ≠ v.id → recallId s v ≠ q.id) (hnone : s.recordOfLine n = none) :
    Tidy (relinked (recalling (displacedFor s v n) (recallId s v) n d ch) w) := by
  refine Tidy.replace (q := recalled (displacedFor s v n) (recallId s v) n d ch) h hv hfresh
    (fun p hp => of_decide_eq_false (Bool.eq_false_iff.2 (List.find?_eq_none.1 hnone p hp))) rfl (fun m hm hmn => ?_) ?_
  · show ((s.lines.set v.line _).set n _)[m] = s.lines[m]
    exact (Vector.getElem_set_ne n.isLt m.isLt fun h => hmn (Fin.ext h.symm)).trans
      (Vector.getElem_set_ne v.line.isLt m.isLt fun h => hm (Fin.ext h.symm))
  · exact Vector.getElem_set_self n.isLt

/-- The id of the RECALL record is new (R84). -/
theorem recallId_fresh (h : InvIds s) (v : CallRecord) : recallId s v ≠ 0 ∧
    (∀ q ∈ s.records, q.id ≠ v.id → recallId s v ≠ q.id) ∧ ∀ q ∈ s.abandoned, recallId s v ≠ q.id := by
  obtain ⟨hlen, hab, -, -, -, -, hcount, -⟩ := h
  have hnot : recallId s v ∉ (s.records.filter fun q => q.id ≠ v.id).map (·.id) ++ s.abandoned.map (·.id) := by
    refine issuedId_not_mem s.idCounter ?_
    have := List.length_filter_le (fun q : CallRecord => decide (q.id ≠ v.id)) s.records
    have hlen : s.records.length ≤ 16 := hlen
    have hab : s.abandoned.length ≤ 16 := hab
    rw [List.length_append, List.length_map, List.length_map]
    omega
  refine ⟨issuedId_ne_zero _ hcount, fun p hp hne he => hnot ?_, fun p hp he => hnot ?_⟩
  · exact List.mem_append_left _ (List.mem_map.2 ⟨p, List.mem_filter.2 ⟨hp, by simpa using hne⟩, he.symm⟩)
  · exact List.mem_append_right _ (List.mem_map.2 ⟨p, hp, he.symm⟩)

/-- An answered recall that displaces a record, with the check of its claimant's handover (R89, R90, R123). -/
theorem answerRecall_displaces {v : CallRecord} (hids : InvIds s) (hfull : 16 ≤ s.records.length)
    (hv : displacedOf s = some v) (hmem : v ∈ s.records)
    (hne : v.line ≠ n) (hnone : s.recordOfLine n = none) (htone : (s.line n).tone = .none)
    (hheld : v.state = .held → v.origin = none)
    (hhand : ∀ c ∈ v.claimant, (s.centre c).duty = .handingOver → InvIds s ∧ InvCalls s ∧ InvLines s ∧ InvDuty s) :
    s.answerRecall n d ch =
      (relinked (recalling (displacedFor s v n) (recallId s v) n d ch) (recallTold s v (recallId s v) n d)).handoverChecked v.claimant := by
  obtain ⟨-, hfresh, -⟩ := recallId_fresh hids v
  have hcentre (w : State) (e : Centre) :
      (relinked (recalling (displacedFor s v n) (recallId s v) n d ch) w).centre e = s.centre e := by cases e <;> rfl
  obtain ⟨-, -, -, -, -, -, hcount, hover⟩ := hids
  rw [answerRecall_full hfull hv hne hnone htone hover hcount hheld]
  refine checkHandoverOf_eq _ fun c hc hduty => ?_
  rw [hcentre] at hduty
  obtain ⟨hids, hcalls, hlines, hdut⟩ := hhand c hc hduty
  refine ⟨recalling_tidy (tidy_of_inv hids hcalls hlines) hmem hfresh hnone, fun q hq ho => ?_, ?_⟩
  · rcases List.mem_append.1 hq with hq | hq
    · exact offered_of_calls hcalls c q (List.mem_filter.1 hq).1 ho
    · obtain rfl := List.mem_singleton.1 hq
      cases c <;> cases ho
  · rw [resumes, hcentre]
    exact not_resumes_partner hdut (by simp [hduty])

end

end Sys2Proof.Proofs

/-! PROOFS. O47: a confirmed class acts on its line. -/

namespace Sys2Proof.Proofs

open Sys2Proof Sys2Proof.Machine

section

variable {s : State} {n : LineId} {c : LoopClass} {kind : FaultKind}

theorem classChange_inert (h : (s.line n).condition = .notFitted ∨ (s.line n).condition = .outOfService ∨
    (s.line n).condition.isTesting = true) : s.classChange n c = s := by
  unfold State.classChange
  rcases h with h | h | h
  · rw [h]
  · rw [h]
  · cases hc : (s.line n).condition with
    | testing p => rfl
    | _ => simp [hc, Condition.isTesting] at h

/-- Off-hook on a FAULT line (R36). -/
theorem classChange_faultOffhook (h : s.line n = { condition := .fault kind, tone := .none }) :
    s.classChange n .offhook =
      ((s.setLine n { condition := .idle, tone := .none }).reported n (.faultCleared n kind)).classChange n .offhook := by
  have hc : (s.line n).condition = .fault kind := by rw [h]
  have hset : s.setCondition n .idle = s.setLine n { condition := .idle, tone := .none } := by
    unfold State.setCondition
    rw [h]
  have hline : ((s.setLine n { condition := .idle, tone := .none }).reported n (.faultCleared n kind)).line n =
      { condition := .idle, tone := .none } := (reported_line ..).trans (Vector.getElem_set_self n.isLt)
  have htick : ((s.setLine n { condition := .idle, tone := .none }).reported n (.faultCleared n kind)).tick = s.tick := by
    rw [← State.notifyLine_eq]
    obtain ⟨a, b, d, h⟩ := (s.setLine n { condition := .idle, tone := .none }).notifyLine_spec n (.faultCleared n kind)
    rw [h]
    rfl
  rw [classChange_ofFault hc, classChange_idle (congrArg LineUnit.condition hline)]
  show ((s.setCondition n .idle).notifyLine n (.faultCleared n kind)).callRequest n s.tick = State.callRequest _ n _
  rw [hset, State.notifyLine_eq, htick]

/-- The loss of a call's line, with the record that a full register promotes (R37, R88). -/
theorem classChange_ended {r : CallRecord} {p : Option CallRecord} (hcond : (s.line n).condition = .inCall)
    (hr : s.recordOfLine n = some r)
    (hch : ∀ ch ∈ r.channel, ∃ d, s.channel ch = .connected n d r.id)
    (hhand : ∀ d ∈ r.claimant, (s.centre d).duty = .handingOver → InvIds s ∧ InvCalls s ∧ InvLines s ∧ InvDuty s)
    (hp : p = none ∧ (s.records.length < 16 ∨ s.overflow = []) ∨
      ∃ e, Promotes s r e ∧ p = some (s.promoted e (s.promotedId r))) :
    s.classChange n .idle = s.ended r .callerCleared { condition := .idle, tone := .none } p ∧
    ∀ (c : LoopClass) kind, c.fault? = some kind → s.classChange n c =
      (s.ended r .lineLost { condition := .fault kind, tone := .none } p).reported n
        (.lineCondition n (.fault kind) (s.classifier n).leaky) := by
  refine ⟨?_, fun c kind hf => ?_⟩
  · rw [classChange_inCall hcond, changeInCall_idle hr, endCall_line hr hch (fun _ => rfl) hhand hp]
  · rw [classChange_inCall hcond, changeInCall_fault hr hf, endCall_line hr hch (fun _ => rfl) hhand hp]
    obtain ⟨-, rfl⟩ := State.recordOfLine_some hr
    exact ended_reported ..

theorem classChange_abandoned (r : CallRecord) {p : Option CallRecord} {t : State}
    (h : t = s.ended r .callerCleared { condition := .idle, tone := .none } p ∨
      ∃ kind, t = (s.ended r .lineLost { condition := .fault kind, tone := .none } p).reported n
        (.lineCondition n (.fault kind) (s.classifier n).leaky)) : t.abandoned = abandonedAfter s r := by
  rcases h with rfl | ⟨kind, rfl⟩
  · exact (ended_leaves ..).2.2
  · rw [← State.notifyLine_eq]
    obtain ⟨a, b, d, h⟩ := (s.ended r .lineLost { condition := .fault kind, tone := .none } p).notifyLine_spec n
      (.lineCondition n (.fault kind) (s.classifier n).leaky)
    rw [h]
    exact (ended_leaves ..).2.2

theorem unqueued_abandoned {x : AbandonedEntry} {t : State}
    (h : t = unqueued s n x .idle ∨ ∃ kind, t = (unqueued s n x (.fault kind)).reported n
      (.lineCondition n (.fault kind) (s.classifier n).leaky)) : t.abandoned = abandonedWith s.abandoned x := by
  rcases h with rfl | ⟨kind, rfl⟩
  · exact (uncaptured_leaves ..).2.2
  · rw [← State.notifyLine_eq]
    obtain ⟨a, b, d, h⟩ := (unqueued s n x (.fault kind)).notifyLine_spec n
      (.lineCondition n (.fault kind) (s.classifier n).leaky)
    rw [h]
    exact (uncaptured_leaves ..).2.2

theorem classChange_ringing {x : Centre × ChannelId} (h : (s.line n).condition.ring? = some x) :
    s.classChange n .offhook = s.answerRecall n x.1 x.2 := by
  unfold State.classChange
  cases hc : (s.line n).condition with
  | ringing t d ch => cases hc ▸ h; rfl
  | _ => rw [hc] at h; cases h

theorem displacedOf_mem {v : CallRecord} (h : displacedOf s = some v) : v ∈ s.records := by
  have hmem (q : CallRecord) (hq : q ∈ s.registerOrder) : q ∈ s.records := (mem_registerOrder s q).1 hq
  rcases Option.or_eq_some_iff.1 h with h | ⟨-, h⟩
  · exact hmem _ (List.mem_filter.1 (List.mem_of_getLast? h)).1
  · exact hmem _ (List.mem_filter.1 (List.mem_of_getLast? h)).1

/-- What the statement of O47 asks of the messages of an answered recall: they change the links alone. -/
theorem recallTold_relinked (v : CallRecord) (i : CallId) (d : Centre) :
    recallTold s v i n d = relinked s (recallTold s v i n d) := by
  obtain ⟨h1, e1⟩ := displaceTold_hears (r := v) (Hears.refl s)
  have h2 := h1.announced (.overflow v.line (s.overflow.length + 1))
  have e2 := relinked_informed h2 d.link (.callTaken i n d)
  rw [← relinked_announced h1, ← e1, relinked_self] at e2
  exact e2

/-- A handover that completes leaves the record of a claimed call as it is (R123). -/
theorem handoverChecked_last {r : CallRecord} {k : Option Centre} (hlast : s.records.getLast? = some r)
    (ho : ∀ c, r.offered.has c = false) (hs : r.state = .connected) :
    (s.handoverChecked k).records.getLast? = some r := by
  have hdue (c : Centre) : r.dueTo c = false := by rw [CallRecord.dueTo, hs]; rfl
  have hmap {rs : List CallRecord} {f : CallRecord → CallRecord} (h : rs.getLast? = some r) (hf : f r = r) :
      (rs.map f).getLast? = some r := by rw [List.getLast?_map, h]; exact congrArg some hf
  cases k with
  | none => exact hlast
  | some c =>
    unfold State.handoverChecked
    dsimp only
    split
    · unfold State.handedOver
      dsimp only
      have hmoved := hmap (f := fun q => if q.offered.has c then s.movedFrom q c else q) hlast
        (if_neg (by rw [ho]; decide))
      split
      · rw [informed_eq, State.setLink_records, State.setCentre_records]
        exact hmoved
      · unfold State.calledBack State.welcomed
        refine hmap ?_ (if_neg (by rw [hdue]; decide))
        rw [informed_eq, State.setLink_records, State.setCentre_records, informed_eq, State.setLink_records,
          State.setCentre_records]
        exact hmoved
    · exact hlast

/-- An entry of the overflow list stays before a displaced record's when it is older (R87). -/
theorem standsBefore_displaced (s : State) (v : CallRecord) : standsBefore s.tick (entryOf v) = fun q =>
    decide ((s.tick - v.arrival).toNat < (s.tick - q.arrival).toNat ∨
      (s.tick - v.arrival).toNat = (s.tick - q.arrival).toNat ∧ q.line.val ≤ v.line.val) := by
  funext q
  unfold standsBefore ticksSince
  rw [show (entryOf v).arrival = v.arrival from rfl, show (entryOf v).line = v.line from rfl, ← decide_not]
  exact decide_eq_decide.2 (by omega)

/-- The answered recall over the messages it sends (R43, R89, R90). -/
def recallMade (s : State) (v : CallRecord) (i : CallId) (n : LineId) (d : Centre) (ch : ChannelId) (m : State) : State :=
  { m with
    records := (s.records.filter fun q => q.id ≠ v.id) ++ [recalled (displacedFor s v n) i n d ch]
    overflow := s.overflow.takeWhile (standsBefore s.tick (entryOf v)) ++ [entryOf v] ++
      s.overflow.dropWhile (standsBefore s.tick (entryOf v))
    idCounter := nextCandidate i
    channels := s.channels.set ch (.connected n d i)
    lines := (s.lines.set v.line { condition := .queued, tone := .wait }).set n { condition := .inCall, tone := .none }
    abandoned := without s n
    overflowed := s.overflowed && !(without s n).isEmpty
    orders := s.orders ++ [Order.ring n false] ++ toned s v.line .wait ++ [.makePoint ch n d] }

theorem relinked_recalling {v : CallRecord} {d : Centre} {ch : ChannelId} {m : State} (i : CallId)
    (hm : m = relinked s m) :
    relinked (recalling (displacedFor s v n) i n d ch) m = recallMade s v i n d ch m := by
  have h : relinked (recalling (displacedFor s v n) i n d ch) m = recallMade s v i n d ch (relinked s m) := by
    rw [recallMade, ← insertOverflow_eq]
    rfl
  exact h.trans (congrArg (recallMade s v i n d ch) hm.symm)

end

/-- Settles O47, by the condition of the line: a call request, the end of a call or of an overflow entry, and an
answered recall each in their closed form. -/
theorem confirmedClassActsOnLine : Obligations.ConfirmedClassActsOnLine := by
  intro s n c u t heard hears quiet next handing
  refine ⟨classChange_inert, fun kind hu hc => ?_, fun hu hc hroom hnone ho hids => ?_, fun hu hc hfull => ?_,
    fun r hr hcond hch hhand => ?_, fun e he hcond hids hc => ?_, fun x hx htone hc hnone hids => ?_⟩
  · subst hc
    exact classChange_faultOffhook hu
  · subst hc
    have hcond : (s.line n).condition = .idle := congrArg LineUnit.condition hu
    have ht : t = _ := (classChange_idle hcond).trans (callRequest_room hu hroom hnone ho)
    obtain ⟨hid, h0, hr, ha⟩ := nextId_fresh hids
    rw [ht]
    exact ⟨_, List.getLast?_concat .., rfl, rfl, rfl, h0, hr, ha, hid, rfl⟩
  · subst hc
    have hcond : (s.line n).condition = .idle := congrArg LineUnit.condition hu
    intro older entry
    have hstands : standsBefore s.tick entry = older := funext fun q => standsBefore_now s n q
    have ht : t = _ := (classChange_idle hcond).trans (callRequest_full hu hfull)
    rw [ht, insertOverflow_eq, hstands]
    rfl
  · intro idle lost
    refine ⟨fun hroom => ?_, ?_⟩
    · obtain ⟨h1, h2⟩ := classChange_ended hcond hr hch hhand (.inl ⟨rfl, hroom⟩)
      exact ⟨fun hc => (congrArg _ hc).trans h1, fun kind hf => h2 c kind hf⟩
    · intro e he hfull hids hne hnone hc new
      obtain ⟨f0, f1, f2⟩ := promotedId_fresh hids r
      obtain ⟨-, -, -, -, -, -, hcount, -⟩ := hids
      obtain ⟨h1, h2⟩ := classChange_ended hcond hr hch hhand
        (.inr ⟨e, ⟨List.eq_cons_of_mem_head? he, hfull, (State.recordOfLine_some hr).2 ▸ hne, hnone, hcount, f1⟩, rfl⟩)
      have hab : t.abandoned = abandonedAfter s r := by
        refine classChange_abandoned (n := n) r (p := some (s.promoted e new)) (hc.imp (fun hc => ?_) fun hf => ?_)
        · exact (congrArg _ hc).trans h1
        · obtain ⟨kind, hf⟩ := Option.isSome_iff_exists.1 hf
          exact ⟨kind, h2 c kind hf⟩
      exact ⟨f0, f1, fun p hp => f2 p (hab ▸ hp), fun hc => (congrArg _ hc).trans h1, fun kind hf => h2 c kind hf⟩
  · let x := s.overflowLeft e s.nextId
    have hidle : c = .idle → t = unqueued s n x .idle := fun hc =>
      (classChange_queued hcond).trans (hc ▸ dropQueued_eq he fun _ => rfl)
    have hfault : ∀ kind, c.fault? = some kind → t = (unqueued s n x (.fault kind)).reported n
        (.lineCondition n (.fault kind) (s.classifier n).leaky) := fun kind hf => by
      rw [← unqueued_reported, ← dropQueued_eq (k := .fault kind) he fun _ => rfl]
      exact (classChange_queued hcond).trans (changeQueued_fault hf)
    obtain ⟨hid, h0, hr, ha⟩ := nextId_fresh hids
    have hab : t.abandoned = abandonedWith s.abandoned x := unqueued_abandoned (hc.imp hidle fun hf =>
      (Option.isSome_iff_exists.1 hf).imp fun kind hf => hfault kind hf)
    exact ⟨x, (congrArg List.getLast? hab).trans (abandonedWith_getLast ..), h0, hr, ha, hid, rfl, hidle, hfault⟩
  · subst hc
    obtain ⟨d, ch⟩ := x
    have hring : (s.line n).condition.ring? = some (d, ch) := hx
    have ht : t = _ := classChange_ringing hring
    dsimp only at ht
    intro kept isRecall
    refine ⟨fun hroom => ?_, ?_⟩
    · obtain ⟨hid, h0, hr, ha⟩ := nextId_fresh hids
      obtain ⟨-, -, -, -, -, -, -, hover⟩ := hids
      rw [ht, answerRecall_room hroom hnone htone hover]
      generalize s.nextId = i at *
      refine ⟨recalled (unrung s n) i n d ch, ?_, ⟨h0, hr, ha, hid, rfl⟩, ?_⟩
      · rw [informed_eq, State.setLink_records]
        exact List.getLast?_concat ..
      · refine congrArg (fun t : State => t.informed d.link (.callTaken i n d)) ?_
        show recalling (unrung s n) i n d ch = _
        rw [recalling, show (unrung s n).orders = s.orders ++ [.ring n false] from rfl, List.append_assoc]
        rfl
    · intro v hv hfull hne hof hhand hheld others gone entry before
      obtain ⟨h0, hr, ha⟩ := recallId_fresh hids v
      have hrec := ht.trans (answerRecall_displaces (d := d) (ch := ch) hids hfull hv (displacedOf_mem hv) hne hnone
        htone hheld hhand)
      have hid : recallId s v = next others := rfl
      have hfresh : ∀ q ∈ others, q.id ≠ recallId s v := fun q hq he => by
        obtain ⟨hq, hne⟩ := List.mem_filter.1 hq
        exact hr q hq (of_decide_eq_true hne) he.symm
      generalize recallId s v = i at *
      refine ⟨recalled (displacedFor s v n) i n d ch, ?_, ⟨h0, hfresh, fun q hq he => ha q hq he.symm, hid, rfl⟩, ?_⟩
      · rw [hrec]
        exact handoverChecked_last (List.getLast?_concat ..) (fun c => by cases c <;> rfl) rfl
      · intro made
        rw [hrec]
        refine congrArg (fun t : State => t.handoverChecked v.claimant) ?_
        have hbefore : standsBefore s.tick (entryOf v) = before := standsBefore_displaced s v
        have h := relinked_recalling (v := v) (n := n) (d := d) (ch := ch) i (recallTold_relinked (s := s) (n := n) v i d)
        rw [recallMade, hbefore] at h
        exact h

end Sys2Proof.Proofs

/-! PROOFS. The warm restart block by block (R16, R32, R51, R54, R102, R135, R148, R166). -/

namespace Sys2Proof.Proofs

open Sys2Proof Sys2Proof.Machine

section

variable {s : State}

/-- Two steps that agree where an invariant holds fold alike. -/
theorem foldl_agree {α β : Type} {f g : β → α → β} {P : β → Prop} (hfg : ∀ t x, P t → f t x = g t x)
    (hP : ∀ t x, P t → P (g t x)) (xs : List α) {b : β} (h : P b) : xs.foldl f b = xs.foldl g b := by
  induction xs generalizing b with
  | nil => rfl
  | cons x xs ih => rw [List.foldl_cons, List.foldl_cons, hfg b x h, ih (hP b x h)]

/-! ### The channels -/

/-- Records free their channels one after another: channels and orders alone differ (R135). -/
theorem foldl_freeHeld (rs : List CallRecord) (s : State) :
    ∃ cs os, rs.foldl (fun s r => s.freeHeld r.channel) s = { s with channels := cs, orders := os } := by
  induction rs generalizing s with
  | nil => exact ⟨s.channels, s.orders, rfl⟩
  | cons r rs ih =>
    rw [List.foldl_cons]
    cases r.channel with
    | none => exact ih s
    | some ch =>
      obtain ⟨o, ho⟩ := s.freeChannel_spec ch
      obtain ⟨cs, os, h⟩ := ih (s.freeChannel ch)
      refine ⟨cs, os, h.trans ?_⟩
      rw [ho]

theorem foldl_freeChannel (xs : List ChannelId) (s : State) :
    ∃ cs os, xs.foldl State.freeChannel s = { s with channels := cs, orders := os } ∧
      ∀ ch : ChannelId, (ch ∈ xs ∨ s.channel ch = .free) → cs[ch] = .free := by
  induction xs generalizing s with
  | nil => exact ⟨s.channels, s.orders, rfl, fun ch h => h.resolve_left (by simp)⟩
  | cons x xs ih =>
    obtain ⟨o, ho⟩ := s.freeChannel_spec x
    obtain ⟨cs, os, h, hfree⟩ := ih (s.freeChannel x)
    refine ⟨cs, os, (List.foldl_cons ..).trans (h.trans (by rw [ho])), fun ch hch => hfree ch ?_⟩
    by_cases hx : ch = x
    · right
      rw [ho, hx]
      exact Vector.getElem_set_self x.isLt
    · refine hch.imp (fun h => (List.mem_cons.1 h).resolve_left hx) fun h => ?_
      rw [ho]
      exact (Vector.getElem_set_ne x.isLt ch.isLt fun e => hx (Fin.ext e.symm)).trans h

/-- Every channel is freed (R135). -/
theorem foldl_freeChannels (s : State) :
    ∃ os, (List.finRange 6).foldl State.freeChannel s = { s with channels := .replicate 6 .free, orders := os } := by
  obtain ⟨cs, os, h, hfree⟩ := foldl_freeChannel (List.finRange 6) s
  have hcs : cs = .replicate 6 .free := Vector.ext fun k hk => by
    rw [Vector.getElem_replicate]
    exact hfree ⟨k, hk⟩ (.inl (List.mem_finRange _))
  exact ⟨os, hcs ▸ h⟩

/-! ### The abandoned list -/

theorem foldl_abandonedWith_length (xs : List AbandonedEntry) (a : List AbandonedEntry) (h : a.length ≤ 16) :
    (xs.foldl abandonedWith a).length = min 16 (a.length + xs.length) := by
  induction xs generalizing a with
  | nil => simpa using h
  | cons x xs ih =>
    have hlen : (abandonedWith a x).length = min 16 (a.length + 1) := by
      unfold abandonedWith
      split <;> simp <;> omega
    rw [List.foldl_cons, ih _ (by omega), hlen, List.length_cons]
    omega

/-- Calls enter the abandoned list one after another (R95, R102). -/
theorem foldl_addAbandoned (xs : List AbandonedEntry) (s : State) :
    ∃ a o, xs.foldl State.addAbandoned s = { s with abandoned := a, overflowed := o } ∧
      (s.abandoned.length ≤ 16 → a = xs.foldl abandonedWith s.abandoned ∧
        o = (s.overflowed || decide (16 < s.abandoned.length + xs.length))) := by
  induction xs generalizing s with
  | nil =>
    refine ⟨s.abandoned, s.overflowed, rfl, fun h => ⟨rfl, ?_⟩⟩
    rw [List.length_nil, Nat.add_zero, decide_eq_false (Nat.not_lt.2 h), Bool.or_false]
  | cons x xs ih =>
    obtain ⟨a, o, h, hao⟩ := ih (s.addAbandoned x)
    rw [addAbandoned_eq] at h hao
    refine ⟨a, o, (List.foldl_cons ..).trans ((congrArg (List.foldl _ · xs) (addAbandoned_eq s x)).trans h), fun hlen => ?_⟩
    have hw := foldl_abandonedWith_length [x] s.abandoned hlen
    simp only [List.foldl_cons, List.foldl_nil, List.length_singleton] at hw
    obtain ⟨ha, ho⟩ := hao (by rw [hw]; omega)
    refine ⟨ha, ho.trans ?_⟩
    dsimp only
    rw [hw, List.length_cons, Bool.or_assoc, ← Bool.decide_or]
    exact congrArg _ (decide_eq_decide.2 (by omega))

/-- One overflow entry enters the abandoned list under a new id (R93, R94). -/
def entered (s : State) (x : List AbandonedEntry × CallId) (e : OverflowEntry) : List AbandonedEntry × CallId :=
  let id := issuedId (x.1.map (·.id)) x.2
  (abandonedWith x.1 (s.overflowLeft e id), if id = 255 then 1 else id + 1)

theorem abandonOverflow_eq (s : State) (e : OverflowEntry) : s.abandonOverflow e =
    { s with
      idCounter := nextCandidate s.nextId
      abandoned := abandonedWith s.abandoned (s.overflowLeft e s.nextId)
      overflowed := s.overflowed || decide (16 ≤ s.abandoned.length) } := by
  unfold State.abandonOverflow
  dsimp only
  rw [addAbandoned_eq, overflowLeft_eq]
  rfl

/-- The overflow entries enter the abandoned list one after another (R93 to R95). -/
theorem foldl_abandonOverflow (xs : List OverflowEntry) (s : State) :
    ∃ i a o, xs.foldl State.abandonOverflow s = { s with idCounter := i, abandoned := a, overflowed := o } ∧
      (s.records = [] → s.idCounter ≠ 0 → s.abandoned.length ≤ 16 →
        a = (xs.foldl (entered s) (s.abandoned, s.idCounter)).1 ∧
        o = (s.overflowed || decide (16 < s.abandoned.length + xs.length))) := by
  induction xs generalizing s with
  | nil =>
    refine ⟨s.idCounter, s.abandoned, s.overflowed, rfl, fun _ _ h => ⟨rfl, ?_⟩⟩
    rw [List.length_nil, Nat.add_zero, decide_eq_false (Nat.not_lt.2 h), Bool.or_false]
  | cons x xs ih =>
    obtain ⟨i, a, o, h, hao⟩ := ih (s.abandonOverflow x)
    rw [abandonOverflow_eq] at h hao
    refine ⟨i, a, o, (List.foldl_cons ..).trans ((congrArg (List.foldl _ · xs) (abandonOverflow_eq s x)).trans h),
      fun hrec hcount hlen => ?_⟩
    have hid : s.nextId = issuedId (s.abandoned.map (·.id)) s.idCounter := by
      rw [nextId_eq s hcount, hrec]
      rfl
    have h0 : s.nextId ≠ 0 := hid ▸ issuedId_ne_zero _ hcount
    have hw := foldl_abandonedWith_length [s.overflowLeft x s.nextId] s.abandoned hlen
    simp only [List.foldl_cons, List.foldl_nil, List.length_singleton] at hw
    obtain ⟨ha, ho⟩ := hao hrec (nextCandidate_ne h0) (by rw [hw]; omega)
    refine ⟨ha.trans ?_, ho.trans ?_⟩
    · rw [List.foldl_cons, entered, ← hid]
      rfl
    · dsimp only
      rw [hw, List.length_cons, Bool.or_assoc, ← Bool.decide_or]
      exact congrArg _ (decide_eq_decide.2 (by omega))

/-! ### The register -/

/-- The calls that a warm restart abandons, in register order (R102). -/
def leftCalls (s : State) : List AbandonedEntry := (s.registerOrder.filter (·.state.unclaimed)).map s.leftBehind

/-- The abandoned list of a warm restart before its ticks are rebased (R102). -/
def abandonedAtRestart (s : State) : List AbandonedEntry :=
  (s.overflow.foldl (entered s) ((leftCalls s).foldl abandonedWith s.abandoned, s.idCounter)).1

/-- The call register and the channels of a warm restart (R102, R135). -/
theorem restartRegister_eq (s : State) : ∃ os a o, s.restartRegister =
    { s with
      orders := os, records := [], overflow := [], abandoned := a, overflowed := o, idCounter := 1
      channels := .replicate 6 .free } ∧
    (InvIds s →
      o = (s.overflowed || decide (16 < s.abandoned.length + (leftCalls s).length + s.overflow.length)) ∧
      a = (abandonedAtRestart s).map fun e => { e with arrival := e.arrival - s.tick, ended := e.ended - s.tick }) := by
  obtain ⟨cs, os, h1⟩ := foldl_freeHeld s.registerOrder s
  obtain ⟨os', h2⟩ := foldl_freeChannels { s with channels := cs, orders := os }
  let s2 : State := { s with channels := .replicate 6 .free, orders := os', records := [] }
  have h3 : (s.registerOrder.filter (·.state.unclaimed)).foldl
      (fun s r => s.addAbandoned (abandonedOfRecord r s.tick)) s2 = (leftCalls s).foldl State.addAbandoned s2 := by
    rw [leftCalls, List.foldl_map]
    refine foldl_agree (P := fun t : State => t.tick = s.tick) (fun t r ht => ?_) (fun t r ht => ?_) _ rfl
    · rw [ht]; rfl
    · rw [addAbandoned_eq]; exact ht
  obtain ⟨a3, o3, h4, hao3⟩ := foldl_addAbandoned (leftCalls s) s2
  let s4 : State := { s2 with abandoned := a3, overflowed := o3, overflow := [] }
  obtain ⟨i, a5, o5, h5, hao5⟩ := foldl_abandonOverflow s.overflow s4
  have hdef : s.restartRegister = { s4 with
      abandoned := a5.map (·.rebase s.tick), overflowed := o5, idCounter := 1 } := by
    unfold State.restartRegister State.each
    dsimp only
    rw [h1, h2, h3, h4]
    dsimp only
    rw [h5]
  refine ⟨os', a5.map (·.rebase s.tick), o5, hdef, fun hids => ?_⟩
  obtain ⟨-, hab, -, -, -, -, hcount, -⟩ := hids
  have hab : s.abandoned.length ≤ 16 := hab
  obtain ⟨ha3, ho3⟩ := hao3 hab
  have hlen : a3.length = min 16 (s.abandoned.length + (leftCalls s).length) := by
    rw [ha3]
    exact foldl_abandonedWith_length _ _ hab
  obtain ⟨ha5, ho5⟩ := hao5 rfl hcount (by rw [hlen]; omega)
  refine ⟨ho5.trans ?_, congrArg (List.map _) (ha5.trans ?_)⟩
  · show (o3 || decide (16 < a3.length + _)) = _
    rw [ho3, hlen, show s2.abandoned = s.abandoned from rfl, Bool.or_assoc, ← Bool.decide_or]
    exact congrArg _ (decide_eq_decide.2 (by omega))
  · show (s.overflow.foldl (entered s) (a3, s.idCounter)).1 = _
    rw [ha3]
    rfl

end

end Sys2Proof.Proofs

/-! PROOFS. The state that a warm restart leaves (R16, R32, R174, R175). -/

namespace Sys2Proof.Proofs

open Sys2Proof Sys2Proof.Machine

section

variable {s : State} {g : GroupId}

/-! ### The tests -/

theorem restartTests_eq (s : State) : ∃ os, s.restartTests = { s with tests := .replicate 8 none, orders := os } := by
  have h (xs : List GroupId) : ∀ s : State, ∃ os, s.each xs (fun s g => match s.test g with
      | some t => s.restoreDrives t
      | none => s) = { s with orders := os } := by
    induction xs with
    | nil => exact fun s => ⟨s.orders, rfl⟩
    | cons g xs ih =>
      intro s
      have hstep : ∃ os, (match s.test g with
          | some t => s.restoreDrives t
          | none => s) = { s with orders := os } := by
        cases s.test g with
        | none => exact ⟨s.orders, rfl⟩
        | some t => exact ⟨_, restoreDrives_eq t⟩
      obtain ⟨os, hos⟩ := hstep
      obtain ⟨os', h⟩ := ih { s with orders := os }
      exact ⟨os', (congrArg (State.each · xs _) hos).trans h⟩
  obtain ⟨os, hos⟩ := h (List.finRange 8) s
  exact ⟨os, congrArg (fun t : State => { t with tests := .replicate 8 none }) hos⟩

/-! ### The groups -/

/-- A group whose scanner starts anew: its first pass begins on a free port, and a group with a busy port or with no
fitted line is left as it is (R16). -/
def Regrouped (r q : GroupRecord) : Prop :=
  ((r.fitted = 0 ∨ r.port ≠ none) → q = r) ∧
  (r.fitted ≠ 0 → r.port = none → q.placed = some .feed ∧
    q = { r with pass := .inPass, passTimer := q.passTimer, restartPass := false, port := q.port, scanWaiting := none })

theorem startsAnew (htest : s.test g = none) (hw : (s.group g).scanWaiting = none) :
    ∃ q os, (if (s.group g).port.isNone then (s.startPass g).arbitrate g else s) =
      { s with groups := s.groups.set g q, orders := os } ∧ Regrouped (s.group g) q := by
  have hself : s.groups.set g (s.group g) = s.groups := Vector.set_getElem_self g.isLt
  cases hp : (s.group g).port with
  | some o =>
    refine ⟨s.group g, s.orders, ?_, fun _ => rfl, fun _ h => absurd (hp.symm.trans h) (by simp)⟩
    rw [hself]
    rfl
  | none =>
    rw [if_pos (c := (none : Option PlacedOrder).isNone = true) rfl]
    by_cases hf : (s.group g).fitted = 0
    · refine ⟨s.group g, s.orders, ?_, fun _ => rfl, fun h => absurd hf h⟩
      rw [startPass_of_unfitted hf, State.arbitrate_idle s g (by simp [htest]) hw, hself]
    · have hport : (s.passBegun g).port = none := hp
      refine ⟨{ s.passBegun g with port := some (s.newOrder g (.scanner .feed)), scanWaiting := none },
        s.orders ++ [.measure g ScanPurpose.feed.target.1 ScanPurpose.feed.target.2], ?_,
        fun h => absurd hp (h.resolve_left hf), fun _ _ => ⟨rfl, rfl⟩⟩
      rw [startPass_of_fitted hf]
      exact arbitrate_setGroup_scanner hport rfl (by simp [htest]) rfl

theorem foldl_startsAnew (xs : List GroupId) (hxs : xs.Nodup) (s : State) (htests : s.tests = .replicate 8 none)
    (hw : ∀ g ∈ xs, (s.group g).scanWaiting = none) :
    ∃ gs os, s.each xs (fun s g => if (s.group g).port.isNone then (s.startPass g).arbitrate g else s) =
      { s with groups := gs, orders := os } ∧
      (∀ g ∈ xs, Regrouped (s.group g) gs[g]) ∧ ∀ g : GroupId, g ∉ xs → gs[g] = s.group g := by
  induction xs generalizing s with
  | nil => exact ⟨s.groups, s.orders, rfl, by simp, fun _ _ => rfl⟩
  | cons x xs ih =>
    obtain ⟨hx, hxs⟩ := List.nodup_cons.1 hxs
    have htest : s.test x = none := by
      rw [State.test, htests]
      exact Vector.getElem_replicate ..
    obtain ⟨q, os, hq, hre⟩ := startsAnew htest (hw x (List.mem_cons_self ..))
    have hother (g : GroupId) (hg : g ≠ x) :
        State.group { s with groups := s.groups.set x q, orders := os } g = s.group g :=
      Vector.getElem_set_ne x.isLt g.isLt fun h => hg (Fin.ext h.symm)
    obtain ⟨gs, os', h, hin, hout⟩ := ih hxs { s with groups := s.groups.set x q, orders := os } htests fun g hg => by
      rw [hother g fun h => hx (h ▸ hg)]
      exact hw g (List.mem_cons_of_mem _ hg)
    refine ⟨gs, os', (congrArg (State.each · xs _) hq).trans h, fun g hg => ?_, fun g hg => ?_⟩
    · rcases List.mem_cons.1 hg with rfl | hg
      · rw [hout g hx]
        exact (set_group s g q).symm ▸ hre
      · rw [← hother g fun h => hx (h ▸ hg)]
        exact hin g hg
    · rw [hout g fun h => hg (List.mem_cons_of_mem _ h)]
      exact hother g fun h => hg (h ▸ List.mem_cons_self ..)

theorem restartGroups_eq (s : State) (htests : s.tests = .replicate 8 none) :
    ∃ gs os, s.restartGroups = { s with groups := gs, orders := os } ∧
      ∀ g : GroupId, Regrouped (s.group g).restarted gs[g] := by
  let a : State := { s with groups := .ofFn fun g => (s.group g).restarted }
  have hg (g : GroupId) : a.group g = (s.group g).restarted := Vector.getElem_ofFn ..
  obtain ⟨gs, os, h, hin, -⟩ := foldl_startsAnew (List.finRange 8) (List.nodup_finRange 8) a htests fun g _ => by
    rw [hg]
    rfl
  exact ⟨gs, os, h, fun g => hg g ▸ hin g (List.mem_finRange _)⟩

/-! ### The whole restart -/

/-- What a warm restart makes of a state (R174, R175). -/
structure Restarted (s t : State) : Prop where
  keeps : t = { s with
    orders := t.orders, window := none, tick := 0, subTick := 0, records := [], overflow := []
    abandoned := t.abandoned, overflowed := t.overflowed, idCounter := 1
    channels := .replicate 6 .free, tests := .replicate 8 none, captures := .replicate 64 none
    receivers := .replicate 8 { listening := none, waiting := [] }
    groups := t.groups, lines := t.lines, classifiers := t.classifiers
    linkA := t.linkA, linkB := t.linkB, linkS := t.linkS
    centreA := t.centreA, centreB := t.centreB }
  links : ∀ k, t.link k = .restarted
  centres : ∀ c, t.centre c = .initial s.clock
  lines : ∀ n, t.line n = { condition := s.conditionFromDirectory n, tone := .none }
  classifiers : ∀ n, t.classifier n = .reset (s.profileOf n).term
  groups : ∀ g, Regrouped (s.group g).restarted (t.group g)
  abandons : InvIds s →
    t.overflowed = (s.overflowed || decide (16 < s.abandoned.length + (leftCalls s).length + s.overflow.length)) ∧
    t.abandoned = (abandonedAtRestart s).map fun e =>
      { e with arrival := e.arrival - s.tick, ended := e.ended - s.tick }

theorem restarted_warmRestart (s : State) : Restarted s s.warmRestart := by
  obtain ⟨o1, a, o, h1, hids⟩ := restartRegister_eq { s with window := none }
  obtain ⟨o2, h2⟩ := restartTests_eq ({ s with window := none } : State).restartRegister
  let w : State := ({ s with window := none } : State).restartRegister.restartTests.restartLines.restartReceivers
  obtain ⟨gs, o3, h3, hgs⟩ := restartGroups_eq w (by
    show (({ s with window := none } : State).restartRegister.restartTests).tests = _
    rw [h2])
  have hw : w = { s with
      window := none, records := [], overflow := [], abandoned := a, overflowed := o, idCounter := 1
      channels := .replicate 6 .free, tests := .replicate 8 none, captures := .replicate 64 none
      receivers := .replicate 8 { listening := none, waiting := [] }, orders := w.orders
      lines := .ofFn fun n => { condition := s.conditionFromDirectory n, tone := .none }
      classifiers := .ofFn fun n => .reset (s.profileOf n).term } := by
    show State.restartReceivers (State.restartLines _) = { s with
      window := none, records := [], overflow := [], abandoned := a, overflowed := o, idCounter := 1
      channels := .replicate 6 .free, tests := .replicate 8 none, captures := .replicate 64 none
      receivers := .replicate 8 { listening := none, waiting := [] }
      orders := (State.restartReceivers (State.restartLines _)).orders
      lines := .ofFn fun n => { condition := s.conditionFromDirectory n, tone := .none }
      classifiers := .ofFn fun n => .reset (s.profileOf n).term }
    rw [h2, h1]
    rfl
  have hdef : s.warmRestart = { w.restartGroups.restartLinks with tick := 0, subTick := 0 } := rfl
  rw [hdef, h3]
  clear_value w
  generalize w.orders = o4 at hw
  subst hw
  refine ⟨rfl, fun k => by cases k <;> rfl, fun c => by cases c <;> rfl, fun n => Vector.getElem_ofFn ..,
    fun n => Vector.getElem_ofFn .., hgs, fun h => hids h⟩

end

end Sys2Proof.Proofs

/-! PROOFS. O34: the end of the restart window is the warm restart (R165, R174, R175). -/

namespace Sys2Proof.Proofs

open Sys2Proof Sys2Proof.Machine

section

variable {s x y t : State} {l : Link} {c : Centre}

/-- Two states that differ in what a warm restart clears at the links alone (R166). -/
def Apart (s y : State) : Prop :=
  ∃ a b d p q w os, y =
    { s with linkA := a, linkB := b, linkS := d, centreA := p, centreB := q, window := w, orders := os }

theorem Apart.fresh (s : State) (os : List Order) : Apart s { s with orders := os } :=
  ⟨s.linkA, s.linkB, s.linkS, s.centreA, s.centreB, s.window, os, rfl⟩

theorem Apart.setLink (h : Apart s y) (l : Link) (k : LinkController) : Apart s (y.setLink l k) := by
  obtain ⟨a, b, d, p, q, w, os, rfl⟩ := h
  cases l
  · exact ⟨k, b, d, p, q, w, os, rfl⟩
  · exact ⟨a, k, d, p, q, w, os, rfl⟩
  · exact ⟨a, b, k, p, q, w, os, rfl⟩

theorem Apart.setCentre (h : Apart s y) (c : Centre) (k : CentreControl) : Apart s (y.setCentre c k) := by
  obtain ⟨a, b, d, p, q, w, os, rfl⟩ := h
  cases c
  · exact ⟨a, b, d, k, q, w, os, rfl⟩
  · exact ⟨a, b, d, p, k, w, os, rfl⟩

theorem Apart.setWindow (h : Apart s y) (w : Option Link) : Apart s { y with window := w } := by
  obtain ⟨a, b, d, p, q, -, os, rfl⟩ := h
  exact ⟨a, b, d, p, q, w, os, rfl⟩

theorem Apart.restarted (h : Apart s y) : Restarted s y.warmRestart := by
  obtain ⟨a, b, d, p, q, w, os, rfl⟩ := h
  obtain ⟨h1, h2, h3, h4, h5, h6, h7⟩ := restarted_warmRestart
    { s with linkA := a, linkB := b, linkS := d, centreA := p, centreB := q, window := w, orders := os }
  exact ⟨h1, h2, h3, h4, h5, h6, h7⟩

/-! ### What ends the window -/

/-- The reply of RESTART ends its transmission, or is cut (R159, R165). -/
theorem restarts_afterTransmission (hy : Apart s y) (hw : y.window = some l) :
    ∃ z, y.afterTransmission l restartReply = z.warmRestart ∧ Apart s z :=
  ⟨y, if_pos ⟨hw, rfl⟩, hy⟩

theorem restarts_linkClear (hy : Apart s y) (hw : y.window = some l)
    (ht : (y.link l).transmit.message? = some restartReply) : ∃ z, y.linkClear l = z.warmRestart ∧ Apart s z := by
  unfold State.linkClear
  dsimp only
  rw [ht]
  exact restarts_afterTransmission (hy.setLink ..) ((State.setLink_window ..).trans hw)

/-- The link is lost (R154, R165). -/
theorem restarts_enterLost (hy : Apart s y) (hw : y.window = some c.link) (hl : (y.centre c).health ≠ .lost) :
    ∃ z, y.enterLost c = z.warmRestart ∧ Apart s z := by
  let z := y.setCentre c { y.centre c with score := Config.lostScore, health := .lost, recovery := 0, silence := none }
  have hw : (z.setLink c.link (z.link c.link).emptied).window = some c.link := by
    rw [State.setLink_window, State.setCentre_window]
    exact hw
  exact ⟨z.setLink c.link (z.link c.link).emptied, (if_neg hl).trans (if_pos hw), (hy.setCentre ..).setLink ..⟩

theorem restarts_badFrame (hy : Apart s y) (hw : y.window = some c.link) (hl : (y.centre c).health ≠ .lost)
    (hscore : 256 ≤ (y.centre c).score + 8) : ∃ z, y.badFrame c = z.warmRestart ∧ Apart s z := by
  unfold State.badFrame
  dsimp only
  rw [if_neg hl, if_pos (c := Config.lostScore ≤ (y.centre c).score + Config.badFrameCost) hscore]
  exact restarts_enterLost hy hw hl

/-- A reply to a queue full of replies is discarded, and the transmitter goes on (R158). -/
theorem enqueue_discarded {k : LinkController} (now : Tick) (hlen : k.queue.length = 8) (hcls : ∀ m ∈ k.queue, m.msg.cls = 0)
    (hbusy : k.transmit ≠ .idle) : (k.enqueue restartReply false).pump now =
      { k with submissions := k.submissions + 1, resync := true } := by
  have hne : k.queue ≠ [] := fun h => by rw [h] at hlen; cases hlen
  have hlast := List.getLast?_eq_some_getLast hne
  generalize k.queue.getLast hne = last at hlast
  have h0 := hcls last (List.mem_of_getLast? hlast)
  have hp : k.enqueue restartReply false = { k with submissions := k.submissions + 1, resync := true } := by
    refine (place_of_full restartReply false (by omega) hlast).trans (if_neg ?_)
    rw [h0]
    exact Nat.not_lt_zero _
  rw [hp]
  exact pump_of_busy now hbusy

/-- RESTART whose reply is discarded (R165). -/
theorem restarts_takeRestart (hlen : (s.link l).queue.length = 8) (hcls : ∀ m ∈ (s.link l).queue, m.msg.cls = 0)
    (hbusy : (s.link l).transmit ≠ .idle) (hno : (s.link l).holdsRestartReply = false) :
    ∃ z, s.takeRestart l = z.warmRestart ∧ Apart s z := by
  refine ⟨_, ?_, ((Apart.fresh s s.orders).setLink l ((( s.link l).enqueue restartReply false).pump s.tick)).setWindow
    (some l)⟩
  have hreply : s.reply l Command.restart .ok [] =
      s.setLink l (((s.link l).enqueue restartReply false).pump s.tick) := State.reply_eq ..
  unfold State.takeRestart
  dsimp only
  rw [hreply]
  refine if_neg ?_
  have hk : State.link { s.setLink l (((s.link l).enqueue restartReply false).pump s.tick) with window := some l } l =
      { s.link l with submissions := (s.link l).submissions + 1, resync := true } := by
    rw [← enqueue_discarded s.tick hlen hcls hbusy]
    cases l <;> rfl
  rw [hk, Bool.not_eq_true]
  exact hno

/-- The order that a warm restart leaves on a port is the scanner's no more (R16). -/
theorem placed_restarted (p : GroupRecord) : p.restarted.placed = none := by
  unfold GroupRecord.placed
  rw [show p.restarted.port = p.port.map fun o => { o with fate := .stale } from rfl]
  cases p.port with
  | none => rfl
  | some o =>
    dsimp only [Option.map]
    cases o.owner <;> rfl

/-- A group as O34 tells it (R16). -/
theorem regrouped_meets {p r : GroupRecord} (h : Regrouped p.restarted r) :
    r.fitted = p.fitted ∧ r.settle = p.settle ∧ r.pathCheck = p.pathCheck ∧ r.health = .scanning ∧ r.vf = none ∧
    r.noSampleRun = 0 ∧ r.discrepancyRun = 0 ∧ r.agreementRun = 0 ∧ r.checkPos = 0 ∧ r.probeCount = 0 ∧
    r.probeDelay = none ∧
    (p.fitted = 0 → r.pass = .stopped ∧ r.ordering = false ∧ r.restartPass = false) ∧
    (p.fitted ≠ 0 → p.port = none → r.pass = .inPass ∧ r.placed = some .feed) ∧
    (p.fitted ≠ 0 → p.port ≠ none → r.pass = .stopped ∧ r.ordering = false ∧ r.restartPass = true) := by
  obtain ⟨hstill, hpass⟩ := h
  have hport : p.restarted.port = none ↔ p.port = none := Option.map_eq_none_iff
  have hquiet : p.restarted.ordering = false := congrArg Option.isSome (placed_restarted p)
  by_cases hf : p.fitted = 0
  · obtain rfl := hstill (.inl hf)
    refine ⟨rfl, rfl, rfl, rfl, rfl, rfl, rfl, rfl, rfl, rfl, rfl, fun _ => ⟨rfl, hquiet, ?_⟩, fun h => absurd hf h,
      fun h => absurd hf h⟩
    simp [GroupRecord.restarted, hf]
  · by_cases hp : p.port = none
    · obtain ⟨h1, h2⟩ := hpass hf (hport.2 hp)
      rw [h2]
      exact ⟨rfl, rfl, rfl, rfl, rfl, rfl, rfl, rfl, rfl, rfl, rfl, fun h => absurd h hf, fun _ _ => ⟨rfl, h1⟩,
        fun _ h => absurd hp h⟩
    · obtain rfl := hstill (.inr fun h => hp (hport.1 h))
      refine ⟨rfl, rfl, rfl, rfl, rfl, rfl, rfl, rfl, rfl, rfl, rfl, fun h => absurd h hf, fun _ h => absurd h hp,
        fun _ _ => ⟨rfl, hquiet, ?_⟩⟩
      obtain ⟨o, ho⟩ := Option.ne_none_iff_exists'.1 hp
      have hv : p.fitted.val ≠ 0 := fun h => hf (Fin.ext h)
      simp [GroupRecord.restarted, ho, hv]

end

/-- The end of the window by whatever ends it: the state that restarts differs at the links alone (R165). -/
theorem restarts_exec {x s : State} {l : Link} {e : Instr} {frame bytes : List Byte}
    (h : s = x ∧ x.window = some l ∧ (x.link l).transmit = .sending (.reply Command.restart .ok []) frame ∧
        (e = .transmissionComplete l ∨ e = .breakEnd l ∧ (x.link l).receive = .brk false) ∨
      s = x ∧ x.window = some l ∧ (x.link l).holdsRestartReply = true ∧
        (∃ c ∈ l.centre?, (x.centre c).health ≠ .lost ∧
          (e = .silenceTimerExpiry c ∧ (x.centre c).silence.isSome = true ∨
            e = .breakLong c ∧ (x.link l).receive = .brk false ∨
            (e = .frameTimerExpiry l ∧ (x.link l).receive.inFrame = true ∨
              e = .frameBad l bytes ∧ judgeFrame bytes = .bad ∧ (x.link l).receive.inBreak = false) ∧
              256 ≤ (x.centre c).score + 8)) ∨
      s = x.heard l ∧ e = .restart l [] ∧ x.admits l Command.restart .configure ∧
        (s.link l).queue.length = 8 ∧ (∀ m ∈ (s.link l).queue, m.msg.cls = 0) ∧
        (s.link l).transmit ≠ .idle ∧ (s.link l).holdsRestartReply = false) :
    ∃ z, exec e x = .next z.warmRestart ∧ Apart s z := by
  let b : State := { x with orders := [] }
  have hb : Apart x b := .fresh x []
  have hlink (k : Link) : b.link k = x.link k := by cases k <;> rfl
  have hcen (c : Centre) : b.centre c = x.centre c := by cases c <;> rfl
  have of {t : State} (he : exec e x = .next t) (ht : ∃ z, t = z.warmRestart ∧ Apart s z) :
      ∃ z, exec e x = .next z.warmRestart ∧ Apart s z := by
    obtain ⟨z, rfl, hz⟩ := ht
    exact ⟨z, he, hz⟩
  rcases h with ⟨rfl, hw, ht, he⟩ | ⟨rfl, hw, -, c, hc, hl, he⟩ | ⟨rfl, rfl, had, hlen, hcls, hbusy, hno⟩
  · rcases he with rfl | ⟨rfl, hr⟩
    · refine of (t := (b.setLink l { b.link l with transmit := .idle }).afterTransmission l restartReply) ?_
        (restarts_afterTransmission (hb.setLink ..) ((State.setLink_window ..).trans hw))
      dsimp only [exec, execTransmissionComplete, State.taking_eq]
      rw [show (State.link { s with orders := [] } l).transmit = .sending restartReply frame by rw [hlink, ht]; rfl]
    · refine of (exec_breakEnd ..) ?_
      rw [hr]
      exact restarts_linkClear (hb.setLink ..) ((State.setLink_window ..).trans hw)
        (by rw [State.setReceive, State.setLink_link, if_pos rfl, hlink, ht]; rfl)
  · obtain rfl : l = c.link := by cases l <;> cases hc <;> rfl
    rcases he with ⟨rfl, hs⟩ | ⟨rfl, hr⟩ | ⟨he, hscore⟩
    · refine of (t := b.enterLost c) ?_ (restarts_enterLost hb hw (by rw [hcen]; exact hl))
      dsimp only [exec, execSilenceTimerExpiry, State.taking_eq]
      rw [hcen, hs]
      rfl
    · refine of (t := (b.setReceive c.link (.brk true)).enterLost c) ?_ (restarts_enterLost (hb.setLink ..)
        ((State.setLink_window ..).trans hw) (by rw [State.setReceive, State.setLink_centre, hcen]; exact hl))
      dsimp only [exec, execBreakLong, State.taking_eq]
      rw [hlink, hr]
    · refine of (exec_dropped he.symm) ?_
      rw [State.dropBadFrame, onCentre_link]
      exact restarts_badFrame (hb.setLink ..) ((State.setLink_window ..).trans hw)
        (by rw [State.setReceive, State.setLink_centre, hcen]; exact hl)
        (by rw [State.setReceive, State.setLink_centre, hcen]; exact hscore)
  · exact of (taking_command had () _) (restarts_takeRestart hlen hcls hbusy hno)

/-- Settles O34, block by block. -/
theorem warmRestartClearsLiveState : Obligations.WarmRestartClearsLiveState := by
  intro x s l e frame bytes h
  obtain ⟨z, he, hz⟩ := restarts_exec h
  obtain ⟨h1, h2, h3, h4, h5, h6, h7⟩ := hz.restarted
  exact ⟨_, he, h1, h2, h3, h4, h5, fun g => regrouped_meets (h6 g), h7⟩

end Sys2Proof.Proofs

/-! PROOFS. Operations on the calls that neither see the lines, the orders and the channels, nor change who claims a
call (R105 to R124). -/

namespace Sys2Proof.Proofs

open Sys2Proof Sys2Proof.Machine

/-! ### States without lines -/

/-- The state without its lines, orders and channels. -/
def bare (s : State) : State :=
  { s with
    lines := .replicate 64 { condition := .notFitted, tone := .none }, orders := [], channels := .replicate 6 .free }

/-- Who claims each record and on which channel. -/
def claimOf (r : CallRecord) : CallId × Option Centre × Option ChannelId := (r.id, r.claimant, r.channel)

/-- The conditions of the lines, the channels, and the claims of the records. -/
def claims (s : State) : (LineId → Condition) × Vector Channel 6 × List (CallId × Option Centre × Option ChannelId) :=
  (fun n => (s.line n).condition, s.channels, s.records.map claimOf)

/-- An operation that does not see the lines, the orders and the channels, and keeps the claims. -/
structure Blind (f : State → State) : Prop where
  bared : ∀ s, bare (f s) = f (bare s)
  keeps : ∀ s, claims (f s) = claims s

namespace Blind

variable {f g : State → State} {F : State → CallRecord → State}

theorem id : Blind fun s => s := ⟨fun _ => rfl, fun _ => rfl⟩

theorem comp (hg : Blind g) (hf : Blind f) : Blind fun s => g (f s) :=
  ⟨fun s => (hg.bared _).trans (congrArg g (hf.bared s)), fun s => (hg.keeps _).trans (hf.keeps s)⟩

theorem ite {p : State → Prop} [∀ s, Decidable (p s)] (hp : ∀ s, p (bare s) ↔ p s) (hf : Blind f) (hg : Blind g) :
    Blind fun s => if p s then f s else g s := by
  refine ⟨fun s => ?_, fun s => ?_⟩
  · by_cases h : p s
    · rw [if_pos h, if_pos ((hp s).2 h), hf.bared]
    · rw [if_neg h, if_neg (mt (hp s).1 h), hg.bared]
  · split
    · exact hf.keeps s
    · exact hg.keeps s

theorem byId (id : CallId) (hF : ∀ r, Blind (F · r)) (hg : Blind g) :
    Blind fun s => match s.recordById id with | some r => F s r | none => g s := by
  refine ⟨fun s => ?_, fun s => ?_⟩
  · rw [show (bare s).recordById id = s.recordById id from rfl]
    cases s.recordById id with
    | none => exact hg.bared s
    | some r => exact (hF r).bared s
  · cases s.recordById id with
    | none => exact hg.keeps s
    | some r => exact (hF r).keeps s

theorem each {α : Type} {F : State → α → State} (xs : List α) (hF : ∀ x, Blind (F · x)) : Blind fun s => s.each xs F := by
  induction xs with
  | nil => exact id
  | cons x xs ih => exact ih.comp (hF x)

theorem eachRecord (hF : ∀ r, Blind (F · r)) : Blind fun s => s.eachRecord F :=
  ⟨fun s => (each _ fun x => byId x hF id).bared s, fun s => (each _ fun x => byId x hF id).keeps s⟩

theorem setCentre (c : Centre) (k : State → CentreControl) (hk : ∀ s, k (bare s) = k s) :
    Blind fun s => s.setCentre c (k s) :=
  ⟨fun s => by rw [hk]; cases c <;> rfl, fun s => by cases c <;> rfl⟩

theorem setDuty (c : Centre) (d : Duty) : Blind fun s => s.setDuty c d :=
  setCentre c (fun s => { s.centre c with duty := d }) fun s => by cases c <;> rfl

theorem setLink (l : Link) (k : State → LinkController) (hk : ∀ s, k (bare s) = k s) :
    Blind fun s => s.setLink l (k s) :=
  ⟨fun s => by rw [hk]; cases l <;> rfl, fun s => by cases l <;> rfl⟩

theorem isLost_bare (s : State) (l : Link) : (bare s).isLost l = s.isLost l := by cases l <;> rfl

theorem link_bare (s : State) (l : Link) : (bare s).link l = s.link l := by cases l <;> rfl

theorem centre_bare (s : State) (c : Centre) : (bare s).centre c = s.centre c := by cases c <;> rfl

theorem usable_bare (s : State) (c : Centre) : (bare s).usable c = s.usable c := by
  rw [State.usable, centre_bare, State.usable]

theorem notify (l : Link) (n : Notice) : Blind fun s => s.notify l n := by
  have h := setLink l (fun s => Proofs.hearing s l n) fun s => by
    rw [Proofs.hearing, Proofs.hearing, isLost_bare, link_bare]
    rfl
  have he : (fun s : State => s.notify l n) = fun s => s.setLink l (Proofs.hearing s l n) :=
    funext fun s => (State.notify_eq s l n).trans (informed_eq (s := s) l n)
  exact he ▸ h

theorem updRecord (id : CallId) (f : State → CallRecord → CallRecord) (hf : ∀ s, f (bare s) = f s)
    (hk : ∀ s r, claimOf (f s r) = claimOf r) : Blind fun s => s.updRecord id (f s) := by
  refine ⟨fun s => by rw [hf]; rfl, fun s => ?_⟩
  have h : (s.updRecord id (f s)).records.map claimOf = s.records.map claimOf := by
    show (s.records.map fun r => if r.id = id then f s r else r).map claimOf = _
    rw [List.map_map]
    refine List.map_congr_left fun r _ => ?_
    dsimp only [Function.comp_apply]
    split
    · exact hk s r
    · rfl
  exact congrArg (fun x => ((fun n => (s.line n).condition), s.channels, x)) h

/-- A line that is not fitted has no tone to change (R41). -/
theorem retone_bare (s : State) (n : LineId) : (bare s).retone n = bare s := by
  have hu : (bare s).line n = { condition := .notFitted, tone := .none } := Vector.getElem_replicate ..
  unfold State.retone
  dsimp only
  rw [hu]
  exact if_pos rfl

theorem retone (n : LineId) : Blind fun s => s.retone n := by
  refine ⟨fun s => ?_, fun s => ?_⟩
  · rw [retone_bare, retone_eq]
    rfl
  · rw [retone_eq]
    refine congrArg (fun x => (x, s.channels, s.records.map claimOf)) (funext fun m => ?_)
    show ((s.lines.set n _)[m]).condition = _
    rw [Fin.getElem_fin, Vector.getElem_set]
    split
    · next h => rw [← Fin.ext h]
    · rfl

theorem placeOffer (id : CallId) (c : Centre) : Blind fun s => s.placeOffer id c :=
  byId id (fun r => notify c.link (.callOffer (offerOf r))) Blind.id

theorem offerTo (id : CallId) (c : Centre) : Blind fun s => s.offerTo id c :=
  byId id (fun r => (retone r.line).comp ((placeOffer id c).comp
    (updRecord id (fun s q => q.offeredTo c (s.group r.line.group).health) (fun _ => rfl) fun _ _ => rfl))) Blind.id

theorem startOffer (id : CallId) : Blind fun s => s.startOffer id :=
  updRecord id (fun s r => { r with firstOffer := some s.tick, escalation := some (s.timer (s.timers.escalate * 1000)) })
    (fun _ => rfl) fun _ _ => rfl

theorem offerOrWait (id : CallId) (c : Centre) : Blind fun s => s.offerOrWait id c :=
  ite (fun s => by rw [usable_bare]) (offerTo id c) (byId id (fun r => (retone r.line).comp
    (updRecord id (fun _ r => { r with state := .waiting, offered := .empty }) (fun _ => rfl) fun _ _ => rfl)) Blind.id)

theorem offerOnUsable (c : Centre) (r : CallRecord) : Blind fun s => s.offerOnUsable c r := by
  unfold State.offerOnUsable
  cases r.state with
  | waiting => exact (ite (p := fun _ : State => r.firstOffer.isNone && !r.claimedOnce) (fun _ => .rfl) (startOffer r.id) Blind.id).comp (offerTo r.id c)
  | offered => exact ite (fun _ => .rfl) (offerTo r.id c) Blind.id
  | identifying | connected | held => exact Blind.id

theorem becomeUsable (c : Centre) : Blind fun s => s.becomeUsable c := eachRecord (offerOnUsable c)

theorem fallback : Blind State.fallback :=
  ite (fun s => by rw [usable_bare, usable_bare]) Blind.id
    (each _ fun c => ite (fun s => by rw [centre_bare]) ((becomeUsable c).comp ((notify c.link .dutyResumed).comp
      (setDuty c .active))) Blind.id)

theorem loseDuty (lost : Centre) : Blind fun s => s.loseDuty lost :=
  (ite (p := fun s : State => (s.centre lost.partner).duty = .handingOver) (fun s => by rw [centre_bare])
    ((ite (p := fun s : State => s.usable lost.partner) (fun s => by rw [usable_bare]) (becomeUsable lost.partner)
      Blind.id).comp ((notify lost.partner.link .handoverCancelled).comp (setDuty lost.partner .active))) Blind.id).comp
    (ite (p := fun s : State => (s.centre lost).duty = .handingOver) (fun s => by rw [centre_bare])
      (setDuty lost .standby) Blind.id)

theorem transferTimedOut (r : CallRecord) : Blind fun s => s.transferTimedOut r := by
  unfold State.transferTimedOut
  cases r.origin with
  | none => exact Blind.id
  | some o => exact ite (fun s => by rw [centre_bare]) (offerTo r.id o) Blind.id

theorem loseOffer (r : CallRecord) (lost : Centre) : Blind fun s => s.loseOffer r lost := by
  have hleave : Blind fun s => s.updRecord r.id fun r => { r with offered := r.offered.remove lost } :=
    updRecord r.id (fun _ r => { r with offered := r.offered.remove lost }) (fun _ => rfl) fun _ _ => rfl
  have hout : Blind fun s => s.updRecord r.id fun r => { r with transferTimer := none } :=
    updRecord r.id (fun _ r => { r with transferTimer := none }) (fun _ => rfl) fun _ _ => rfl
  have htimes : Blind fun s : State => if r.origin = some lost.partner then
      let s := s.updRecord r.id fun r => { r with transferTimer := none }
      match s.recordById r.id with
      | some r => s.transferTimedOut r
      | none => s
    else s :=
    ite (fun _ => .rfl) ((byId r.id transferTimedOut Blind.id).comp hout) Blind.id
  exact (byId r.id (F := fun s q => if q.offered = .empty then s.offerOrWait q.id lost.partner else s)
    (fun q => ite (fun _ => .rfl) (offerOrWait q.id lost.partner) Blind.id) Blind.id).comp (htimes.comp hleave)

theorem loseUnclaimed (r : CallRecord) (lost : Centre) : Blind fun s => s.loseUnclaimed r lost := by
  have hout : Blind fun s => s.updRecord r.id fun r =>
      { r with origin := none, transferTimer := none, flags := { r.flags with orphan := true } } :=
    updRecord r.id (fun _ r => { r with origin := none, transferTimer := none, flags := { r.flags with orphan := true } })
      (fun _ => rfl) fun _ _ => rfl
  exact (ite (p := fun _ : State => r.origin = some lost) (fun _ => .rfl) ((retone r.line).comp
    (ite (p := fun _ : State => r.offered.has lost.partner) (fun _ => .rfl) (placeOffer r.id lost.partner) Blind.id)) Blind.id).comp
      ((ite (p := fun _ : State => r.offered.has lost) (fun _ => .rfl) (loseOffer r lost) Blind.id).comp
        (ite (p := fun _ : State => r.origin = some lost) (fun _ => .rfl) hout Blind.id))

end Blind

end Sys2Proof.Proofs

/-! PROOFS. The calls of a link that is lost, in a state without lines (R119 to R121). -/

namespace Sys2Proof.Proofs

open Sys2Proof Sys2Proof.Machine

section

variable {s u w : State} {rs : List CallRecord} {r q : CallRecord} {c d : Centre}

/-! ### The loss of a link does not see the lines -/

theorem bare_freeChannel (s : State) (ch : ChannelId) :
    bare (s.freeChannel ch) = bare s ∧ bare ((bare s).freeChannel ch) = bare s := by
  obtain ⟨o, ho⟩ := s.freeChannel_spec ch
  obtain ⟨p, hp⟩ := (bare s).freeChannel_spec ch
  rw [ho, hp]
  exact ⟨rfl, rfl⟩

theorem freeChannel_bare {s : State} (h : s.channels = .replicate 6 .free) (ch : ChannelId) : s.freeChannel ch = s := by
  have hc : s.channel ch = .free := by
    rw [State.channel, h]
    exact Vector.getElem_replicate ..
  unfold State.freeChannel
  rw [hc]
  show { s with channels := s.channels.set ch .free } = s
  rw [← hc]
  exact congrArg (fun x => { s with channels := x }) (Vector.set_getElem_self ch.isLt)

theorem freeHeld_bare {s : State} (h : s.channels = .replicate 6 .free) (o : Option ChannelId) : s.freeHeld o = s := by
  cases o with
  | none => rfl
  | some ch => exact freeChannel_bare h ch

theorem bare_freeHeld (s : State) (o : Option ChannelId) : bare (s.freeHeld o) = bare s := by
  cases o with
  | none => rfl
  | some ch => exact (bare_freeChannel s ch).1

theorem bare_orphan (s : State) (r : CallRecord) (lost : Centre) : bare (s.orphan r lost) = (bare s).orphan r lost := by
  unfold State.orphan
  dsimp only
  rw [(Blind.offerOrWait r.id lost.partner).bared, freeHeld_bare (s := bare s) rfl, ← bare_freeHeld s r.channel]
  rfl

theorem bare_eachRecord {F : State → CallRecord → State} (hF : ∀ s r, bare (F s r) = F (bare s) r) (s : State) :
    bare (s.eachRecord F) = (bare s).eachRecord F := by
  have all (xs : List CallId) (s : State) : bare (xs.foldl (turnOf F) s) = xs.foldl (turnOf F) (bare s) := by
    induction xs generalizing s with
    | nil => rfl
    | cons x xs ih =>
      have hx : bare (turnOf F s x) = turnOf F (bare s) x := by
        unfold turnOf
        rw [show (bare s).recordById x = s.recordById x from rfl]
        cases s.recordById x with
        | none => rfl
        | some r => exact hF s r
      rw [List.foldl_cons, List.foldl_cons, ih, hx]
  exact all _ s

/-- Rings are of the lines and the channels alone (R46). -/
theorem bare_cancelRings (s : State) (c : Centre) : bare (s.cancelRings c) = bare s ∧ (bare s).cancelRings c = bare s := by
  constructor
  · refine State.each_keeps (fun t => bare t = bare s) _ (fun u n hu => ?_) _ _ rfl
    split
    · split
      · rw [← hu, State.stopRing, enter_eq]
        show bare ((u.give (.ring n false)).freeChannel _) = bare u
        rw [(bare_freeChannel _ _).1]
        rfl
      · exact hu
    · exact hu
  · refine State.each_keeps (fun t => t = bare s) _ (fun u n hu => ?_) _ _ rfl
    subst hu
    have hn : (bare s).line n = { condition := .notFitted, tone := .none } := Vector.getElem_replicate ..
    rw [hn]

theorem bare_lossOfLink (s : State) (c : Centre) : bare (s.lossOfLink c) = (bare s).lossOfLink c := by
  have hclaimed := bare_eachRecord (F := fun s r => if r.claimant = some c then s.orphan r c else s) fun s r => by
    split
    · exact bare_orphan s r c
    · rfl
  have hothers := bare_eachRecord (F := fun s r => if r.state.unclaimed then s.loseUnclaimed r c else s) fun s r => by
    split
    · exact (Blind.loseUnclaimed r c).bared s
    · rfl
  unfold State.lossOfLink
  dsimp only
  rw [hothers, hclaimed, Blind.fallback.bared, (Blind.loseDuty c).bared, (bare_cancelRings s c).1, (bare_cancelRings s c).2]

/-! ### The order of some of the records -/

/-- The records that a property picks stand in register order as they do without the change of the others (R83). -/
theorem registerOrder_filter_map {s t : State} {φ : CallRecord → CallRecord} {p : CallRecord → Bool}
    (hlines : (s.records.map (·.line)).Nodup) (hline : ∀ r, (φ r).line = r.line) (ht : t.tick = s.tick)
    (hr : t.records = s.records.map φ)
    (hkey : ∀ r ∈ s.records, p (φ r) = true → registerKey s.tick (φ r) = registerKey s.tick r) :
    t.registerOrder.filter p = (s.registerOrder.filter fun r => p (φ r)).map φ := by
  have hlt : t.registerOrder.Pairwise fun r q => registerKey s.tick r < registerKey s.tick q := by
    rw [← ht]
    refine registerOrder_pairwise_lt ?_
    rw [hr, List.map_map, show (·.line) ∘ φ = (·.line) from funext hline]
    exact hlines
  have hperm : (t.registerOrder.filter p).Perm ((s.registerOrder.filter fun r => p (φ r)).map φ) := by
    refine ((registerOrder_perm t).filter p).trans ?_
    rw [hr, List.filter_map]
    exact (((registerOrder_perm s).filter _).map φ).symm
  refine List.Perm.eq_of_pairwise (le := fun r q => registerKey s.tick r < registerKey s.tick q)
    (fun a b _ _ hab hba => absurd (hab.trans hba) (lt_irrefl _)) (hlt.filter p) ?_ hperm
  refine List.pairwise_map.2 (((registerOrder_pairwise_lt hlines).filter _).imp_of_mem fun {a b} ha hb hab => ?_)
  have key {x : CallRecord} (hx : x ∈ s.registerOrder.filter fun r => p (φ r)) :
      registerKey s.tick (φ x) = registerKey s.tick x := by
    obtain ⟨hx, hp⟩ := List.mem_filter.1 hx
    exact hkey x ((mem_registerOrder s x).1 hx) hp
  rw [key ha, key hb]
  exact hab

/-! ### States without lines -/

/-- A state whose lines, orders and channels are those of a bare one, with no id and no line twice in the register. -/
structure Plain (u : State) : Prop where
  ids : (u.records.map (·.id)).Nodup
  lines : (u.records.map (·.line)).Nodup
  bare : bare u = u

theorem Plain.toned (h : Plain u) (n : LineId) (r : CallRecord) : Toned (u.line n) r := by
  have hn : u.line n = { condition := .notFitted, tone := .none } := by
    rw [← h.bare]
    exact Vector.getElem_replicate ..
  rw [hn]
  rfl

theorem Plain.tidy (h : Plain u) : Tidy u := ⟨h.ids, h.lines, fun r _ => h.toned r.line r⟩

theorem Plain.channels (h : Plain u) : u.channels = .replicate 6 .free := by rw [← h.bare]; rfl

theorem linked_usable (h : Linked u w) (c : Centre) : w.usable c = u.usable c := by
  obtain ⟨a, b, rfl⟩ := h
  cases c <;> rfl

theorem linked_centre (h : Linked u w) (c : Centre) : w.centre c = u.centre c := by
  obtain ⟨a, b, rfl⟩ := h
  cases c <;> rfl

theorem holding_usable (w : State) (rs : List CallRecord) (c : Centre) : (holding w rs).usable c = w.usable c := by
  cases c <;> rfl

theorem holding_centre (w : State) (rs : List CallRecord) (c : Centre) : (holding w rs).centre c = w.centre c := by
  cases c <;> rfl

/-- A record in its turn waits, with no link offered it (R120, R121). -/
def waitingOf (r : CallRecord) : CallRecord := { r with state := .waiting, offered := .empty }

theorem Turn.offerOrWait (h : Turn u w rs r) (hp : Plain u) : (holding w rs).offerOrWait r.id c =
    if u.usable c then holding (w.informed c.link (.callOffer (offerOf (offeredBy u r c)))) (put rs (offeredBy u r c))
    else holding w (put rs (waitingOf r)) := by
  unfold State.offerOrWait
  rw [holding_usable, linked_usable h.linked]
  split
  · exact h.offerTo_toned (hp.toned ..)
  · rw [show (holding w rs).recordById r.id = some r from h.byId]
    dsimp only
    rw [h.updRecord (fun r => { r with state := .waiting, offered := .empty }) rfl]
    exact (h.become (q := waitingOf r) rfl rfl (hp.toned ..)).retone

/-! ### The calls that the lost link claimed -/

/-- A record that the lost link claimed, out of its hands (R120). -/
def unclaimedOf (r : CallRecord) : CallRecord :=
  { r with
    claimant := none, channel := none, longTimer := none, longWaits := false, offered := .empty
    flags := { r.flags with orphan := true } }

theorem asOffered_of_ne (s : State) {r : CallRecord} (hs : r.state ≠ .waiting) (c : Centre) : s.asOffered r c = offeredBy s r c := by
  simp [State.asOffered, hs, offeredBy, CallRecord.offeredTo]

theorem Turn.orphan (h : Turn u w rs r) (hp : Plain u) (hs : r.state ≠ .waiting)
    (hu : u.usable c.partner = (u.centre c.partner).health.heard) :
    (holding w rs).orphan r c = holding
      (if (u.centre c.partner).health.heard then
        w.informed c.partner.link (.callOffer (offerOf (u.orphaned r c))) else w) (put rs (u.orphaned r c)) := by
  have hw : (holding w rs).channels = .replicate 6 .free := by
    obtain ⟨a, b, rfl⟩ := h.linked
    exact hp.channels
  have hleft : Turn u w (put rs (unclaimedOf r)) (unclaimedOf r) := h.become rfl rfl (hp.toned ..)
  have hdef : (holding w rs).orphan r c =
      ((holding w rs).updRecord r.id unclaimedOf).offerOrWait r.id c.partner := by
    unfold State.orphan
    rw [freeHeld_bare hw]
    rfl
  rw [hdef, h.updRecord unclaimedOf rfl]
  refine (hleft.offerOrWait hp).trans ?_
  rw [hu]
  unfold State.orphaned
  dsimp only
  split
  · rw [show ({ r with
        claimant := none, channel := none, longTimer := none, longWaits := false, offered := .empty
        flags := { r.flags with orphan := true } } : CallRecord) = unclaimedOf r from rfl,
      asOffered_of_ne u (r := unclaimedOf r) hs, put_put (by rfl)]
  · rw [put_put (by rfl)]
    rfl

theorem orphaned_keeps (u : State) (r : CallRecord) (c : Centre) :
    (u.orphaned r c).id = r.id ∧ (u.orphaned r c).line = r.line := by
  unfold State.orphaned
  dsimp only
  split <;> exact ⟨rfl, rfl⟩

/-- The offers of the records that the lost link claimed (R120). -/
def orphanOffers (u : State) (c : Centre) : List CallRecord :=
  if (u.centre c.partner).health.heard then
    (u.registerOrder.filter fun r => r.claimant = some c).map (u.orphaned · c) else []

theorem orphans_eq (hp : Plain u) (hu : u.usable c.partner = (u.centre c.partner).health.heard)
    (hs : ∀ r ∈ u.records, r.claimant = some c → r.state ≠ .waiting) :
    u.eachRecord (fun s r => if r.claimant = some c then s.orphan r c else s) =
      holding (u.offeredAll c.partner.link (orphanOffers u c))
        (u.records.map fun r => if r.claimant = some c then u.orphaned r c else r) := by
  refine (eachRecord_eq (φ := fun r => if r.claimant = some c then u.orphaned r c else r)
    (ψ := fun w r => if decide (r.claimant = some c) && (u.centre c.partner).health.heard then
      w.informed c.partner.link (.callOffer (offerOf (u.orphaned r c))) else w) hp.tidy
    (fun r => by split; exact (orphaned_keeps ..).1; rfl) (fun r => by split; exact (orphaned_keeps ..).2; rfl)
    fun w rs r hr turn => ⟨?_, ?_⟩).trans ?_
  · split
    · exact turn.linked.informed ..
    · exact turn.linked
  · by_cases hc : r.claimant = some c
    · rw [if_pos hc, if_pos hc, turn.orphan hp (hs r hr hc) hu, decide_eq_true hc, Bool.true_and]
    · rw [if_neg hc, if_neg hc, decide_eq_false hc, Bool.false_and, put_self turn.alone]
      rfl
  · rw [foldl_offers u c.partner.link _ (u.orphaned · c), orphanOffers]
    refine congrArg (fun x => holding (u.offeredAll c.partner.link x) _) ?_
    cases (u.centre c.partner).health.heard with
    | true => simp
    | false => simp

end

end Sys2Proof.Proofs

/-! PROOFS. The unclaimed calls at the loss of a link, in a state without lines (R119, R121). -/

namespace Sys2Proof.Proofs

open Sys2Proof Sys2Proof.Machine

section

variable {s u w : State} {rs : List CallRecord} {r q : CallRecord} {c : Centre}

/-- A record whose transfer origin is the lost link (R121). -/
def originLost (r : CallRecord) : CallRecord :=
  { r with origin := none, transferTimer := none, flags := { r.flags with orphan := true } }

/-- The partner of the lost link takes a record back whose transfer so times out, or is heard (R119, R121). -/
def takesBack (u : State) (r : CallRecord) (c : Centre) : Bool :=
  (u.centre c.partner).health.heard ||
    (decide (r.origin = some c.partner) && decide ((u.centre c.partner).health ≠ .lost) &&
      decide ((u.centre c.partner).duty ≠ .standby))

/-- A record out of the lost link's offers (R121). -/
def outOf (r : CallRecord) (c : Centre) : CallRecord :=
  { r with
    offered := r.offered.remove c
    transferTimer := if decide (r.origin = some c.partner) then none else r.transferTimer }

/-- A record that was offered to the lost link (R121). -/
def lostOffer (u : State) (r : CallRecord) (c : Centre) : CallRecord :=
  if r.offered.has c.partner then outOf r c
  else if takesBack u r c then u.asOffered (outOf r c) c.partner
  else { outOf r c with state := .waiting }

/-- A record whose transfer origin is not the lost link any more (R121). -/
def disowned (r : CallRecord) (c : Centre) : CallRecord := if r.origin = some c then originLost r else r

theorem bereft_eq (u : State) (r : CallRecord) (c : Centre) : u.bereft r c =
    if (disowned r c).offered.has c then lostOffer u (disowned r c) c else disowned r c := rfl

theorem disowned_keeps (r : CallRecord) (c : Centre) : (disowned r c).id = r.id ∧ (disowned r c).line = r.line ∧
    (disowned r c).offered = r.offered ∧ (disowned r c).state = r.state ∧
    ((disowned r c).origin = some c.partner ↔ r.origin = some c.partner) := by
  unfold disowned
  split
  · next h =>
    refine ⟨rfl, rfl, rfl, rfl, ⟨fun e => (by cases e), fun e => ?_⟩⟩
    exact absurd (Option.some.inj (h.symm.trans e)) (by cases c <;> decide)
  · exact ⟨rfl, rfl, rfl, rfl, .rfl⟩

theorem lostOffer_keeps (u : State) (r : CallRecord) (c : Centre) :
    (lostOffer u r c).id = r.id ∧ (lostOffer u r c).line = r.line := by
  unfold lostOffer
  split
  · exact ⟨rfl, rfl⟩
  · split <;> exact ⟨rfl, rfl⟩

theorem bereft_keeps (u : State) (r : CallRecord) (c : Centre) :
    (u.bereft r c).id = r.id ∧ (u.bereft r c).line = r.line := by
  obtain ⟨h1, h2, -⟩ := disowned_keeps r c
  rw [bereft_eq]
  split
  · exact ⟨(lostOffer_keeps ..).1.trans h1, (lostOffer_keeps ..).2.trans h2⟩
  · exact ⟨h1, h2⟩

theorem outOf_empty (h : r.offered.has c.partner = false) : (outOf r c).offered = .empty := remove_empty h

theorem has_add (x : CentreSet) (d : Centre) : (x.add d).has d = true := by cases d <;> rfl

theorem not_empty_of_has {x : CentreSet} {d : Centre} (h : x.has d = true) : x ≠ .empty := fun e => by
  rw [e] at h
  cases d <;> cases h

/-- A record whose offered set is empty goes to the partner or waits (R121). -/
def rehomed (v : State) (id : CallId) (c : Centre) : State :=
  match v.recordById id with
  | some r => if r.offered = .empty then v.offerOrWait r.id c.partner else v
  | none => v

theorem loseOffer_eq (s : State) (r : CallRecord) (c : Centre) : s.loseOffer r c =
    (let out := s.updRecord r.id fun r => { r with offered := r.offered.remove c }
     rehomed (if r.origin = some c.partner then
       (let out := out.updRecord r.id fun r => { r with transferTimer := none }
        match out.recordById r.id with
        | some r => out.transferTimedOut r
        | none => out)
       else out) r.id c) := rfl

theorem Turn.rehomed_full (h : Turn u w rs q) (ho : q.offered.has c.partner = true) :
    rehomed (holding w rs) q.id c = holding w rs := by
  unfold rehomed
  rw [show (holding w rs).recordById q.id = some q from h.byId]
  exact if_neg (not_empty_of_has ho)

theorem Turn.rehomed_empty (h : Turn u w rs q) (hp : Plain u) (ho : q.offered = .empty)
    (hu : u.usable c.partner = (u.centre c.partner).health.heard) : rehomed (holding w rs) q.id c =
      if (u.centre c.partner).health.heard then
        holding (w.informed c.partner.link (.callOffer (offerOf (offeredBy u q c.partner)))) (put rs (offeredBy u q c.partner))
      else holding w (put rs { q with state := .waiting }) := by
  unfold rehomed
  rw [show (holding w rs).recordById q.id = some q from h.byId]
  dsimp only
  rw [if_pos ho, h.offerOrWait hp, hu]
  have hw : waitingOf q = { q with state := .waiting } := by
    unfold waitingOf
    rw [← ho]
  rw [hw]

/-- The offer of a record that goes back to its origin, or goes on (R119, R121). -/
theorem takesBack_of_heard (h : (u.centre c.partner).health.heard = true) : takesBack u q c = true := by
  rw [takesBack, h]
  rfl

theorem transferTimedOut_of {d : Centre} (h : r.origin = some d) : s.transferTimedOut r =
    if (s.centre d).health ≠ .lost && (s.centre d).duty ≠ .standby && !r.offered.has d then s.offerTo r.id d else s := by
  rw [State.transferTimedOut, h]

theorem Turn.loseOffer (h : Turn u w rs q) (hp : Plain u) (hid : q.id = r.id)
    (ho : q.origin = some c.partner ↔ r.origin = some c.partner) (hs : q.state ≠ .waiting)
    (hu : u.usable c.partner = (u.centre c.partner).health.heard) :
    (holding w rs).loseOffer r c = holding
      (if !q.offered.has c.partner && takesBack u q c then
        w.informed c.partner.link (.callOffer (offerOf (u.asOffered (outOf q c) c.partner))) else w)
      (put rs (lostOffer u q c)) := by
  have hoffer : u.asOffered (outOf q c) c.partner = offeredBy u (outOf q c) c.partner := asOffered_of_ne u (r := outOf q c) hs _
  have t1 : Turn u w (put rs { q with offered := q.offered.remove c }) { q with offered := q.offered.remove c } :=
    h.become rfl rfl (hp.toned ..)
  have tout : Turn u w (put rs (outOf q c)) (outOf q c) := h.become rfl rfl (hp.toned ..)
  have hrehomed : (outOf q c).offered = .empty → rehomed (holding w (put rs (outOf q c))) q.id c = holding
      (if (u.centre c.partner).health.heard then
        w.informed c.partner.link (.callOffer (offerOf (u.asOffered (outOf q c) c.partner))) else w)
      (put rs (if (u.centre c.partner).health.heard then u.asOffered (outOf q c) c.partner
        else { outOf q c with state := .waiting })) := fun he => by
    refine (tout.rehomed_empty hp he hu).trans ?_
    rw [hoffer, put_put (by rfl), put_put (by rfl)]
    split <;> rfl
  have hhas : (outOf q c).offered.has c.partner = q.offered.has c.partner := (has_remove q.offered).2
  rw [loseOffer_eq, lostOffer, ← hid]
  dsimp only
  rw [h.updRecord (fun r => { r with offered := r.offered.remove c }) rfl]
  by_cases hd : q.origin = some c.partner
  · have hput : put (put rs { q with offered := q.offered.remove c })
        { { q with offered := q.offered.remove c } with transferTimer := none } = put rs (outOf q c) := by
      rw [put_put (by rfl), outOf, decide_eq_true hd]
      rfl
    rw [if_pos (ho.1 hd), t1.updRecord (fun r => { r with transferTimer := none }) rfl, hput,
      show (holding w (put rs (outOf q c))).recordById q.id = some (outOf q c) from tout.byId]
    dsimp only
    rw [transferTimedOut_of (r := outOf q c) hd, holding_centre, linked_centre h.linked, hhas]
    cases hq : q.offered.has c.partner with
    | true =>
      rw [if_neg (by simp), if_neg (by simp), if_pos rfl]
      exact tout.rehomed_full (hhas.trans hq)
    | false =>
      rw [if_neg Bool.false_ne_true]
      by_cases hback : (u.centre c.partner).health ≠ .lost ∧ (u.centre c.partner).duty ≠ .standby
      · have hb : takesBack u q c = true := by
          rw [takesBack, decide_eq_true hd, decide_eq_true hback.1, decide_eq_true hback.2]
          simp
        have toff : Turn u (w.informed c.partner.link (.callOffer (offerOf (offeredBy u (outOf q c) c.partner))))
            (put (put rs (outOf q c)) (offeredBy u (outOf q c) c.partner)) (offeredBy u (outOf q c) c.partner) :=
          (tout.become (q := offeredBy u (outOf q c) c.partner) rfl rfl (hp.toned ..)).informed ..
        rw [if_pos (by simp [hback]), tout.offerTo_toned (hp.toned ..), hb, if_pos (by rfl), if_pos rfl, hoffer]
        refine (toff.rehomed_full (has_add ..)).trans ?_
        rw [put_put (by rfl)]
      · have hheard : (u.centre c.partner).health.heard = false := Bool.eq_false_iff.2 fun hh => hback (by
          rw [← hu, State.usable, Bool.and_eq_true, decide_eq_true_eq] at hh
          obtain ⟨h1, h2⟩ := hh
          refine ⟨fun e => ?_, fun e => ?_⟩
          · rw [e] at h1; cases h1
          · rw [h2] at e; cases e)
        have hb : takesBack u q c = false := by
          rw [takesBack, hheard, Bool.false_or, Bool.and_assoc, ← Bool.decide_and, decide_eq_false hback, Bool.and_false]
        rw [if_neg (by simpa using hback), hrehomed (outOf_empty hq), hheard, hb]
        simp only [Bool.and_false, Bool.false_eq_true, if_false]
  · have hput : put rs { q with offered := q.offered.remove c } = put rs (outOf q c) := by
      rw [outOf, decide_eq_false hd]
      rfl
    have hb : takesBack u q c = (u.centre c.partner).health.heard := by
      rw [takesBack, decide_eq_false hd, Bool.false_and, Bool.false_and, Bool.or_false]
    rw [if_neg (mt ho.2 hd), hput, hb]
    cases hq : q.offered.has c.partner with
    | true => exact tout.rehomed_full (hhas.trans hq)
    | false => exact hrehomed (outOf_empty hq)

/-- The lost link leaves the offers of a record (R121). -/
def lostTold (u w : State) (r : CallRecord) (c : Centre) : State :=
  if r.offered.has c && (!r.offered.has c.partner && (u.bereft r c).offered.has c.partner) then
    w.informed c.partner.link (.callOffer (offerOf (u.bereft r c))) else w

theorem lostOffer_has (h : q.offered.has c.partner = false) :
    (lostOffer u q c).offered.has c.partner = takesBack u q c := by
  unfold lostOffer
  rw [h, if_neg Bool.false_ne_true]
  cases takesBack u q c with
  | true => exact has_add ..
  | false => exact (has_remove q.offered).2.trans h

theorem Turn.loses (h : Turn u w rs r) (hp : Plain u) (hst : r.offered.has c = true → r.state ≠ .waiting)
    (hu : u.usable c.partner = (u.centre c.partner).health.heard) :
    (let s := holding w (put rs (disowned r c))
     if r.offered.has c then s.loseOffer r c else s) = holding (lostTold u w r c) (put rs (u.bereft r c)) := by
  obtain ⟨hid, hline, hoff, hstate, horigin⟩ := disowned_keeps r c
  have turn : Turn u w (put rs (disowned r c)) (disowned r c) := h.become hid hline (hp.toned ..)
  unfold lostTold
  cases hc : r.offered.has c with
  | false =>
    have hb : u.bereft r c = disowned r c := by rw [bereft_eq, hoff, hc, if_neg Bool.false_ne_true]
    rw [hb]
    rfl
  | true =>
    have hb : u.bereft r c = lostOffer u (disowned r c) c := by rw [bereft_eq, hoff, hc, if_pos rfl]
    dsimp only
    rw [if_pos rfl, turn.loseOffer hp hid horigin (by rw [hstate]; exact hst hc) hu, hb, hoff,
      put_put ((lostOffer_keeps ..).1), Bool.true_and]
    cases hd : r.offered.has c.partner with
    | true => rfl
    | false =>
      rw [lostOffer_has (hoff ▸ hd), Bool.not_false, Bool.true_and]
      cases hback : takesBack u (disowned r c) c with
      | false => rfl
      | true =>
        have hl : lostOffer u (disowned r c) c = u.asOffered (Proofs.outOf (disowned r c) c) c.partner := by
          rw [lostOffer, hoff, hd, hback]
          rfl
        rw [hl]

theorem Turn.loseUnclaimed (h : Turn u w rs r) (hp : Plain u) (hst : r.offered.has c = true → r.state ≠ .waiting)
    (hu : u.usable c.partner = (u.centre c.partner).health.heard) :
    (holding w rs).loseUnclaimed r c = holding
      (if u.passedOn r c then w.informed c.partner.link (.callOffer (offerOf (u.bereft r c))) else w)
      (put rs (u.bereft r c)) := by
  have hloses := h.loses hp hst hu
  unfold State.loseUnclaimed State.passedOn
  dsimp only at hloses ⊢
  by_cases ho : r.origin = some c
  · have hdis : disowned r c = originLost r := if_pos ho
    rw [hdis] at hloses
    have hup : ((holding w rs).updRecord r.id fun r =>
        { r with origin := none, transferTimer := none, flags := { r.flags with orphan := true } }) =
          holding w (put rs (originLost r)) := h.updRecord originLost rfl
    rw [if_pos ho, if_pos ho, hup, hloses, decide_eq_true ho, Bool.true_and]
    have hlink : Linked u (lostTold u w r c) := by
      unfold lostTold
      split
      · exact h.linked.informed ..
      · exact h.linked
    have turn : Turn u (lostTold u w r c) (put rs (u.bereft r c)) (u.bereft r c) :=
      { h.become (q := u.bereft r c) (bereft_keeps ..).1 (bereft_keeps ..).2 (hp.toned ..) with linked := hlink }
    have hretone {v : State} (hv : Linked u v) :
        (holding v (put rs (u.bereft r c))).retone r.line = holding v (put rs (u.bereft r c)) := by
      have := ({ turn with linked := hv } : Turn u v (put rs (u.bereft r c)) (u.bereft r c)).retone
      rwa [(bereft_keeps ..).2] at this
    have hplace : (holding (lostTold u w r c) (put rs (u.bereft r c))).placeOffer r.id c.partner =
        holding ((lostTold u w r c).informed c.partner.link (.callOffer (offerOf (u.bereft r c)))) (put rs (u.bereft r c)) := by
      have := turn.byId
      rw [(bereft_keeps ..).1] at this
      unfold State.placeOffer
      rw [show (holding (lostTold u w r c) (put rs (u.bereft r c))).recordById r.id = some (u.bereft r c) from this]
      exact (State.notify_eq ..).trans (informed_records ..)
    cases hd : r.offered.has c.partner with
    | true =>
      rw [if_pos rfl, hplace, hretone (hlink.informed ..)]
      unfold lostTold
      rw [hd]
      simp
    | false =>
      rw [if_neg Bool.false_ne_true, hretone hlink]
      unfold lostTold
      rw [hd, Bool.or_false, ← Bool.and_assoc]
  · have hdis : disowned r c = r := if_neg ho
    rw [hdis, put_self h.alone] at hloses
    rw [if_neg ho, if_neg ho, hloses, decide_eq_false ho, Bool.false_and, Bool.or_false, lostTold, ← Bool.and_assoc]

/-- The offers of the unclaimed records at the loss of a link (R121). -/
theorem others_eq (hp : Plain u) (hu : u.usable c.partner = (u.centre c.partner).health.heard)
    (hs : ∀ r ∈ u.records, r.offered.has c = true → r.state ≠ .waiting) :
    u.eachRecord (fun s r => if r.state.unclaimed then s.loseUnclaimed r c else s) =
      holding (u.offeredAll c.partner.link
        ((u.registerOrder.filter fun r => r.state.unclaimed && u.passedOn r c).map (u.bereft · c)))
        (u.records.map fun r => if r.state.unclaimed then u.bereft r c else r) := by
  refine (eachRecord_eq (φ := fun r => if r.state.unclaimed then u.bereft r c else r)
    (ψ := fun w r => if r.state.unclaimed && u.passedOn r c then
      w.informed c.partner.link (.callOffer (offerOf (u.bereft r c))) else w) hp.tidy
    (fun r => by split; exact (bereft_keeps ..).1; rfl) (fun r => by split; exact (bereft_keeps ..).2; rfl)
    fun w rs r hr turn => ⟨?_, ?_⟩).trans ?_
  · split
    · exact turn.linked.informed ..
    · exact turn.linked
  · cases hc : r.state.unclaimed with
    | true =>
      rw [if_pos rfl, if_pos rfl, turn.loseUnclaimed hp (hs r hr) hu, Bool.true_and]
    | false =>
      rw [if_neg Bool.false_ne_true, if_neg Bool.false_ne_true, Bool.false_and, put_self turn.alone]
      rfl
  · rw [foldl_offers u c.partner.link _ (u.bereft · c)]

end

end Sys2Proof.Proofs

/-! PROOFS. The loss of a link in closed form, in a state without lines (R104, R119 to R124). -/

namespace Sys2Proof.Proofs

open Sys2Proof Sys2Proof.Machine

section

variable {s t u v w : State} {rs : List CallRecord} {r q : CallRecord} {c d : Centre}

/-! ### What offers read of a state -/

/-- Two states that agree in what an offer to a link reads but the records and the queues (R105 to R107). -/
structure Kin (d : Centre) (s t : State) : Prop where
  tick : t.tick = s.tick
  clock : t.clock = s.clock
  groups : t.groups = s.groups
  timers : t.timers = s.timers
  health : (t.centre d).health = (s.centre d).health

theorem Kin.refl (d : Centre) (s : State) : Kin d s s := ⟨rfl, rfl, rfl, rfl, rfl⟩

theorem Kin.trans (h : Kin d s t) (k : Kin d t u) : Kin d s u :=
  ⟨k.tick.trans h.tick, k.clock.trans h.clock, k.groups.trans h.groups, k.timers.trans h.timers, k.health.trans h.health⟩

theorem Kin.linked (h : Linked s t) : Kin d s t := by
  obtain ⟨a, b, rfl⟩ := h
  cases d <;> exact ⟨rfl, rfl, rfl, rfl, rfl⟩

theorem Kin.holding (s : State) (rs : List CallRecord) : Kin d s (Proofs.holding s rs) := by
  cases d <;> exact ⟨rfl, rfl, rfl, rfl, rfl⟩

theorem Kin.setDuty (s : State) (c : Centre) (k : Duty) : Kin d s (s.setDuty c k) := by
  cases c <;> cases d <;> exact ⟨rfl, rfl, rfl, rfl, rfl⟩

theorem Kin.asOffered (h : Kin d s t) (r : CallRecord) (e : Centre) : t.asOffered r e = s.asOffered r e := by
  rw [State.asOffered, h.tick, h.clock, h.timers, State.group, h.groups]
  rfl

theorem Kin.orphaned (h : Kin c.partner s t) (r : CallRecord) : t.orphaned r c = s.orphaned r c := by
  unfold State.orphaned
  rw [h.health]
  simp only [h.asOffered]

theorem Kin.bereft (h : Kin c.partner s t)
    (hd : (s.centre c.partner).health.heard = false →
      ((t.centre c.partner).duty = .standby ↔ (s.centre c.partner).duty = .standby)) (r : CallRecord) :
    t.bereft r c = s.bereft r c := by
  have hback (q : CallRecord) : takesBack t q c = takesBack s q c := by
    unfold takesBack
    rw [h.health]
    cases hh : (s.centre c.partner).health.heard with
    | true => rfl
    | false => rw [decide_eq_decide.2 (not_congr (hd hh))]
  rw [bereft_eq, bereft_eq]
  unfold lostOffer
  simp only [hback, h.asOffered]

theorem Kin.offeredAll (s : State) (c : Centre) (xs : List CallRecord) : Kin d s (s.offeredAll c.link xs) :=
  .linked (offeredAll_linked (Linked.refl s) xs)

/-! ### The duties -/

theorem partner_partner (c : Centre) : c.partner.partner = c := by cases c <;> rfl

/-- The lost link's own handover is over (R124). -/
def leftDuty (u : State) (c : Centre) : State :=
  if (u.centre c).duty = .handingOver then u.setDuty c .standby else u

/-- The partner of a lost link returns to duty (R104, R124). -/
def returns (u : State) (c : Centre) : Bool :=
  decide ((u.centre c.partner).duty = .handingOver) || resumes u c.partner

/-- The partner is told of its return (R104, R124). -/
def dutyTold (u : State) (c : Centre) : State :=
  if returns u c then
    ((leftDuty u c).setDuty c.partner .active).informed c.partner.link
      (if (u.centre c.partner).duty = .handingOver then .handoverCancelled else .dutyResumed)
  else leftDuty u c

/-- A record that the return makes due to the partner (R108). -/
def dueNow (u : State) (c : Centre) (r : CallRecord) : Bool :=
  returns u c && (u.centre c.partner).health.heard && r.dueTo c.partner

def metNow (u : State) (c : Centre) (r : CallRecord) : CallRecord :=
  if dueNow u c r then u.asOffered r c.partner else r

/-- The state once the duties are settled (R104, R108, R124). -/
def dutied (u : State) (c : Centre) : State :=
  holding ((dutyTold u c).offeredAll c.partner.link ((u.registerOrder.filter (dueNow u c)).map (metNow u c)))
    (u.records.map (metNow u c))

theorem leftDuty_centre (u : State) (c : Centre) : (leftDuty u c).centre c.partner = u.centre c.partner ∧
    ((leftDuty u c).centre c).health = (u.centre c).health := by
  unfold leftDuty
  split <;> cases c <;> exact ⟨rfl, rfl⟩

theorem leftDuty_alike (u : State) (c : Centre) : Alike u (leftDuty u c) := by
  unfold leftDuty
  split
  · exact Alike.setCentre ..
  · exact ⟨rfl, rfl, rfl, rfl, rfl⟩

theorem leftDuty_tidy (h : Tidy u) (c : Centre) : Tidy (leftDuty u c) := by
  unfold leftDuty
  split
  · exact h.setCentre
  · exact h

theorem dutied_nothing (h : ∀ r, dueNow u c r = false) : dutied u c = dutyTold u c := by
  have hm : metNow u c = id := funext fun r => by rw [metNow, h]; rfl
  have hr : (dutyTold u c).records = u.records := by
    have hl := (leftDuty_alike u c).records
    unfold dutyTold
    split
    · rw [informed_eq, State.setLink_records]
      exact (State.setCentre_records ..).trans hl
    · exact hl
  unfold dutied
  rw [hm, List.filter_eq_nil_iff.2 fun r _ => by rw [h]; exact Bool.false_ne_true, List.map_id u.records, ← hr]
  rfl

theorem dutied_welcomed (hr : returns u c = true) (hh : (u.centre c.partner).health.heard = true) :
    dutied u c = (dutyTold u c).welcomed c.partner := by
  have ha : Alike u (dutyTold u c) := by
    unfold dutyTold
    rw [if_pos hr, informed_eq]
    exact ((leftDuty_alike u c).trans (Alike.setCentre ..)).trans (Alike.setLink ..)
  have hdue : dueNow u c = fun r => r.dueTo c.partner := funext fun r => by rw [dueNow, hr, hh]; rfl
  have hlist : (u.registerOrder.filter (dueNow u c)).map (metNow u c) =
      (u.registerOrder.filter (·.dueTo c.partner)).map (u.asOffered · c.partner) := by
    rw [hdue]
    refine List.map_congr_left fun r hr => ?_
    rw [metNow, hdue]
    exact if_pos (List.mem_filter.1 hr).2
  have hmet : metNow u c = fun r => if r.dueTo c.partner then u.asOffered r c.partner else r :=
    funext fun r => by rw [metNow, hdue]
  rw [ha.welcomed, dutied, hlist, hmet]
  rfl

theorem lost_not_usable (hl : (u.centre c).health = .lost) : u.usable c = false ∧ resumes u c = false := by
  simp [State.usable, resumes, hl, Health.heard]

theorem resumes_leftDuty (u : State) (c : Centre) : resumes (leftDuty u c) c.partner = resumes u c.partner := by
  rw [resumes, (leftDuty_centre u c).1, resumes]

/-- The duties at the loss of a link, with the standby fall-back (R104, R124). -/
theorem duties_eq (h : Tidy u) (hl : (u.centre c).health = .lost) : (u.loseDuty c).fallback = dutied u c := by
  obtain ⟨hpart, hhealth⟩ := leftDuty_centre u c
  have hleft : u.loseDuty c = if ((leftDuty u c).centre c.partner).duty = .handingOver then
      (let s := ((leftDuty u c).setDuty c.partner .active).notify c.partner.link .handoverCancelled
       if s.usable c.partner then s.becomeUsable c.partner else s) else leftDuty u c := rfl
  rw [hleft, hpart]
  by_cases hd : (u.centre c.partner).duty = .handingOver
  · have hret : returns u c = true := by rw [returns, decide_eq_true hd, Bool.true_or]
    let v := ((leftDuty u c).setDuty c.partner .active).informed c.partner.link .handoverCancelled
    have hv : dutyTold u c = v := by rw [dutyTold, if_pos hret, if_pos hd]
    have hvd : v.centre c.partner = { u.centre c.partner with duty := .active } := by
      rw [← hpart]
      show (State.informed ..).centre _ = _
      rw [informed_eq, State.setLink_centre, State.setDuty, State.setCentre_centre, if_pos rfl]
    have hvc : (v.centre c).health = .lost := by
      rw [← hl, ← hhealth]
      show ((State.informed ..).centre _).health = _
      rw [informed_eq, State.setLink_centre, State.setDuty, State.setCentre_centre, if_neg]
      cases c <;> decide
    have hvt : Tidy v := (leftDuty_tidy h c).setCentre.informed
    have hvu : v.usable c.partner = (u.centre c.partner).health.heard := by
      rw [State.usable, hvd, decide_eq_true rfl, Bool.and_true]
    rw [if_pos hd]
    dsimp only
    rw [State.notify_eq]
    show State.fallback (if v.usable c.partner then v.becomeUsable c.partner else v) = _
    rw [hvu]
    cases hh : (u.centre c.partner).health.heard with
    | true =>
      rw [if_pos rfl, becomeUsable_eq hvt, dutied_welcomed hret hh, hv]
      exact fallback_usable ((usable_welcomed ..).trans (hvu.trans hh))
    | false =>
      rw [if_neg Bool.false_ne_true, dutied_nothing fun r => by rw [dueNow, hh, Bool.and_false, Bool.false_and], hv]
      refine fallback_none (c := c) (lost_not_usable hvc).2 ?_
      rw [resumes, hvd]
      rfl
  · have hc := lost_not_usable (hhealth.trans hl)
    rw [if_neg hd]
    have hret : returns u c = resumes u c.partner := by rw [returns, decide_eq_false hd, Bool.false_or]
    cases hr : resumes u c.partner with
    | true =>
      have hh : (u.centre c.partner).health.heard = true := (Bool.and_eq_true_iff.1 hr).2
      have hback := fallback_calledBack (c := c.partner) (leftDuty_tidy h c) (by rw [partner_partner]; exact hc.1)
        (by rw [partner_partner]; exact hc.2) ((resumes_leftDuty u c).trans hr)
      rw [hback, dutied_welcomed (hret.trans hr) hh, dutyTold, if_pos (hret.trans hr), if_neg hd]
      rfl
    | false =>
      rw [dutied_nothing fun r => by rw [dueNow, hret, hr, Bool.false_and, Bool.false_and], dutyTold, hret, hr,
        if_neg Bool.false_ne_true]
      exact fallback_none hc.2 ((resumes_leftDuty u c).trans hr)

end

end Sys2Proof.Proofs

/-! PROOFS. The loss of a link, in a state without lines, put together (R120, R121). -/

namespace Sys2Proof.Proofs

open Sys2Proof Sys2Proof.Machine

section

variable {s t u v w : State} {rs : List CallRecord} {r q : CallRecord} {c d : Centre}

/-! ### The state once the duties are settled -/

theorem metNow_keeps (u : State) (c : Centre) (r : CallRecord) : (metNow u c r).id = r.id ∧
    (metNow u c r).line = r.line ∧ (metNow u c r).claimant = r.claimant ∧
    (metNow u c r).state.unclaimed = r.state.unclaimed := by
  unfold metNow
  split
  · next h =>
    have hdue : r.dueTo c.partner = true := (Bool.and_eq_true_iff.1 h).2
    refine ⟨rfl, rfl, rfl, ?_⟩
    show CallState.offered.unclaimed = _
    cases hs : r.state <;> simp_all [CallRecord.dueTo, CallState.unclaimed]
  · exact ⟨rfl, rfl, rfl, rfl⟩

theorem metNow_ranked (u : State) (c : Centre) : Ranked (metNow u c) := fun r => by
  unfold metNow
  split <;> exact ⟨rfl, rfl, rfl, rfl⟩

theorem metNow_claimed (u : State) (c : Centre) (h : r.state.unclaimed = false) : metNow u c r = r := by
  have hdue : r.dueTo c.partner = false := by
    cases hs : r.state <;> simp_all [CallRecord.dueTo, CallState.unclaimed]
  rw [metNow, dueNow, hdue, Bool.and_false]
  rfl

theorem dutyTold_linked (u : State) (c : Centre) : Linked (if returns u c then (leftDuty u c).setDuty c.partner .active
    else leftDuty u c) (dutyTold u c) := by
  unfold dutyTold
  split
  · exact (Linked.refl _).informed ..
  · exact Linked.refl _

theorem dutied_centre (u : State) (c : Centre) : (dutied u c).centre c.partner =
      { u.centre c.partner with duty := if returns u c then .active else (u.centre c.partner).duty } ∧
    (dutied u c).centre c = (leftDuty u c).centre c := by
  have hlink (e : Centre) : (dutied u c).centre e = (dutyTold u c).centre e := by
    rw [dutied, holding_centre, linked_centre (offeredAll_linked (Linked.refl _) _)]
  rw [hlink, hlink, linked_centre (dutyTold_linked u c), linked_centre (dutyTold_linked u c)]
  split
  · rw [State.setDuty, State.setCentre_centre, State.setCentre_centre, if_pos rfl, (leftDuty_centre u c).1, if_neg]
    · exact ⟨rfl, rfl⟩
    · cases c <;> decide
  · exact ⟨(leftDuty_centre u c).1, rfl⟩

theorem dutied_usable (u : State) (c : Centre) : (dutied u c).usable c.partner = (u.centre c.partner).health.heard := by
  rw [State.usable, (dutied_centre u c).1, returns, resumes]
  dsimp only
  cases (u.centre c.partner).duty <;> cases (u.centre c.partner).health.heard <;> rfl

theorem Kin.leftDuty (u : State) (c : Centre) : Kin d u (Proofs.leftDuty u c) := by
  unfold Proofs.leftDuty
  split
  · exact Kin.setDuty ..
  · exact Kin.refl ..

theorem Kin.dutied (u : State) (c : Centre) : Kin d u (Proofs.dutied u c) := by
  have h1 : Kin d u (if returns u c then (Proofs.leftDuty u c).setDuty c.partner .active else Proofs.leftDuty u c) := by
    split
    · exact (Kin.leftDuty u c).trans (Kin.setDuty ..)
    · exact Kin.leftDuty u c
  exact ((h1.trans (Kin.linked (dutyTold_linked u c))).trans (Kin.offeredAll ..)).trans (Kin.holding ..)

theorem dutied_plain (hp : Plain u) (hl : (u.centre c).health = .lost) : Plain (dutied u c) := by
  refine ⟨?_, ?_, ?_⟩
  · show ((u.records.map (metNow u c)).map (·.id)).Nodup
    rw [List.map_map, show (·.id) ∘ metNow u c = (·.id) from funext fun r => (metNow_keeps u c r).1]
    exact hp.ids
  · show ((u.records.map (metNow u c)).map (·.line)).Nodup
    rw [List.map_map, show (·.line) ∘ metNow u c = (·.line) from funext fun r => (metNow_keeps u c r).2.1]
    exact hp.lines
  · rw [← duties_eq hp.tidy hl, Blind.fallback.bared, (Blind.loseDuty c).bared, hp.bare]

/-! ### The two passes -/

/-- What a record is once the link that claimed it, or that it was offered to, is lost (R120, R121). -/
def bereftNow (u : State) (c : Centre) (r : CallRecord) : CallRecord :=
  if r.claimant = some c then u.orphaned r c
  else if r.state.unclaimed then u.bereft (metNow u c r) c
  else r

/-- The offers of the unclaimed records (R121). -/
def otherOffers (u : State) (c : Centre) : List CallRecord :=
  (((u.registerOrder.filter (·.state.unclaimed)).map (metNow u c)).filter (u.passedOn · c)).map (u.bereft · c)

theorem orphaned_offered (u : State) (r : CallRecord) (c : Centre) : (u.orphaned r c).offered.has c = false ∧
    (u.orphaned r c).origin = r.origin ∧ (u.orphaned r c).state.unclaimed = true := by
  unfold State.orphaned
  dsimp only
  split
  · refine ⟨?_, rfl, rfl⟩
    cases c <;> rfl
  · refine ⟨?_, rfl, rfl⟩
    cases c <;> rfl

theorem bereft_untouched (u : State) (ho : r.origin ≠ some c) (hh : r.offered.has c = false) :
    u.bereft r c = r ∧ u.passedOn r c = false := by
  have hd : disowned r c = r := if_neg ho
  refine ⟨?_, ?_⟩
  · rw [bereft_eq, hd, hh]
    rfl
  · rw [State.passedOn, hh, decide_eq_false ho]
    rfl

/-- The first pass of R120. -/
def afterOrphans (u : State) (c : Centre) : State :=
  holding ((dutied u c).offeredAll c.partner.link (orphanOffers u c))
    (u.records.map fun r => if r.claimant = some c then u.orphaned r c else metNow u c r)

theorem afterOrphans_eq (hp : Plain u) (hl : (u.centre c).health = .lost)
    (hclaim : ∀ r ∈ u.records, r.claimant = some c → r.state.unclaimed = false) :
    (dutied u c).eachRecord (fun s r => if r.claimant = some c then s.orphan r c else s) = afterOrphans u c := by
  have hkin : Kin c.partner u (dutied u c) := Kin.dutied u c
  have hrecs : (dutied u c).records = u.records.map (metNow u c) := rfl
  have horder : (dutied u c).registerOrder = u.registerOrder.map (metNow u c) :=
    registerOrder_map (metNow_ranked u c) hkin.tick hrecs
  have hoffers : orphanOffers (dutied u c) c = orphanOffers u c := by
    unfold orphanOffers
    rw [hkin.health, horder, List.filter_map, List.map_map]
    refine congrArg (fun x => if (u.centre c.partner).health.heard = true then x else []) ?_
    have hf : ((fun r : CallRecord => decide (r.claimant = some c)) ∘ metNow u c) = fun r => decide (r.claimant = some c) :=
      funext fun r => by rw [Function.comp_apply, (metNow_keeps u c r).2.2.1]
    rw [hf]
    refine List.map_congr_left fun r hr => ?_
    obtain ⟨hr, hc⟩ := List.mem_filter.1 hr
    rw [Function.comp_apply, metNow_claimed u c (hclaim r ((mem_registerOrder u r).1 hr) (of_decide_eq_true hc)),
      hkin.orphaned]
  refine (orphans_eq (dutied_plain hp hl) (by rw [dutied_usable, hkin.health]) fun q hq hc => ?_).trans ?_
  · obtain ⟨r, hr, rfl⟩ := List.mem_map.1 (hrecs ▸ hq)
    rw [(metNow_keeps u c r).2.2.1] at hc
    have hu := hclaim r hr hc
    rw [metNow_claimed u c hu]
    intro hw
    rw [hw] at hu
    cases hu
  · rw [hoffers, hrecs, List.map_map]
    refine congrArg (holding _) (List.map_congr_left fun r hr => ?_)
    rw [Function.comp_apply, (metNow_keeps u c r).2.2.1]
    split
    · next hc => rw [metNow_claimed u c (hclaim r hr hc), hkin.orphaned]
    · rfl

theorem Kin.afterOrphans (u : State) (c : Centre) : Kin d u (Proofs.afterOrphans u c) :=
  ((Kin.dutied u c).trans (Kin.offeredAll ..)).trans (Kin.holding ..)

theorem afterOrphans_centre (u : State) (c : Centre) (e : Centre) : (afterOrphans u c).centre e = (dutied u c).centre e := by
  rw [afterOrphans, holding_centre, linked_centre (offeredAll_linked (Linked.refl _) _)]

theorem afterOrphans_bereft (u : State) (c : Centre) (r : CallRecord) : (afterOrphans u c).bereft r c = u.bereft r c := by
  refine (Kin.afterOrphans u c).bereft (fun hh => ?_) r
  rw [afterOrphans_centre, (dutied_centre u c).1, returns, resumes, hh]
  dsimp only
  cases (u.centre c.partner).duty <;> simp

theorem afterOrphans_passedOn (u : State) (c : Centre) (r : CallRecord) :
    (afterOrphans u c).passedOn r c = u.passedOn r c := by
  rw [State.passedOn, afterOrphans_bereft, State.passedOn]

theorem afterOrphans_plain (hp : Plain u) (hl : (u.centre c).health = .lost)
    (hclaim : ∀ r ∈ u.records, r.claimant = some c → r.state.unclaimed = false) : Plain (afterOrphans u c) := by
  have hkeeps (r : CallRecord) : (if r.claimant = some c then u.orphaned r c else metNow u c r).id = r.id ∧
      (if r.claimant = some c then u.orphaned r c else metNow u c r).line = r.line := by
    split
    · exact orphaned_keeps ..
    · exact ⟨(metNow_keeps u c r).1, (metNow_keeps u c r).2.1⟩
  refine ⟨?_, ?_, ?_⟩
  · rw [show (afterOrphans u c).records = u.records.map _ from rfl, List.map_map]
    exact (List.map_congr_left fun r _ => (hkeeps r).1).symm ▸ hp.ids
  · rw [show (afterOrphans u c).records = u.records.map _ from rfl, List.map_map]
    exact (List.map_congr_left fun r _ => (hkeeps r).2).symm ▸ hp.lines
  · rw [← afterOrphans_eq hp hl hclaim, bare_eachRecord fun s r => ?_, (dutied_plain hp hl).bare]
    split
    · exact bare_orphan s r c
    · rfl

/-- The records of the second pass, in register order (R121). -/
theorem afterOrphans_others (hp : Plain u)
    (hclaim : ∀ r ∈ u.records, r.claimant = some c → r.state.unclaimed = false ∧ r.origin ≠ some c) :
    ((afterOrphans u c).registerOrder.filter fun r => r.state.unclaimed && (afterOrphans u c).passedOn r c).map
      ((afterOrphans u c).bereft · c) = otherOffers u c := by
  let φ (r : CallRecord) : CallRecord := if r.claimant = some c then u.orphaned r c else metNow u c r
  let p (r : CallRecord) : Bool := r.state.unclaimed && u.passedOn r c
  have hp' : (fun r : CallRecord => r.state.unclaimed && (afterOrphans u c).passedOn r c) = p :=
    funext fun r => by rw [afterOrphans_passedOn]
  have horphan (r : CallRecord) (hr : r ∈ u.records) (hc : r.claimant = some c) : p (φ r) = false := by
    obtain ⟨h1, h2, -⟩ := orphaned_offered u r c
    have : φ r = u.orphaned r c := if_pos hc
    dsimp only [p]
    rw [this, (bereft_untouched u (h2 ▸ (hclaim r hr hc).2) h1).2, Bool.and_false]
  have hline (r : CallRecord) : (φ r).line = r.line := by
    dsimp only [φ]
    split
    · exact (orphaned_keeps ..).2
    · exact (metNow_keeps u c r).2.1
  have horder := registerOrder_filter_map (s := u) (t := afterOrphans u c) (φ := φ) (p := p) hp.lines hline
    (Kin.afterOrphans (d := c) u c).tick rfl fun r hr hpr => by
      by_cases hc : r.claimant = some c
      · rw [horphan r hr hc] at hpr
        cases hpr
      · have hφ : φ r = metNow u c r := if_neg hc
        obtain ⟨k1, k2, k3, k4⟩ := metNow_ranked u c r
        rw [hφ, registerKey, k1, k2, k3, k4]
        rfl
  rw [hp', horder, otherOffers, List.filter_map, List.filter_filter, List.map_map, List.map_map]
  have hfilter : (u.registerOrder.filter fun r => p (φ r)) =
      u.registerOrder.filter fun r => ((u.passedOn · c) ∘ metNow u c) r && r.state.unclaimed := by
    refine List.filter_congr fun r hr => ?_
    have hr := (mem_registerOrder u r).1 hr
    by_cases hc : r.claimant = some c
    · rw [horphan r hr hc, (hclaim r hr hc).1, Bool.and_false]
    · have hφ : φ r = metNow u c r := if_neg hc
      dsimp only [p, Function.comp_apply]
      rw [hφ, (metNow_keeps u c r).2.2.2, Bool.and_comm]
  rw [hfilter]
  refine List.map_congr_left fun r hr => ?_
  obtain ⟨hr, hpr⟩ := List.mem_filter.1 hr
  have hu : r.state.unclaimed = true := (Bool.and_eq_true_iff.1 hpr).2
  have hc : r.claimant ≠ some c := fun hc => by
    rw [(hclaim r ((mem_registerOrder u r).1 hr) hc).1] at hu
    cases hu
  have hφ : φ r = metNow u c r := if_neg hc
  rw [Function.comp_apply, Function.comp_apply, hφ, afterOrphans_bereft]

/-- The loss of a link in a state without lines (R120, R121). -/
theorem lossOfLink_eq (hp : Plain u) (hl : (u.centre c).health = .lost)
    (hclaim : ∀ r ∈ u.records, r.claimant = some c → r.state.unclaimed = false ∧ r.origin ≠ some c)
    (hoff : ∀ r ∈ u.records, r.offered.has c = true → r.state ≠ .waiting) :
    u.lossOfLink c = holding ((((dutyTold u c).offeredAll c.partner.link
        ((u.registerOrder.filter (dueNow u c)).map (metNow u c))).offeredAll c.partner.link (orphanOffers u c)).offeredAll
          c.partner.link (otherOffers u c)) (u.records.map (bereftNow u c)) := by
  have hclaim' := fun r hr hc => (hclaim r hr hc).1
  have hrings : u.cancelRings c = u := by
    have h := (bare_cancelRings u c).2
    rwa [hp.bare] at h
  have hdef : u.lossOfLink c = (afterOrphans u c).eachRecord fun s r =>
      if r.state.unclaimed then s.loseUnclaimed r c else s := by
    rw [← afterOrphans_eq hp hl hclaim', ← duties_eq hp.tidy hl]
    unfold State.lossOfLink
    dsimp only
    rw [hrings]
  have hheard : (afterOrphans u c).usable c.partner = ((afterOrphans u c).centre c.partner).health.heard := by
    rw [(Kin.afterOrphans (d := c.partner) u c).health, State.usable, afterOrphans_centre]
    exact dutied_usable u c
  rw [hdef, others_eq (afterOrphans_plain hp hl hclaim') hheard fun q hq hc => ?_]
  · rw [afterOrphans_others hp hclaim]
    have hrecs : (afterOrphans u c).records.map
        (fun r => if r.state.unclaimed then (afterOrphans u c).bereft r c else r) = u.records.map (bereftNow u c) := by
      show (u.records.map _).map _ = _
      rw [List.map_map]
      refine List.map_congr_left fun r hr => ?_
      rw [Function.comp_apply, bereftNow]
      simp only [afterOrphans_bereft]
      by_cases hc : r.claimant = some c
      · obtain ⟨h1, h2, h3⟩ := orphaned_offered u r c
        rw [if_pos hc, if_pos hc, if_pos h3, (bereft_untouched u (h2 ▸ (hclaim r hr hc).2) h1).1]
      · rw [if_neg hc, if_neg hc, (metNow_keeps u c r).2.2.2]
        cases hu : r.state.unclaimed with
        | true => rfl
        | false => rw [if_neg Bool.false_ne_true, if_neg Bool.false_ne_true, metNow_claimed u c hu]
    rw [hrecs, afterOrphans, offeredAll_holding, dutied, offeredAll_holding, offeredAll_holding]
    rfl
  · obtain ⟨r, hr, rfl⟩ := List.mem_map.1 (show q ∈ u.records.map _ from hq)
    split at hc
    · rw [(orphaned_offered u r c).1] at hc
      cases hc
    · next hn =>
      rw [if_neg hn]
      unfold metNow at hc ⊢
      split
      · exact fun h => by cases h
      · next hd =>
        rw [if_neg hd] at hc
        exact hoff r hr hc

end

end Sys2Proof.Proofs

/-! PROOFS. The rings and the channels of a link that is lost (R46, R120, R127). -/

namespace Sys2Proof.Proofs

open Sys2Proof Sys2Proof.Machine

section

variable {s t u v : State} {r : CallRecord} {c : Centre}

/-! ### The rings -/

/-- Channels are freed and lines made IDLE, and nothing else happens to them (R46). -/
structure Fades (s t : State) : Prop where
  records : t.records = s.records
  channels : ∀ ch, t.channel ch = .free ∨ t.channel ch = s.channel ch
  lines : ∀ n, (t.line n).condition = .idle ∨ (t.line n).condition = (s.line n).condition

theorem Fades.refl (s : State) : Fades s s := ⟨rfl, fun _ => .inr rfl, fun _ => .inr rfl⟩

theorem Fades.trans (h : Fades s t) (k : Fades t u) : Fades s u where
  records := k.records.trans h.records
  channels ch := (k.channels ch).elim .inl fun e => (h.channels ch).imp (e.trans ·) (e.trans ·)
  lines n := (k.lines n).elim .inl fun e => (h.lines n).imp (e.trans ·) (e.trans ·)

theorem stopRing_fades (s : State) (n : LineId) (ch : ChannelId) : Fades s (s.stopRing n ch) ∧
    (s.stopRing n ch).channel ch = .free ∧ ((s.stopRing n ch).line n).condition = .idle := by
  obtain ⟨o, ho⟩ := (s.give (.ring n false)).freeChannel_spec ch
  rw [State.stopRing, enter_eq, ho]
  refine ⟨⟨rfl, fun k => ?_, fun m => ?_⟩, Vector.getElem_set_self ch.isLt, ?_⟩
  · show (s.channels.set ch .free)[k] = _ ∨ (s.channels.set ch .free)[k] = s.channels[k]
    rw [Fin.getElem_fin, Vector.getElem_set]
    split
    · exact .inl rfl
    · exact .inr rfl
  · show ((s.lines.set n _)[m]).condition = _ ∨ ((s.lines.set n _)[m]).condition = (s.lines[m]).condition
    rw [Fin.getElem_fin, Vector.getElem_set]
    split
    · exact .inl rfl
    · exact .inr rfl
  · exact congrArg LineUnit.condition (Vector.getElem_set_self n.isLt)

/-- One line of the cancelling (R46). -/
def cancelRing (c : Centre) (s : State) (n : LineId) : State :=
  match (s.line n).condition with
  | .ringing _ link ch => if link = c then s.stopRing n ch else s
  | _ => s

theorem cancelRing_fades (c : Centre) (s : State) (n : LineId) : Fades s (cancelRing c s n) ∧
    ∀ t ch, (s.line n).condition = .ringing t c ch →
      (cancelRing c s n).channel ch = .free ∧ ((cancelRing c s n).line n).condition = .idle := by
  unfold cancelRing
  split
  · next t link ch h =>
    split
    · next hl =>
      subst hl
      obtain ⟨h1, h2, h3⟩ := stopRing_fades s n ch
      refine ⟨h1, fun t' ch' h' => ?_⟩
      obtain ⟨-, -, rfl⟩ := Condition.ringing.inj (h.symm.trans h')
      exact ⟨h2, h3⟩
    · next hl =>
      refine ⟨Fades.refl s, fun t' ch' h' => ?_⟩
      obtain ⟨-, rfl, -⟩ := Condition.ringing.inj (h.symm.trans h')
      exact absurd rfl hl
  · next h => exact ⟨Fades.refl s, fun t ch h' => absurd h' (h t c ch)⟩

theorem foldl_cancelRing (c : Centre) (xs : List LineId) (s : State) : Fades s (xs.foldl (cancelRing c) s) ∧
    ∀ n ∈ xs, ∀ t ch, (s.line n).condition = .ringing t c ch →
      (xs.foldl (cancelRing c) s).channel ch = .free ∧ ((xs.foldl (cancelRing c) s).line n).condition = .idle := by
  induction xs generalizing s with
  | nil => exact ⟨Fades.refl s, by simp⟩
  | cons m xs ih =>
    obtain ⟨h1, h2⟩ := cancelRing_fades c s m
    obtain ⟨k1, k2⟩ := ih (cancelRing c s m)
    rw [List.foldl_cons]
    refine ⟨h1.trans k1, fun n hn t ch hring => ?_⟩
    have keep (hf : (cancelRing c s m).channel ch = .free) (hi : ((cancelRing c s m).line n).condition = .idle) :
        (xs.foldl (cancelRing c) (cancelRing c s m)).channel ch = .free ∧
          ((xs.foldl (cancelRing c) (cancelRing c s m)).line n).condition = .idle :=
      ⟨(k1.channels ch).elim (fun h => h) (·.trans hf), (k1.lines n).elim (fun h => h) (·.trans hi)⟩
    by_cases hm : n = m
    · subst hm
      obtain ⟨hf, hi⟩ := h2 t ch hring
      exact keep hf hi
    · have hn : n ∈ xs := (List.mem_cons.1 hn).resolve_left hm
      have hline : ((cancelRing c s m).line n).condition = .ringing t c ch := by
        rw [← hring]
        unfold cancelRing
        split
        · split
          · rw [State.stopRing, enter_eq]
            show ((((s.give (.ring m false)).freeChannel _).lines.set m _)[n]).condition = _
            obtain ⟨o, ho⟩ := (s.give (.ring m false)).freeChannel_spec (‹ChannelId›)
            rw [ho, Fin.getElem_fin, Vector.getElem_set_ne m.isLt n.isLt fun h => hm (Fin.ext h.symm)]
            rfl
          · rfl
        · rfl
      exact k2 n hn t ch hline

theorem cancelRings_spec (s : State) (c : Centre) : Fades s (s.cancelRings c) ∧
    ∀ n t ch, (s.line n).condition = .ringing t c ch →
      (s.cancelRings c).channel ch = .free ∧ ((s.cancelRings c).line n).condition = .idle :=
  have h := foldl_cancelRing c (List.finRange 64) s
  ⟨h.1, fun n => h.2 n (List.mem_finRange n)⟩

/-! ### The channels -/

/-- No line rings for a link and no channel is reserved for it; a channel connected to it is that of a call it claims,
and no id stands twice (R120, R127). -/
def Rid (c : Centre) (k : (LineId → Condition) × Vector Channel 6 × List (CallId × Option Centre × Option ChannelId)) : Prop :=
  (∀ n, ∀ x ∈ (k.1 n).ring?, x.1 ≠ c) ∧ (∀ ch : ChannelId, ∀ n, k.2.1[ch] ≠ .reserved n c) ∧
    (∀ ch : ChannelId, ∀ n id, k.2.1[ch] = .connected n c id → (id, some c, some ch) ∈ k.2.2) ∧ (k.2.2.map (·.1)).Nodup

theorem rid_of_fades (hf : Fades s v) (hring : ∀ n t ch, (s.line n).condition = .ringing t c ch →
      v.channel ch = .free ∧ (v.line n).condition = .idle) (hids : (s.records.map (·.id)).Nodup)
    (hsound : ∀ ch, s.ChannelSound ch) : Rid c (claims v) := by
  have heach (n : LineId) (x : Centre × ChannelId) (h : (s.line n).condition.ring? = some x) :
      ∃ t, (s.line n).condition = .ringing t x.1 x.2 := by
    cases hc : (s.line n).condition <;> rw [hc] at h <;> cases h
    exact ⟨_, rfl⟩
  refine ⟨fun n x hx hxc => ?_, fun ch n h => ?_, fun ch n id h => ?_, ?_⟩
  · have hx : (v.line n).condition.ring? = some x := hx
    rcases hf.lines n with hi | hs
    · rw [hi] at hx
      cases hx
    · obtain ⟨t, ht⟩ := heach n x (hs ▸ hx)
      rw [(hring n t x.2 (hxc ▸ ht)).2] at hx
      cases hx
  · have h : v.channel ch = .reserved n c := h
    rcases hf.channels ch with he | he
    · rw [he] at h
      cases h
    · have hs := hsound ch
      rw [State.ChannelSound, ← he, h] at hs
      obtain ⟨t, ht⟩ := heach n (c, ch) hs
      rw [(hring n t ch ht).1] at h
      cases h
  · have h : v.channel ch = .connected n c id := h
    rcases hf.channels ch with he | he
    · rw [he] at h
      cases h
    · have hs := hsound ch
      rw [State.ChannelSound, ← he, h] at hs
      obtain ⟨r, hr, hid, -, hc, hch⟩ := hs
      refine List.mem_map.2 ⟨r, hf.records ▸ hr, ?_⟩
      rw [claimOf, hid, hc, hch]
  · show ((v.records.map claimOf).map (·.1)).Nodup
    rw [hf.records, List.map_map]
    exact hids

/-- A call of the lost link gives its channel up (R120). -/
theorem rid_orphan (h : Rid c (claims t)) (hr : r ∈ t.records) : Rid c (claims (t.orphan r c)) := by
  obtain ⟨h1, h2, h3, h4⟩ := h
  let a := (t.freeHeld r.channel).updRecord r.id unclaimedOf
  have hdef : t.orphan r c = a.offerOrWait r.id c.partner := rfl
  have hfree : ∃ os cs, t.freeHeld r.channel = { t with channels := cs, orders := os } ∧
      ∀ ch : ChannelId, cs[ch] = .free ∨ cs[ch] = t.channel ch ∧ r.channel ≠ some ch := by
    cases hch : r.channel with
    | none => exact ⟨t.orders, t.channels, rfl, fun ch => .inr ⟨rfl, by simp⟩⟩
    | some k =>
      obtain ⟨o, ho⟩ := t.freeChannel_spec k
      refine ⟨_, _, ho, fun ch => ?_⟩
      rw [Fin.getElem_fin, Vector.getElem_set]
      split
      · exact .inl rfl
      · next hne => exact .inr ⟨rfl, fun e => hne (by rw [Option.some.inj e])⟩
  obtain ⟨os, cs, hf, hcs⟩ := hfree
  have ha : claims a = ((claims t).1, cs, (t.records.map fun p => if p.id = r.id then unclaimedOf p else p).map claimOf) := by
    show claims ((t.freeHeld r.channel).updRecord r.id unclaimedOf) = _
    rw [hf]
    rfl
  rw [hdef, (Blind.offerOrWait r.id c.partner).keeps, ha]
  refine ⟨h1, fun ch n he => ?_, fun ch n id he => ?_, ?_⟩
  · rcases hcs ch with hc | ⟨hc, -⟩
    · exact absurd (hc.symm.trans he) (fun e => by cases e)
    · exact h2 ch n (hc.symm.trans he)
  · rcases hcs ch with hc | ⟨hc, hne⟩
    · exact absurd (hc.symm.trans he) (fun e => by cases e)
    · obtain ⟨p, hp, hpk⟩ := List.mem_map.1 (h3 ch n id (hc.symm.trans he))
      have hpr : p.id ≠ r.id := fun e => by
        have h4' : (t.records.map (·.id)).Nodup := by
          have : (claims t).2.2.map (·.1) = t.records.map (·.id) := List.map_map ..
          exact this ▸ h4
        obtain rfl := List.inj_on_of_nodup_map h4' hp hr e
        exact hne (congrArg (·.2.2) hpk)
      refine List.mem_map.2 ⟨p, List.mem_map.2 ⟨p, hp, if_neg hpr⟩, hpk⟩
  · have : ((t.records.map fun p => if p.id = r.id then unclaimedOf p else p).map claimOf).map (·.1) =
        (claims t).2.2.map (·.1) := by
      show _ = (t.records.map claimOf).map (·.1)
      rw [List.map_map, List.map_map, List.map_map]
      refine List.map_congr_left fun p _ => ?_
      dsimp only [Function.comp_apply]
      split <;> rfl
    rw [this]
    exact h4

/-- The loss of a link once its rings are cancelled (R120, R121). -/
def lossAfterRings (s : State) (c : Centre) : State :=
  ((s.loseDuty c).fallback.eachRecord fun s r => if r.claimant = some c then s.orphan r c else s).eachRecord fun s r =>
    if r.state.unclaimed then s.loseUnclaimed r c else s

theorem rid_lossAfterRings (h : Rid c (claims s)) : Rid c (claims (lossAfterRings s c)) := by
  let v := (s.loseDuty c).fallback
  have hv : claims v = claims s := (Blind.fallback.keeps _).trans ((Blind.loseDuty c).keeps _)
  have hpass : Rid c (claims (v.eachRecord fun s r => if r.claimant = some c then s.orphan r c else s)) := by
    refine State.each_keeps (fun t => Rid c (claims t)) _ (fun t id ht => ?_) _ _ (hv ▸ h)
    split
    · next r hr =>
      dsimp only
      split
      · exact rid_orphan ht (State.recordById_some hr).1
      · exact ht
    · exact ht
  have hlast := (Blind.eachRecord (F := fun s r => if r.state.unclaimed then s.loseUnclaimed r c else s) fun r =>
    Blind.ite (p := fun _ => r.state.unclaimed) (fun _ => .rfl) (Blind.loseUnclaimed r c) Blind.id).keeps
      (v.eachRecord fun s r => if r.claimant = some c then s.orphan r c else s)
  exact hlast.symm ▸ hpass

theorem rid_lossOfLink (hids : (s.records.map (·.id)).Nodup) (hsound : ∀ ch, s.ChannelSound ch) :
    Rid c (claims (s.lossOfLink c)) := by
  obtain ⟨hf, hring⟩ := cancelRings_spec s c
  exact rid_lossAfterRings (rid_of_fades hf hring hids hsound)

/-- With no call claimed by the link, no channel is routed to it (R127). -/
theorem channelsRouted_of_rid (h : Rid c (claims t)) (hc : ∀ r ∈ t.records, r.claimant ≠ some c) :
    t.channelsRouted c = 0 := by
  obtain ⟨-, h2, h3, -⟩ := h
  refine List.countP_eq_zero.2 fun k hk => ?_
  obtain ⟨i, hi, rfl⟩ := Vector.mem_iff_getElem.1 (Vector.mem_toList_iff.1 hk)
  have hch : t.channels[i] = t.channel ⟨i, hi⟩ := rfl
  rw [hch]
  cases he : t.channel ⟨i, hi⟩ with
  | free => simp [Channel.routedTo]
  | reserved n d =>
    have : d ≠ c := fun e => h2 ⟨i, hi⟩ n (e ▸ he)
    simp [Channel.routedTo, this]
  | connected n d id =>
    have : d ≠ c := fun e => by
      obtain ⟨r, hr, hk⟩ := List.mem_map.1 (h3 ⟨i, hi⟩ n id (e ▸ he))
      exact hc r hr (congrArg (·.2.1) hk)
    simp [Channel.routedTo, this]

end

end Sys2Proof.Proofs

/-! PROOFS. O9: a link that is lost holds no call (R120, R121, R152 to R156). -/

namespace Sys2Proof.Proofs

open Sys2Proof Sys2Proof.Machine

section

variable {s t u v w : State} {r : CallRecord} {c : Centre}

/-! ### The link of the partner -/

/-- Two states in which messages to a link do the same (R157). -/
structure SameLink (l : Link) (s t : State) : Prop where
  link : t.link l = s.link l
  lost : t.isLost l = s.isLost l
  tick : t.tick = s.tick

theorem SameLink.informed {l : Link} (h : SameLink l s t) (n : Notice) : SameLink l (s.informed l n) (t.informed l n) := by
  have hk : hearing t l n = hearing s l n := by rw [hearing, hearing, h.link, h.lost, h.tick]
  rw [informed_eq, informed_eq, hk]
  refine ⟨?_, ?_, ?_⟩
  · rw [State.setLink_link, State.setLink_link, if_pos rfl, if_pos rfl]
  · rw [State.setLink_isLost, State.setLink_isLost, h.lost]
  · rw [State.setLink_tick, State.setLink_tick, h.tick]

theorem SameLink.offeredAll {l : Link} (h : SameLink l s t) (xs : List CallRecord) :
    SameLink l (s.offeredAll l xs) (t.offeredAll l xs) := by
  induction xs generalizing s t with
  | nil => exact h
  | cons x xs ih => exact ih (h.informed _)

theorem SameLink.setDuty {l : Link} (h : SameLink l s t) (d : Centre) (k : Duty) : SameLink l s (t.setDuty d k) := by
  refine ⟨?_, ?_, ?_⟩
  · rw [← h.link]; cases d <;> cases l <;> rfl
  · rw [← h.lost]; cases d <;> cases l <;> rfl
  · rw [← h.tick]; cases d <;> rfl

/-! ### The state that is lost -/

/-- The state in which a link has just become LOST, before its calls are seen to (R154). -/
def lostNow (b : State) (c : Centre) : State :=
  (b.setCentre c { b.centre c with score := 256, health := .lost, recovery := 0, silence := none }).setLink c.link
    (b.link c.link).emptied

theorem enterLost_eq {b : State} (hl : (b.centre c).health ≠ .lost) (hw : b.window ≠ some c.link) :
    b.enterLost c = (lostNow b c).lossOfLink c := by
  let z := b.setCentre c { b.centre c with score := Config.lostScore, health := .lost, recovery := 0, silence := none }
  have hz : z.link c.link = b.link c.link := by cases c <;> rfl
  have hw : ¬ (z.setLink c.link (z.link c.link).emptied).window = some c.link := by
    rw [State.setLink_window, State.setCentre_window]
    exact hw
  refine (if_neg hl).trans ((if_neg hw).trans ?_)
  rw [hz]
  rfl

/-- What the loss of a link reads of the part before it (R120, R121). -/
structure Before (s b : State) (c : Centre) : Prop where
  records : b.records = s.records
  tick : b.tick = s.tick
  clock : b.clock = s.clock
  groups : b.groups = s.groups
  timers : b.timers = s.timers
  lines : b.lines = s.lines
  channels : b.channels = s.channels
  centre : b.centre = s.centre
  link : b.link c.partner.link = s.link c.partner.link
  window : b.window = s.window

theorem Before.fresh (s : State) (os : List Order) : Before s { s with orders := os } c := by
  refine ⟨rfl, rfl, rfl, rfl, rfl, rfl, rfl, funext fun d => ?_, ?_, rfl⟩
  · cases d <;> rfl
  · cases c <;> rfl

theorem Before.setLink {b : State} (h : Before s b c) (k : LinkController) : Before s (b.setLink c.link k) c := by
  obtain ⟨h1, h2, h3, h4, h5, h6, h7, h8, h9, h10⟩ := h
  refine ⟨?_, ?_, ?_, ?_, ?_, ?_, ?_, funext fun d => ?_, ?_, ?_⟩
  · rw [State.setLink_records, h1]
  · rw [State.setLink_tick, h2]
  · rw [← h3]; cases c <;> rfl
  · rw [← h4]; cases c <;> rfl
  · rw [← h5]; cases c <;> rfl
  · rw [← h6]; cases c <;> rfl
  · rw [← h7]; cases c <;> rfl
  · rw [State.setLink_centre, h8]
  · rw [State.setLink_link, if_neg (link_partner_ne c).2, h9]
  · rw [State.setLink_window, h10]

/-- What ends a link's health in one step (R149, R153, R156). -/
theorem loses_exec {e : Instr} {bytes : List Byte}
    (h : e = .silenceTimerExpiry c ∧ (s.centre c).silence.isSome = true ∨
      e = .breakLong c ∧ (s.link c.link).receive = .brk false ∨
      (e = .frameTimerExpiry c.link ∧ (s.link c.link).receive.inFrame = true ∨
        e = .frameBad c.link bytes ∧ judgeFrame bytes = .bad ∧
          (s.link c.link).receive.inBreak = false) ∧ 256 ≤ (s.centre c).score + 8)
    (hl : (s.centre c).health ≠ .lost) (hw : s.window ≠ some c.link) :
    ∃ b, exec e s = .next ((lostNow b c).lossOfLink c) ∧ Before s b c := by
  let b : State := { s with orders := [] }
  have hb : Before s b c := .fresh s []
  have of {e : Instr} {b : State} (he : exec e s = .next (b.enterLost c)) (hb : Before s b c) :
      ∃ b, exec e s = .next ((lostNow b c).lossOfLink c) ∧ Before s b c :=
    ⟨b, by rw [he, enterLost_eq (by rw [hb.centre]; exact hl) (by rw [hb.window]; exact hw)], hb⟩
  rcases h with ⟨rfl, hs⟩ | ⟨rfl, hr⟩ | ⟨he, hscore⟩
  · refine of (b := b) ?_ hb
    dsimp only [exec, execSilenceTimerExpiry, State.taking_eq]
    rw [show State.centre { s with orders := [] } = s.centre from hb.centre, hs]
    rfl
  · refine of (b := b.setReceive c.link (.brk true)) ?_ (hb.setLink _)
    dsimp only [exec, execBreakLong, State.taking_eq]
    rw [receive_fresh, hr]
  · have hb' : Before s (b.setReceive c.link .hunt) c := hb.setLink _
    refine of (b := b.setReceive c.link .hunt) ?_ hb'
    rw [exec_dropped he.symm, State.dropBadFrame, onCentre_link]
    refine congrArg _ ((if_neg (by rw [hb'.centre]; exact hl)).trans (if_pos ?_))
    rw [hb'.centre]
    exact hscore

/-! ### The lost link without its lines -/

section

variable {b : State} (h : Before s b c)

include h

theorem lostNow_records : (bare (lostNow b c)).records = s.records ∧ (bare (lostNow b c)).tick = s.tick := by
  rw [← h.records, ← h.tick]
  cases c <;> exact ⟨rfl, rfl⟩

theorem lostNow_kin : Kin c.partner s (bare (lostNow b c)) := by
  refine ⟨?_, ?_, ?_, ?_, ?_⟩
  · exact (lostNow_records h).2
  · rw [← h.clock]; cases c <;> rfl
  · rw [← h.groups]; cases c <;> rfl
  · rw [← h.timers]; cases c <;> rfl
  · rw [← h.centre]; cases c <;> rfl

theorem lostNow_centre : (bare (lostNow b c)).centre c.partner = s.centre c.partner ∧ (bare (lostNow b c)).centre c =
    { s.centre c with score := 256, health := .lost, recovery := 0, silence := none } := by
  rw [← h.centre]
  cases c <;> exact ⟨rfl, rfl⟩

theorem lostNow_sameLink : SameLink c.partner.link s (bare (lostNow b c)) := by
  refine ⟨?_, ?_, (lostNow_records h).2⟩
  · rw [← h.link]
    cases c <;> rfl
  · have hc := (lostNow_centre h).1
    unfold State.isLost
    rw [show c.partner.link.centre? = some c.partner by cases c <;> rfl]
    dsimp only
    rw [hc]

theorem lostNow_plain (hids : (s.records.map (·.id)).Nodup) (hlines : (s.records.map (·.line)).Nodup) :
    Plain (bare (lostNow b c)) :=
  ⟨by rw [(lostNow_records h).1]; exact hids, by rw [(lostNow_records h).1]; exact hlines, rfl⟩

theorem lostNow_sound (hs : ∀ ch, s.ChannelSound ch) (ch : ChannelId) : (lostNow b c).ChannelSound ch := by
  have hch : (lostNow b c).channel ch = s.channel ch := by
    rw [State.channel, State.channel, ← h.channels]
    cases c <;> rfl
  have hline (n : LineId) : (lostNow b c).line n = s.line n := by
    rw [State.line, State.line, ← h.lines]
    cases c <;> rfl
  have hrecs : (lostNow b c).records = s.records := (lostNow_records h).1
  have hsound := hs ch
  unfold State.ChannelSound at hsound ⊢
  rw [hch]
  cases hk : s.channel ch with
  | free => trivial
  | reserved n d =>
    rw [hk] at hsound
    dsimp only at hsound ⊢
    rw [hline]
    exact hsound
  | connected n d id =>
    rw [hk] at hsound
    dsimp only at hsound ⊢
    rw [hrecs]
    exact hsound

end

/-! ### What the part's own terms say of it -/

theorem dutyTold_sameLink (h : SameLink c.partner.link s u) (hc : u.centre c.partner = s.centre c.partner) :
    SameLink c.partner.link (if returns u c then s.informed c.partner.link
      (if (s.centre c.partner).duty = .handingOver then .handoverCancelled else .dutyResumed) else s) (dutyTold u c) := by
  have hleft : SameLink c.partner.link s (leftDuty u c) := by
    unfold leftDuty
    split
    · exact h.setDuty ..
    · exact h
  unfold dutyTold
  rw [hc]
  split
  · exact (hleft.setDuty ..).informed _
  · exact hleft

theorem returns_eq (hc : u.centre c.partner = s.centre c.partner) : returns u c =
    (decide ((s.centre c.partner).duty = .handingOver) ||
      (decide ((s.centre c.partner).duty = .standby) && (s.centre c.partner).health.heard)) := by
  rw [returns, resumes, hc]

theorem link_lossOfLink (hp : Plain u) (hl : (u.centre c).health = .lost)
    (hclaim : ∀ r ∈ u.records, r.claimant = some c → r.state.unclaimed = false ∧ r.origin ≠ some c)
    (hoff : ∀ r ∈ u.records, r.offered.has c = true → r.state ≠ .waiting) :
    (u.lossOfLink c).link c.link = u.link c.link ∧
    (u.lossOfLink c).centre c = { u.centre c with
      duty := if (u.centre c).duty = .handingOver then .standby else (u.centre c).duty } ∧
    (u.lossOfLink c).centre c.partner =
      { u.centre c.partner with duty := if returns u c then .active else (u.centre c.partner).duty } := by
  have hne := (link_partner_ne c).1
  have hlink {a b : State} (hab : a.link c.link = b.link c.link) (xs : List CallRecord) :
      (a.offeredAll c.partner.link xs).link c.link = b.link c.link := by rw [offeredAll_link_ne a hne, hab]
  have htold : (dutyTold u c).link c.link = u.link c.link := by
    have hleft : (leftDuty u c).link c.link = u.link c.link := by
      unfold leftDuty
      split
      · cases c <;> rfl
      · rfl
    unfold dutyTold
    split
    · rw [informed_eq, State.setLink_link, if_neg hne, ← hleft]
      cases c <;> rfl
    · exact hleft
  have hcentre (e : Centre) : (u.lossOfLink c).centre e = (dutied u c).centre e := by
    rw [lossOfLink_eq hp hl hclaim hoff, holding_centre, linked_centre (offeredAll_linked (Linked.refl _) _),
      linked_centre (offeredAll_linked (Linked.refl _) _), dutied, holding_centre]
  obtain ⟨h1, h2⟩ := dutied_centre u c
  refine ⟨?_, ?_, (hcentre _).trans h1⟩
  · rw [lossOfLink_eq hp hl hclaim hoff]
    have h := hlink (hlink (hlink htold ((u.registerOrder.filter (dueNow u c)).map (metNow u c))) (orphanOffers u c))
      (otherOffers u c)
    rw [← h]
    generalize State.offeredAll _ _ (otherOffers u c) = w
    cases c <;> rfl
  · rw [hcentre, h2, leftDuty]
    split
    · next hd => cases c <;> rfl
    · rfl

/-- A claimed call is neither unclaimed nor a transfer (R118). -/
theorem sound_claimed {d : Centre} (h : r.Sound) (hc : r.claimant = some d) :
    r.state.unclaimed = false ∧ r.origin = none ∧ r.offered = .empty := by
  obtain ⟨hstate, -, hoff, hfields, -⟩ := h
  have hst := hstate.1 (by rw [hc]; rfl)
  refine ⟨?_, (hfields (by rw [hc]; rfl)).1, not_not.1 fun he => ?_⟩
  · rcases hst with hst | hst <;> rw [hst] <;> rfl
  · rcases hst with hst | hst <;> rw [hoff.1 he] at hst <;> cases hst

theorem sound_unclaimed (h : r.Sound) (hc : r.claimant = none) : r.state.unclaimed = true := by
  obtain ⟨hstate, -⟩ := h
  have hst : ¬ (r.state = .connected ∨ r.state = .held) := fun hst => by
    have := hstate.2 hst
    rw [hc] at this
    cases this
  cases hs : r.state <;> simp_all [CallState.unclaimed]

theorem empty_has (d : Centre) : CentreSet.empty.has d = false := by cases d <;> rfl

/-- No record holds to the lost link after it is lost (R120, R121). -/
theorem bereftNow_free (h : r.Sound) : (bereftNow u c r).claimant ≠ some c ∧ (bereftNow u c r).offered.has c = false ∧
    (bereftNow u c r).origin ≠ some c := by
  unfold bereftNow
  split
  · next hc =>
    obtain ⟨h1, h2, -⟩ := orphaned_offered u r c
    refine ⟨?_, h1, by rw [h2, (sound_claimed h hc).2.1]; simp⟩
    unfold State.orphaned
    dsimp only
    split <;> simp [State.asOffered]
  · next hc =>
    cases hr : r.claimant with
    | some d =>
      obtain ⟨hu, ho, he⟩ := sound_claimed h hr
      rw [hu, if_neg Bool.false_ne_true]
      exact ⟨hr ▸ hc, by rw [he]; exact empty_has c, by rw [ho]; simp⟩
    | none =>
      rw [sound_unclaimed h hr, if_pos rfl]
      have hm : (metNow u c r).claimant = none := (metNow_keeps u c r).2.2.1.trans hr
      generalize metNow u c r = q at hm
      have hdis : (disowned q c).claimant = none ∧ (disowned q c).origin ≠ some c := by
        unfold disowned
        split
        · exact ⟨hm, by simp [originLost]⟩
        · next ho => exact ⟨hm, ho⟩
      rw [bereft_eq]
      generalize disowned q c = p at hdis
      obtain ⟨hp, hpo⟩ := hdis
      split
      · have hout : (outOf p c).offered.has c = false := (has_remove p.offered).1
        unfold lostOffer
        split
        · exact ⟨by rw [show (outOf p c).claimant = none from hp]; simp, hout, hpo⟩
        · split
          · refine ⟨by rw [show (u.asOffered (outOf p c) c.partner).claimant = none from hp]; simp, ?_, hpo⟩
            rw [← hout]
            show ((outOf p c).offered.add c.partner).has c = _
            cases c <;> rfl
          · refine ⟨fun e => ?_, hout, hpo⟩
            exact absurd (hp.symm.trans e) (by simp)
      · next hno => exact ⟨by rw [hp]; simp, by simpa using hno, hpo⟩

end

/-- Settles O9: the calls by the loss in a state without lines, which the loss does not see; the rings and the channels
by what each step of it frees. -/
theorem lostLinkHoldsNoCall : Obligations.LostLinkHoldsNoCall := by
  intro s c e bytes he hl hw hids hcalls hchannels
  obtain ⟨b, hexec, hb⟩ := loses_exec he hl hw
  obtain ⟨-, -, -, hnd, -⟩ := hids
  obtain ⟨hlines, -, -, hsound, -⟩ := hcalls
  obtain ⟨hchsound, -⟩ := hchannels
  have hidsnd : (s.records.map (·.id)).Nodup := (List.nodup_append.1 hnd).1
  have hlinesnd : (s.records.map (·.line)).Nodup := (List.nodup_append.1 hlines).1
  let u := bare (lostNow b c)
  have hp : Plain u := lostNow_plain hb hidsnd hlinesnd
  have hkin : Kin c.partner s u := lostNow_kin hb
  obtain ⟨hrecs, htick⟩ := lostNow_records hb
  obtain ⟨hcd, hcc⟩ := lostNow_centre hb
  have hlost : (u.centre c).health = .lost := by rw [hcc]
  have hclaim : ∀ r ∈ u.records, r.claimant = some c → r.state.unclaimed = false ∧ r.origin ≠ some c := fun r hr hc => by
    obtain ⟨h1, h2, -⟩ := sound_claimed (hsound r (hrecs ▸ hr)) hc
    exact ⟨h1, by rw [h2]; simp⟩
  have hoff : ∀ r ∈ u.records, r.offered.has c = true → r.state ≠ .waiting := fun r hr ho => by
    obtain ⟨-, -, hoff, -⟩ := hsound r (hrecs ▸ hr)
    rw [hoff.1 (not_empty_of_has ho)]
    simp
  let t := (lostNow b c).lossOfLink c
  have hbare : bare t = u.lossOfLink c := bare_lossOfLink ..
  have hform := lossOfLink_eq hp hlost hclaim hoff
  have htrecs : t.records = s.records.map (bereftNow u c) := by
    have : t.records = (bare t).records := rfl
    rw [this, hbare, hform, ← hrecs]
    rfl
  have hlink (l : Link) : t.link l = (u.lossOfLink c).link l := by rw [← hbare, Blind.link_bare]
  have hcentre (d : Centre) : t.centre d = (u.lossOfLink c).centre d := by rw [← hbare, Blind.centre_bare]
  obtain ⟨k1, k2, k3⟩ := link_lossOfLink hp hlost hclaim hoff
  have hfree : ∀ q ∈ t.records, q.claimant ≠ some c ∧ q.offered.has c = false ∧ q.origin ≠ some c := fun q hq => by
    obtain ⟨r, hr, rfl⟩ := List.mem_map.1 (htrecs ▸ hq)
    exact bereftNow_free (hsound r hr)
  have hrid : Rid c (claims t) :=
    rid_lossOfLink (by rw [show (lostNow b c).records = s.records from hrecs]; exact hidsnd) (lostNow_sound hb hchsound)
  have hul : u.link c.link = (b.link c.link).emptied := by cases c <;> rfl
  refine ⟨t, hexec, ?_, ?_, ?_, ?_, ?_, ?_, ?_, hfree, hrid.1, channelsRouted_of_rid hrid fun r hr => (hfree r hr).1,
    fun r hr hc => ?_, ?_, ?_⟩
  · rw [hcentre, k2, hcc]
  · rw [hcentre, k2, hcc]
  · rw [hcentre, k2, hcc]
  · rw [hcentre, k2, hcc]
  · rw [hlink, k1, hul]; rfl
  · rw [hlink, k1, hul]; rfl
  · rw [hlink, k1, hul]; rfl
  · refine ⟨bereftNow u c r, htrecs ▸ List.mem_map_of_mem hr, ?_⟩
    rw [bereftNow, if_pos hc]
    obtain ⟨h1, h2⟩ := orphaned_keeps u r c
    refine ⟨h1, h2, ?_⟩
    unfold State.orphaned
    dsimp only
    split <;> exact ⟨rfl, rfl, rfl⟩
  · rw [hcentre, k2, hcc]
  · intro d was resumes
    have hret : returns u c = (decide (was = .handingOver) || resumes) := returns_eq hcd
    refine ⟨?_, ?_⟩
    · rw [hcentre, k3, hcd, hret]
    · intro returns' called due met calls welcome orphans others
      have hdue : dueNow u c = due := funext fun r => by rw [dueNow, hret, hcd]
      have hmet : metNow u c = met := funext fun r => by rw [metNow, hdue, hkin.asOffered]
      have horphaned (r : CallRecord) : u.orphaned r c = s.orphaned r c := hkin.orphaned r
      have hbereft (r : CallRecord) : u.bereft r c = s.bereft r c := hkin.bereft (fun _ => by rw [hcd]) r
      have hpassed : (fun r => u.passedOn r c) = fun r => s.passedOn r c :=
        funext fun r => by rw [State.passedOn, hbereft, State.passedOn]
      have horder : u.registerOrder = calls := by
        rw [State.registerOrder, hrecs, htick]
        rfl
      refine ⟨?_, ?_⟩
      · rw [htrecs]
        refine List.map_congr_left fun r _ => ?_
        rw [bereftNow, horphaned, hmet, hbereft]
      · have hall : orphanOffers u c = if (s.centre d).health.heard then orphans else [] := by
          rw [orphanOffers, hcd, horder, show (u.orphaned · c) = (s.orphaned · c) from funext horphaned]
        have hothers : otherOffers u c = others.map (s.bereft · c) := by
          rw [otherOffers, horder, hmet, hpassed, show (u.bereft · c) = (s.bereft · c) from funext hbereft]
        have htold : SameLink d.link called (dutyTold u c) := by
          have h := dutyTold_sameLink (lostNow_sameLink hb) hcd
          rw [hret] at h
          exact h
        rw [hlink, hform, hdue, hmet, horder, hall, hothers]
        have h := ((htold.offeredAll welcome).offeredAll (if (s.centre d).health.heard then orphans else [])).offeredAll
          (others.map (s.bereft · c))
        rw [← h.link]
        generalize State.offeredAll (State.offeredAll (State.offeredAll (dutyTold u c) _ _) _ _) _ _ = w
        cases d <;> rfl

end Sys2Proof.Proofs

/-! PROOFS. Two of the invariant's parts are not kept by every step, since the invariant admits states that no step
leads to (R14, R15, R89, R90). One state shows both: it meets the whole invariant, and one command breaks the scanner's
part of it and another the receivers'. -/

namespace Sys2Proof.Proofs

open Sys2Proof Sys2Proof.Machine

/-! ### The state -/

/-- A group between two passes. -/
def pausedGroup : GroupRecord :=
  { defaultGroup with pass := .idleWait, passTimer := some { length := 100, due := 100 } }

/-- A group that measures its position 0 for the scanner. -/
def scanningGroup : GroupRecord :=
  { pausedGroup with
    pass := .inPass
    port := some { owner := .scanner (.line 0), settle := .ready, timer := some { length := 20, due := 20 }
                   fate := .live } }

/-- A SILENT group that has its probe on the port and still runs a probe delay. A probe is placed only when its delay
has expired (R14). -/
def doublyProbing : GroupRecord :=
  { defaultGroup with
    health := .silent, noSampleRun := 3, probeDelay := some { length := 100, due := 100 }
    port := some { owner := .scanner .probe, settle := .ready, timer := some { length := 20, due := 20 }
                   fate := .live } }

/-- An IDENTIFYING record of the category RECALL. A recall's record is never IDENTIFYING (R89). -/
def identifyingRecall (i : Fin 16) : CallRecord :=
  { CallRecord.create (Fin.ofNat 256 (i.val + 1)) (Fin.ofNat 64 i.val) 0 none with category := .recall }

/-- A loaded part with such a SILENT group 7, with a register full of such records on lines 0 to 15, and with line 16
rung by A, one sample short of its answer. -/
def overstated : State :=
  { State.reset with
    load := none
    groups := #v[pausedGroup, pausedGroup, scanningGroup, pausedGroup, pausedGroup, pausedGroup, pausedGroup,
      doublyProbing]
    entries := .replicate 64 defaultEntry
    lines := .ofFn fun n : LineId =>
      if n.val < 16 then { condition := .inCall, tone := .registered }
      else if n.val = 16 then { condition := .ringing { length := 30000, due := 30000 } .a 0, tone := .none }
      else { condition := .idle, tone := .none }
    classifiers := .ofFn fun n : LineId =>
      if n.val = 16 then { Classifier.reset defaultProfile.term with candidate := some .offhook, count := 2 }
      else .reset defaultProfile.term
    captures := .ofFn fun n : LineId =>
      if n.val < 16 then some { arrival := 0, window := { length := 3000, due := 3000 } } else none
    receivers := (((Vector.replicate 8 { listening := none, waiting := [] }).set 0
      { listening := some 0, waiting := [1, 2, 3, 4, 5, 6, 7] }).set 1
      { listening := some 8, waiting := [9, 10, 11, 12, 13, 14, 15] })
    records := (List.finRange 16).map identifyingRecall
    channels := State.reset.channels.set 0 (.reserved 16 .a) }

/-! ### It meets the invariant -/

theorem overstated_links : InvLinks overstated := by
  have queues : ∀ l : Link, (overstated.link l).Ordered := by
    intro l; unfold LinkController.Ordered; cases l <;> decide +kernel
  have scores : overstated.centreA.Sound ∧ overstated.centreB.Sound ∧ overstated.QuietWhenLost .a ∧
      overstated.QuietWhenLost .b := by
    unfold CentreControl.Sound State.QuietWhenLost; decide +kernel
  exact ⟨queues .a, queues .b, queues .s, scores⟩

theorem overstated_scan : InvScan overstated := by
  have sound : ∀ g, (overstated.group g).Sound := by unfold GroupRecord.Sound; decide +kernel
  have live : ∀ g, (overstated.group g).Live := by unfold GroupRecord.Live; decide +kernel
  have tests : ∀ g, overstated.PortSound g ∧ overstated.TestSound g := by
    unfold State.PortSound State.TestSound; decide +kernel
  refine ⟨fun g => ⟨sound g, live g, tests g⟩, ?_⟩
  unfold State.loading; decide +kernel

theorem overstated_ids : InvIds overstated := by unfold InvIds; decide +kernel

theorem overstated_calls : InvCalls overstated := by unfold InvCalls CallRecord.Sound; decide +kernel

theorem overstated_channels : InvChannels overstated := by
  have reserved : overstated.channel 0 = .reserved 16 .a := by decide +kernel
  have rung : (overstated.line 16).condition.ring? = some (.a, 0) := by decide +kernel
  have free : ∀ ch : ChannelId, ch ≠ 0 → overstated.channel ch = .free := by decide +kernel
  refine ⟨fun ch => ?_, by decide +kernel⟩
  unfold State.ChannelSound
  by_cases h : ch = 0
  · subst h
    rw [reserved]
    exact rung
  · rw [free ch h]
    trivial

theorem overstated_captures : InvCaptures overstated := by unfold InvCaptures; decide +kernel

theorem overstated_lines : InvLines overstated := by unfold InvLines State.unread; decide +kernel

theorem overstated_classifiers : InvClassifiers overstated := by
  unfold InvClassifiers Classifier.Sound State.unread; decide +kernel

theorem overstated_inv : Inv overstated := by
  have duty : InvDuty overstated := by unfold InvDuty; decide +kernel
  have store : InvStore overstated := by unfold InvStore; decide +kernel
  have supply : InvSupply overstated := by unfold InvSupply InputState.Sound; decide +kernel
  have load : InvLoad overstated := by unfold InvLoad State.loading State.unread; decide +kernel
  exact ⟨overstated_links, duty, store, supply, load, overstated_scan, overstated_ids, overstated_calls,
    overstated_channels, overstated_captures, overstated_lines, overstated_classifiers⟩

/-- The invariant does not read the commands that wait. -/
theorem overstated_inv_pending (cs : List Instr) : Inv { overstated with pending := cs } := overstated_inv

/-! ### Two steps that leave it -/

/-- The sample of the probe recovers group 7, whose probe delay runs on. -/
theorem overstated_recovers : ∃ t, exec (.orderReady 7 false 2870 0 true) overstated = .next t ∧
    (t.group 7).health ≠ .silent ∧ (t.group 7).probeDelay.isSome = true :=
  ⟨_, rfl, by decide +kernel⟩

/-- Refutes O58: a group may be SILENT with its probe out and a probe delay running, and its recovery stops no delay
(R15), which a group that is not SILENT does not run. -/
theorem not_stepKeepsScanAndTests : ¬ Obligations.StepKeepsScanAndTests := by
  intro h
  obtain ⟨t, ht, hheard, hdelay⟩ := overstated_recovers
  obtain ⟨-, hgroups, -⟩ :=
    h { overstated with pending := [.orderReady 7 false 2870 0 true] } t (overstated_inv_pending _) ht
  obtain ⟨⟨-, -, -, -, -, -, -, -, hstopped, -⟩, -⟩ := hgroups 7
  rw [(hstopped hheard).1] at hdelay
  exact absurd hdelay (by decide)

/-- The answer on line 16 displaces the record of line 15, whose capture goes on while its overflow entry takes the
result that a recall is given (R90). -/
theorem overstated_displaces : ∃ t, exec (.orderReady 2 false 410 1640 true) overstated = .next t ∧
    (t.capture 15).isSome = true ∧ (∀ r ∈ t.records, r.line ≠ 15) ∧
    ∀ e ∈ t.overflow, e.line = 15 → e.result ≠ none :=
  ⟨_, rfl, by decide +kernel⟩

/-- Refutes O60: an IDENTIFYING record may be of the category RECALL, and its displacement gives its overflow entry a
result, while its line is still in capture. -/
theorem not_stepKeepsLines : ¬ Obligations.StepKeepsLines := by
  intro h
  obtain ⟨t, ht, hcapture, hrecords, hoverflow⟩ := overstated_displaces
  obtain ⟨⟨hlines, -⟩, -⟩ :=
    h { overstated with pending := [.orderReady 2 false 410 1640 true] } t (overstated_inv_pending _) ht
  obtain ⟨r, hr, hline, -⟩ | ⟨e, he, hline, hresult⟩ := (hlines 15).mp hcapture
  · exact hrecords r hr hline
  · exact hoverflow e he hline hresult

end Sys2Proof.Proofs

/-! PROOFS. What the invariants of the register, the channel table and the duties read of the state (R81 to R95, R103,
R118 to R127): the face of the state, and the operations that leave it as it is. -/

namespace Sys2Proof.Proofs

open Sys2Proof Sys2Proof.Machine

/-! ### The face of the state -/

/-- What a call record says of its place in the register and the channel table. -/
structure Stake where
  id : CallId
  line : LineId
  holder : Option Centre
  channel : Option ChannelId

def stakeOf (r : CallRecord) : Stake := ⟨r.id, r.line, r.claimant, r.channel⟩

/-- What the invariants read of the register, the lines, the channels and the centre links. -/
structure Face where
  records : List CallRecord
  queue : List LineId
  left : List CallId
  overflowed : Bool
  counter : CallId
  condition : LineId → Condition
  channel : ChannelId → Channel
  centre : Centre → CentreControl

/-- The same with the stakes alone of the records, and no centre link. -/
structure Ledger where
  calls : List Stake
  queue : List LineId
  left : List CallId
  overflowed : Bool
  counter : CallId
  condition : LineId → Condition
  channel : ChannelId → Channel

def face (s : State) : Face :=
  { records := s.records, queue := s.overflow.map (·.line), left := s.abandoned.map (·.id)
    overflowed := s.overflowed, counter := s.idCounter, condition := fun n => (s.line n).condition
    channel := s.channel, centre := s.centre }

def ledger (s : State) : Ledger :=
  { calls := s.records.map stakeOf, queue := s.overflow.map (·.line), left := s.abandoned.map (·.id)
    overflowed := s.overflowed, counter := s.idCounter, condition := fun n => (s.line n).condition
    channel := s.channel }

section

variable {s t : State}

theorem ledger_of_face (h : face t = face s) : ledger t = ledger s :=
  congrArg (fun x : Face => (⟨x.records.map stakeOf, x.queue, x.left, x.overflowed, x.counter, x.condition, x.channel⟩ :
    Ledger)) h

theorem records_of_face (h : face t = face s) : t.records = s.records := congrArg Face.records h

theorem centre_of_face (h : face t = face s) : t.centre = s.centre := congrArg Face.centre h

/-! ### Operations that leave it -/

theorem face_setLink (s : State) (l : Link) (k : LinkController) : face (s.setLink l k) = face s := by
  cases l <;> rfl

theorem face_submit (s : State) (l : Link) (m : Message) : face (s.submit l m) = face s := by
  obtain ⟨k, hk⟩ := s.submit_spec l m
  rw [hk, face_setLink]

theorem face_notify (s : State) (l : Link) (n : Notice) : face (s.notify l n) = face s := face_submit ..

theorem face_notifyAll (s : State) (n : Notice) : face (s.notifyAll n) = face s := by
  unfold State.notifyAll
  rw [face_notify, face_notify, face_notify]

theorem face_reply (s : State) (l : Link) (type : Byte) (code : ReplyCode) (fields : List Byte) :
    face (s.reply l type code fields) = face s := face_submit ..

theorem face_refuse (s : State) (l : Link) (type : Byte) (code : ReplyCode) : face (s.refuse l type code) = face s :=
  face_reply ..

theorem face_leave (s : State) (c : Centre) (id : CallId) (n : Option Notice) : face (s.leave c id n) = face s :=
  face_setLink ..

theorem face_withdrawFrom (s : State) (r : CallRecord) (c : Centre) (x : EndReason) :
    face (s.withdrawFrom r c x) = face s := face_leave ..

theorem face_notifyOrigin (s : State) (r : CallRecord) (n : Notice) : face (s.notifyOrigin r n) = face s := by
  unfold State.notifyOrigin
  split
  · split
    · rfl
    · exact face_notify ..
  · rfl

theorem face_placeOffer (s : State) (id : CallId) (c : Centre) : face (s.placeOffer id c) = face s := by
  unfold State.placeOffer
  split
  · exact face_notify ..
  · rfl

theorem face_each {α : Type} (s : State) (xs : List α) {f : State → α → State}
    (hf : ∀ u x, face (f u x) = face u) : face (s.each xs f) = face s :=
  State.each_keeps (fun u => face u = face s) f (fun u x hu => (hf u x).trans hu) s xs rfl

theorem face_notifyLine (s : State) (n : LineId) (x : Notice) : face (s.notifyLine n x) = face s := by
  refine face_each s _ fun u l => ?_
  split
  · exact face_notify ..
  · rfl

theorem face_notifyCondition (s : State) (n : LineId) : face (s.notifyCondition n) = face s := face_notifyLine ..

theorem face_give (s : State) (o : Order) : face (s.give o) = face s := rfl
theorem face_setGroup (s : State) (g : GroupId) (r : GroupRecord) : face (s.setGroup g r) = face s := rfl
theorem face_setTest (s : State) (g : GroupId) (r : Option TestRecord) : face (s.setTest g r) = face s := rfl
theorem face_setClassifier (s : State) (n : LineId) (k : Classifier) : face (s.setClassifier n k) = face s := rfl
theorem face_setCapture (s : State) (n : LineId) (k : Option Capture) : face (s.setCapture n k) = face s := rfl
theorem face_setEntry (s : State) (n : LineId) (e : Entry) : face (s.setEntry n e) = face s := rfl
theorem face_setStored (s : State) (i : Item) (c : Option ItemContent) : face (s.setStored i c) = face s := rfl

/-- A line of the same condition. -/
theorem face_setLine (s : State) (n : LineId) (u : LineUnit) (h : u.condition = (s.line n).condition) :
    face (s.setLine n u) = face s := by
  have hc : (fun m => ((s.setLine n u).line m).condition) = fun m => (s.line m).condition := by
    funext m
    rw [State.setLine_line]
    split
    · next e => rw [h, e]
    · rfl
  show ({ face s with condition := fun m => ((s.setLine n u).line m).condition } : Face) = face s
  rw [hc]
  rfl

theorem face_retone (s : State) (n : LineId) : face (s.retone n) = face s := by
  unfold State.retone
  dsimp only
  split
  · rfl
  · exact (face_give ..).trans (face_setLine _ _ _ rfl)

theorem face_startCapture (s : State) (n : LineId) (arrival : Tick) : face (s.startCapture n arrival) = face s := by
  unfold State.startCapture
  dsimp only
  split <;> rfl

theorem face_leaveReceiver (s : State) (n : LineId) : face (s.leaveReceiver n) = face s := by
  obtain ⟨r, o, h⟩ := s.leaveReceiver_spec n
  rw [h]
  rfl

theorem face_dropCapture (s : State) (n : LineId) : face (s.dropCapture n) = face s := by
  unfold State.dropCapture
  split
  · rw [face_leaveReceiver, face_setCapture]
  · rfl

theorem face_restoreDrives (s : State) (r : TestRecord) : face (s.restoreDrives r) = face s := by
  unfold State.restoreDrives
  dsimp only
  rw [face_give]
  split
  · split <;> rfl
  · rfl
  · rfl

/-! ### The scanner and the store -/

theorem face_arbitrate (s : State) (g : GroupId) : face (s.arbitrate g) = face s := by
  unfold State.arbitrate
  dsimp only
  split
  · rfl
  · split
    · rfl
    · split <;> rfl

theorem face_ready (s : State) (g : GroupId) (p : ScanPurpose) : face (s.ready g p) = face s := rfl
theorem face_sampled (s : State) (g : GroupId) : face (s.sampled g) = face s := rfl
theorem face_startProbeDelay (s : State) (g : GroupId) : face (s.startProbeDelay g) = face s := rfl
theorem face_updTest (s : State) (g : GroupId) (r : TestRecord) : face (s.updTest g r) = face s := rfl

theorem face_startPass (s : State) (g : GroupId) : face (s.startPass g) = face s := by
  unfold State.startPass
  dsimp only
  split <;> rfl

theorem face_endPass (s : State) (g : GroupId) : face (s.endPass g) = face s := by
  unfold State.endPass
  split
  · exact face_startPass s g
  · rfl

theorem face_beginPathCheck (s : State) (g : GroupId) : face (s.beginPathCheck g) = face s := by
  unfold State.beginPathCheck
  dsimp only
  split
  · rfl
  · exact face_endPass s g

theorem face_scanFrom (s : State) (g : GroupId) (k : Nat) : face (s.scanFrom g k) = face s := by
  unfold State.scanFrom
  split
  · rfl
  · exact face_beginPathCheck s g

theorem face_recoverGroup (s : State) (g : GroupId) : face (s.recoverGroup g) = face s := by
  unfold State.recoverGroup
  rw [face_startPass, face_notifyAll, face_setGroup]

theorem face_countCheck (s : State) (g : GroupId) (d : Bool) : face (s.countCheck g d) = face s := by
  unfold State.countCheck
  dsimp only
  generalize (if d then min ((s.group g).discrepancyRun + 1) 255 else 0) = disc
  generalize (if d then 0 else min ((s.group g).agreementRun + 1) 255) = agree
  split
  · rfl
  · split
    · rw [face_notifyAll, face_setGroup]
    · rfl
  · split
    · rw [face_notifyAll, face_setGroup]
    · rfl

theorem face_scanLostFit (s : State) (g : GroupId) (p : ScanPurpose) : face (s.scanLostFit g p) = face s := by
  unfold State.scanLostFit
  split
  · exact face_scanFrom ..
  · exact face_endPass ..
  · exact face_endPass ..
  · rfl
  · rfl

theorem face_refit (s : State) (g : GroupId) (f : Fin 9) : face (s.refit g f) = face s := by
  unfold State.refit
  dsimp only
  split
  · rfl
  · split
    · split
      · rfl
      · rw [face_arbitrate, face_startPass, face_setGroup]
    · split
      · rw [face_arbitrate, face_scanLostFit, face_setGroup]
      · rfl

theorem face_endPassTimer (s : State) (g : GroupId) : face (s.endPassTimer g) = face s := by
  unfold State.endPassTimer
  dsimp only
  split
  · rfl
  · split
    · rw [face_arbitrate, face_startPass, face_setGroup]
    · rfl

theorem face_endProbeDelay (s : State) (g : GroupId) : face (s.endProbeDelay g) = face s := by
  unfold State.endProbeDelay
  dsimp only
  split
  · rfl
  · rw [face_arbitrate, face_setGroup]

theorem face_endDwell (s : State) (g : GroupId) : face (s.endDwell g) = face s := by
  unfold State.endDwell
  split
  · rfl
  · split
    · rw [face_arbitrate, face_updTest]
    · rfl

theorem face_trackLine (s : State) (n : LineId) (r : Nat) : face (s.trackLine n r) = face s := by
  unfold State.trackLine
  dsimp only
  split
  · rfl
  · rw [face_notifyCondition, face_setClassifier]

theorem face_startWriting (s : State) : face s.startWriting = face s := by
  unfold State.startWriting
  split <;> rfl

theorem face_queueWrite (s : State) (i : Item) : face (s.queueWrite i) = face s := by
  unfold State.queueWrite
  dsimp only
  split
  · rfl
  · split
    · rw [face_startWriting]; rfl
    · rfl

theorem face_endWrite (s : State) (ok : Bool) : face (s.endWrite ok) = face s := by
  unfold State.endWrite
  split
  · split
    · dsimp only
      split
      · rw [face_setStored, face_startWriting]; rfl
      · rw [face_notifyAll, face_setStored, face_startWriting]; rfl
    · rfl
  · rfl

end

end Sys2Proof.Proofs

/-! PROOFS. The ledger of the register, the lines and the channels (R81 to R95, R126, R127): what makes it sound, with
what an operation may owe it on the way, and the single entries that keep it so. -/

namespace Sys2Proof.Proofs

open Sys2Proof Sys2Proof.Machine

/-! ### A sound ledger -/

/-- What a ledger may owe in the middle of an operation: a line whose condition is not entered yet, a call whose
channel is not entered yet, and calls that are missing from a full register. -/
structure Loose where
  line : Option LineId := none
  call : Option CallId := none
  short : Nat := 0

/-- No call, no overflow entry and no reserved channel names the line. -/
structure Ledger.Vacant (b : Ledger) (n : LineId) : Prop where
  calls : n ∉ b.calls.map (·.line)
  queue : n ∉ b.queue
  channel : ∀ ch c, b.channel ch ≠ .reserved n c

/-- A condition that ties the line to no call, no overflow entry and no channel. -/
def Plain' (k : Condition) : Prop := k ≠ .inCall ∧ k ≠ .queued ∧ k.ring? = none

structure Ledger.Sound (b : Ledger) (o : Loose) : Prop where
  room : b.calls.length ≤ 16
  leftRoom : b.left.length ≤ 16
  full : b.queue ≠ [] → b.calls.length + o.short = 16
  ids : (b.calls.map (·.id) ++ b.left).Nodup
  callId : ∀ x ∈ b.calls, x.id ≠ 0
  leftId : ∀ id ∈ b.left, id ≠ 0
  counter : b.counter ≠ 0
  overflowed : b.overflowed = true → b.left ≠ []
  lines : (b.calls.map (·.line) ++ b.queue).Nodup
  inCall : ∀ n, o.line ≠ some n → (b.condition n = .inCall ↔ n ∈ b.calls.map (·.line))
  queued : ∀ n, o.line ≠ some n → (b.condition n = .queued ↔ n ∈ b.queue)
  vacant : ∀ n, o.line = some n → b.Vacant n
  reserved : ∀ ch n c, b.channel ch = .reserved n c → (b.condition n).ring? = some (c, ch)
  connected : ∀ ch n c id, b.channel ch = .connected n c id → o.call ≠ some id ∧ ⟨id, n, some c, some ch⟩ ∈ b.calls
  held : ∀ x ∈ b.calls, o.call ≠ some x.id → ∀ ch ∈ x.channel, ∃ c ∈ x.holder, b.channel ch = .connected x.line c x.id
  rings : ∀ n, o.line ≠ some n → ∀ y ∈ (b.condition n).ring?, b.channel y.2 = .reserved n y.1

/-! ### Entries of a ledger -/

def Ledger.become (b : Ledger) (n : LineId) (k : Condition) : Ledger :=
  { b with condition := Function.update b.condition n k }

def Ledger.route (b : Ledger) (ch : ChannelId) (k : Channel) : Ledger :=
  { b with channel := Function.update b.channel ch k }

/-- The channel, if any, is freed. -/
def Ledger.release (b : Ledger) : Option ChannelId → Ledger
  | some ch => b.route ch .free
  | none => b

def Ledger.change (b : Ledger) (id : CallId) (f : Stake → Stake) : Ledger :=
  { b with calls := b.calls.map fun x => if x.id = id then f x else x }

def Ledger.drop (b : Ledger) (id : CallId) : Ledger := { b with calls := b.calls.filter fun x => x.id ≠ id }

def Ledger.enrol (b : Ledger) (x : Stake) : Ledger := { b with calls := b.calls ++ [x] }

section

variable {b : Ledger} {o : Loose} {n : LineId} {k : Condition} {ch : ChannelId} {c : Centre} {id : CallId} {x y : Stake}

theorem Ledger.release_channel (o : Option ChannelId) (ch : ChannelId) :
    (b.release o).channel ch = if o = some ch then .free else b.channel ch := by
  cases o with
  | none => rfl
  | some d =>
    show Function.update b.channel d .free ch = _
    rw [Function.update_apply]
    simp only [Option.some.injEq, eq_comm]

theorem Ledger.release_calls (o : Option ChannelId) : (b.release o).calls = b.calls := by cases o <;> rfl
theorem Ledger.release_queue (o : Option ChannelId) : (b.release o).queue = b.queue := by cases o <;> rfl
theorem Ledger.release_left (o : Option ChannelId) : (b.release o).left = b.left := by cases o <;> rfl
theorem Ledger.release_condition (o : Option ChannelId) : (b.release o).condition = b.condition := by cases o <;> rfl
theorem Ledger.release_counter (o : Option ChannelId) : (b.release o).counter = b.counter := by cases o <;> rfl
theorem Ledger.release_overflowed (o : Option ChannelId) : (b.release o).overflowed = b.overflowed := by cases o <;> rfl

/-! ### What a sound ledger says -/

theorem Ledger.Sound.call_unique (h : b.Sound o) (hx : x ∈ b.calls) (hy : y ∈ b.calls) (e : x.id = y.id) : x = y :=
  List.inj_on_of_nodup_map (List.nodup_append.mp h.ids).1 hx hy e

theorem Ledger.Sound.line_unique (h : b.Sound o) (hx : x ∈ b.calls) (hy : y ∈ b.calls) (e : x.line = y.line) : x = y :=
  List.inj_on_of_nodup_map (List.nodup_append.mp h.lines).1 hx hy e

theorem Ledger.Sound.vacant_of_plain (h : b.Sound o) (hn : Plain' (b.condition n)) : b.Vacant n := by
  by_cases ho : o.line = some n
  · exact h.vacant n ho
  · obtain ⟨hi, hq, hr⟩ := hn
    refine ⟨fun hm => hi ((h.inCall n ho).mpr hm), fun hm => hq ((h.queued n ho).mpr hm), fun ch c hc => ?_⟩
    rw [h.reserved ch n c hc] at hr
    cases hr

/-- Nothing is owed but calls, and those of an empty overflow list are not owed. -/
theorem Ledger.Sound.settle (h : b.Sound o) {m : Nat} (hq : b.queue ≠ [] → b.calls.length + m = 16) :
    b.Sound { o with short := m } := { h with full := hq }

/-! ### Lines -/

/-- A line that nothing names enters a condition that names nothing. -/
theorem Ledger.Sound.become (h : b.Sound o) (hv : b.Vacant n) (hk : Plain' k) (ho : ∀ m, o.line = some m → m = n) :
    (b.become n k).Sound { o with line := none } := by
  obtain ⟨hi, hq, hr⟩ := hk
  have hcond : ∀ m, (b.become n k).condition m = if m = n then k else b.condition m := fun m =>
    Function.update_apply ..
  have hopen : ∀ m, m ≠ n → o.line ≠ some m := fun m hm e => hm (ho m e)
  exact
    { h with
      inCall := fun m _ => by
        rw [hcond]
        split
        · next e => subst e; exact ⟨fun he => absurd he hi, fun hm => absurd hm hv.calls⟩
        · next e => exact h.inCall m (hopen m e)
      queued := fun m _ => by
        rw [hcond]
        split
        · next e => subst e; exact ⟨fun he => absurd he hq, fun hm => absurd hm hv.queue⟩
        · next e => exact h.queued m (hopen m e)
      vacant := fun m hm => by cases hm
      reserved := fun ch m c hc => by
        rw [hcond]
        split
        · next e => exact absurd (e ▸ hc) (hv.channel ch c)
        · exact h.reserved ch m c hc
      rings := fun m _ y hy => by
        rw [hcond] at hy
        split at hy
        · rw [hr] at hy; cases hy
        · next e => exact h.rings m (hopen m e) y hy }

/-- A line rings on a free channel. -/
theorem Ledger.Sound.ring (h : b.Sound o) (hv : b.Vacant n) (hch : b.channel ch = .free) (hk : k.ring? = some (c, ch))
    (ho : ∀ m, o.line = some m → m = n) :
    ((b.route ch (.reserved n c)).become n k).Sound { o with line := none } := by
  have hi : k ≠ .inCall ∧ k ≠ .queued := by
    constructor <;> rintro rfl <;> cases hk
  have hcond : ∀ m, Function.update b.condition n k m = if m = n then k else b.condition m := fun m =>
    Function.update_apply ..
  have hchan : ∀ d, Function.update b.channel ch (.reserved n c) d = if d = ch then .reserved n c else b.channel d :=
    fun d => Function.update_apply ..
  have hopen : ∀ m, m ≠ n → o.line ≠ some m := fun m hm e => hm (ho m e)
  exact
    { h with
      inCall := fun m _ => by
        show Function.update b.condition n k m = _ ↔ _
        rw [hcond]
        split
        · next e => subst e; exact ⟨fun he => absurd he hi.1, fun hm => absurd hm hv.calls⟩
        · next e => exact h.inCall m (hopen m e)
      queued := fun m _ => by
        show Function.update b.condition n k m = _ ↔ _
        rw [hcond]
        split
        · next e => subst e; exact ⟨fun he => absurd he hi.2, fun hm => absurd hm hv.queue⟩
        · next e => exact h.queued m (hopen m e)
      vacant := fun m hm => by cases hm
      reserved := fun d m e hd => by
        change Function.update b.channel ch (.reserved n c) d = _ at hd
        show (Function.update b.condition n k m).ring? = _
        rw [hchan] at hd
        rw [hcond]
        split at hd
        · next hdc => injection hd with h1 h2; subst h1; subst h2; rw [if_pos rfl, hk, hdc]
        · split
          · next he => exact absurd (he ▸ hd) (hv.channel d e)
          · exact h.reserved d m e hd
      connected := fun d m e i hd => by
        change Function.update b.channel ch (.reserved n c) d = _ at hd
        rw [hchan] at hd
        split at hd
        · cases hd
        · exact h.connected d m e i hd
      held := fun x hx hc d hd => by
        obtain ⟨e, he, hxd⟩ := h.held x hx hc d hd
        refine ⟨e, he, ?_⟩
        show Function.update b.channel ch (.reserved n c) d = _
        rw [hchan, if_neg, hxd]
        rintro rfl
        rw [hch] at hxd
        cases hxd
      rings := fun m _ y hy => by
        change y ∈ (Function.update b.condition n k m).ring? at hy
        show Function.update b.channel ch (.reserved n c) y.2 = _
        rw [hcond] at hy
        rw [hchan]
        split at hy
        · next e => rw [hk] at hy; cases hy; rw [if_pos rfl, e]
        · next e =>
          have := h.rings m (hopen m e) y hy
          rw [if_neg, this]
          rintro hyc
          rw [hyc, hch] at this
          cases this }

/-- The channel of a ring is freed, before the line's next condition is entered. -/
theorem Ledger.Sound.unring (h : b.Sound o) (hn : (b.condition n).ring? = some (c, ch)) (ho : o.line = none) :
    (b.route ch .free).Sound { o with line := some n } := by
  have hi : b.condition n ≠ .inCall ∧ b.condition n ≠ .queued := by
    constructor <;> intro e <;> rw [e] at hn <;> cases hn
  have hopen : ∀ m, o.line ≠ some m := fun m e => by rw [ho] at e; cases e
  have hrung : b.channel ch = .reserved n c := h.rings n (hopen n) (c, ch) hn
  have hchan : ∀ d, Function.update b.channel ch .free d = if d = ch then .free else b.channel d :=
    fun d => Function.update_apply ..
  exact
    { h with
      inCall := fun m _ => h.inCall m (hopen m)
      queued := fun m _ => h.queued m (hopen m)
      vacant := fun m hm => by
        cases hm
        refine ⟨fun hm => hi.1 ((h.inCall n (hopen n)).mpr hm), fun hm => hi.2 ((h.queued n (hopen n)).mpr hm), ?_⟩
        intro d e hd
        change Function.update b.channel ch .free d = _ at hd
        rw [hchan] at hd
        split at hd
        · cases hd
        · next hne =>
          rw [h.reserved d n e hd] at hn
          injection hn with hn
          exact hne (congrArg Prod.snd hn)
      reserved := fun d m e hd => by
        change Function.update b.channel ch .free d = _ at hd
        rw [hchan] at hd
        split at hd
        · cases hd
        · exact h.reserved d m e hd
      connected := fun d m e i hd => by
        change Function.update b.channel ch .free d = _ at hd
        rw [hchan] at hd
        split at hd
        · cases hd
        · exact h.connected d m e i hd
      held := fun x hx hc d hd => by
        obtain ⟨e, he, hxd⟩ := h.held x hx hc d hd
        refine ⟨e, he, ?_⟩
        show Function.update b.channel ch .free d = _
        rw [hchan, if_neg, hxd]
        rintro rfl
        rw [hrung] at hxd
        cases hxd
      rings := fun m hm y hy => by
        have := h.rings m (hopen m) y hy
        show Function.update b.channel ch .free y.2 = _
        rw [hchan, if_neg, this]
        intro hyc
        rw [hyc, hrung] at this
        injection this with hmn
        exact hm (congrArg some hmn) }

/-! ### Calls -/

/-- A call's channel is freed; the call is loose until its next channel is entered. -/
theorem Ledger.Sound.loosen (h : b.Sound o) (hx : x ∈ b.calls) (ho : o.call = none) :
    (b.release x.channel).Sound { o with call := some x.id } := by
  have hcall : ∀ i, o.call ≠ some i := fun i e => by rw [ho] at e; cases e
  have hmine : ∀ d, x.channel = some d → ∃ e ∈ x.holder, b.channel d = .connected x.line e x.id := fun d hd =>
    h.held x hx (hcall _) d hd
  constructor
  case room => rw [Ledger.release_calls]; exact h.room
  case leftRoom => rw [Ledger.release_left]; exact h.leftRoom
  case full => rw [Ledger.release_queue, Ledger.release_calls]; exact h.full
  case ids => rw [Ledger.release_left, Ledger.release_calls]; exact h.ids
  case callId => rw [Ledger.release_calls]; exact h.callId
  case leftId => rw [Ledger.release_left]; exact h.leftId
  case counter => rw [Ledger.release_counter]; exact h.counter
  case overflowed => rw [Ledger.release_overflowed, Ledger.release_left]; exact h.overflowed
  case lines => rw [Ledger.release_calls, Ledger.release_queue]; exact h.lines
  case inCall => rw [Ledger.release_calls, Ledger.release_condition]; exact h.inCall
  case queued => rw [Ledger.release_queue, Ledger.release_condition]; exact h.queued
  case vacant =>
    intro m hm
    obtain ⟨hc, hq, hr⟩ := h.vacant m hm
    refine ⟨by rwa [Ledger.release_calls], by rwa [Ledger.release_queue], fun d e hd => ?_⟩
    rw [Ledger.release_channel] at hd
    split at hd
    · cases hd
    · exact hr d e hd
  case reserved =>
    intro d m e hd
    rw [Ledger.release_channel] at hd
    rw [Ledger.release_condition]
    split at hd
    · cases hd
    · exact h.reserved d m e hd
  case connected =>
    intro d m e i hd
    rw [Ledger.release_channel] at hd
    rw [Ledger.release_calls]
    split at hd
    · cases hd
    · next hne =>
      have hm := (h.connected d m e i hd).2
      refine ⟨?_, hm⟩
      rintro he
      injection he with he
      have := h.call_unique hx hm he
      exact hne (by rw [this])
  case held =>
    intro y hy hc d hd
    rw [Ledger.release_calls] at hy
    obtain ⟨e, he, hyd⟩ := h.held y hy (hcall _) d hd
    refine ⟨e, he, ?_⟩
    rw [Ledger.release_channel, if_neg, hyd]
    intro hxd
    obtain ⟨f, -, hf⟩ := hmine d hxd
    rw [hyd] at hf
    injection hf with _ _ hid
    exact hc (congrArg some hid.symm)
  case rings =>
    intro m hm y hy
    rw [Ledger.release_condition] at hy
    have := h.rings m hm y hy
    rw [Ledger.release_channel, if_neg, this]
    intro hxd
    obtain ⟨f, -, hf⟩ := hmine _ hxd
    rw [this] at hf
    cases hf

/-- A loose call takes new fields, but for its id and its line. -/
theorem Ledger.Sound.change (h : b.Sound o) (ho : o.call = some id) {f : Stake → Stake} (hid : ∀ x, (f x).id = x.id)
    (hline : ∀ x, (f x).line = x.line) : (b.change id f).Sound o := by
  have hids : (b.change id f).calls.map (·.id) = b.calls.map (·.id) := by
    show (b.calls.map _).map _ = _
    rw [List.map_map]
    refine List.map_congr_left fun x _ => ?_
    simp only [Function.comp]
    split
    · exact hid x
    · rfl
  have hlines : (b.change id f).calls.map (·.line) = b.calls.map (·.line) := by
    show (b.calls.map _).map _ = _
    rw [List.map_map]
    refine List.map_congr_left fun x _ => ?_
    simp only [Function.comp]
    split
    · exact hline x
    · rfl
  have hlen : (b.change id f).calls.length = b.calls.length := List.length_map ..
  have hmem : ∀ x ∈ (b.change id f).calls, x.id ≠ id → x ∈ b.calls := by
    intro x hx hne
    obtain ⟨y, hy, rfl⟩ := List.mem_map.mp hx
    split at hne
    · next e => exact absurd ((hid y).trans e) hne
    · next e => rw [if_neg e]; exact hy
  exact
    { h with
      room := hlen ▸ h.room
      full := hlen ▸ h.full
      ids := hids ▸ h.ids
      callId := fun x hx => by
        have : x.id ∈ (b.change id f).calls.map (·.id) := List.mem_map_of_mem hx
        rw [hids] at this
        obtain ⟨y, hy, e⟩ := List.mem_map.mp this
        exact e ▸ h.callId y hy
      lines := hlines ▸ h.lines
      inCall := hlines ▸ h.inCall
      vacant := fun m hm => ⟨hlines ▸ (h.vacant m hm).calls, (h.vacant m hm).queue, (h.vacant m hm).channel⟩
      connected := fun d m e i hd => by
        obtain ⟨hne, hm⟩ := h.connected d m e i hd
        refine ⟨hne, List.mem_map.mpr ⟨_, hm, if_neg ?_⟩⟩
        rintro rfl
        exact hne ho
      held := fun x hx hc => h.held x (hmem x hx fun e => hc (e ▸ ho)) hc }

/-- A loose call that holds no channel is entered. -/
theorem Ledger.Sound.fasten (h : b.Sound o) (hx : ∀ x ∈ b.calls, o.call = some x.id → x.channel = none) :
    b.Sound { o with call := none } :=
  { h with
    connected := fun d m e i hd => ⟨nofun, (h.connected d m e i hd).2⟩
    held := fun x hm _ d hd => by
      by_cases hc : o.call = some x.id
      · rw [hx x hm hc] at hd; cases hd
      · exact h.held x hm hc d hd }

/-- A loose call is entered with a channel that was free. -/
theorem Ledger.Sound.connect (h : b.Sound o) (ho : o.call = some x.id) (hx : x ∈ b.calls) (hh : x.holder = some c)
    (hc : x.channel = some ch) (hch : b.channel ch = .free) :
    (b.route ch (.connected x.line c x.id)).Sound { o with call := none } := by
  have hchan : ∀ d, Function.update b.channel ch (.connected x.line c x.id) d =
      if d = ch then .connected x.line c x.id else b.channel d := fun d => Function.update_apply ..
  exact
    { h with
      vacant := fun m hm => ⟨(h.vacant m hm).calls, (h.vacant m hm).queue, fun d e hd => by
        change Function.update b.channel ch (.connected x.line c x.id) d = _ at hd
        rw [hchan] at hd
        split at hd
        · cases hd
        · exact (h.vacant m hm).channel d e hd⟩
      reserved := fun d m e hd => by
        change Function.update b.channel ch (.connected x.line c x.id) d = _ at hd
        rw [hchan] at hd
        split at hd
        · cases hd
        · exact h.reserved d m e hd
      connected := fun d m e i hd => by
        change Function.update b.channel ch (.connected x.line c x.id) d = _ at hd
        rw [hchan] at hd
        refine ⟨nofun, ?_⟩
        split at hd
        · next hdc =>
          injection hd with h1 h2 h3
          subst h1 h2 h3 hdc
          show Stake.mk x.id x.line (some c) (some d) ∈ b.calls
          rw [← hh, ← hc]
          exact hx
        · exact (h.connected d m e i hd).2
      held := fun y hy _ d hd => by
        show ∃ e ∈ y.holder, Function.update b.channel ch (.connected x.line c x.id) d = _
        by_cases hyx : o.call = some y.id
        · obtain rfl := h.call_unique hx hy (Option.some.inj (ho.symm.trans hyx))
          rw [hc] at hd
          cases hd
          exact ⟨c, hh, by rw [hchan, if_pos rfl]⟩
        · obtain ⟨e, he, hyd⟩ := h.held y hy hyx d hd
          refine ⟨e, he, ?_⟩
          rw [hchan, if_neg, hyd]
          rintro rfl
          rw [hch] at hyd
          cases hyd
      rings := fun m hm y hy => by
        have := h.rings m hm y hy
        show Function.update b.channel ch (.connected x.line c x.id) y.2 = _
        rw [hchan, if_neg, this]
        intro hyc
        rw [hyc, hch] at this
        cases this }

end

end Sys2Proof.Proofs

/-! PROOFS. The lists of the ledger (R84 to R95): a call that leaves or joins the register, a line that leaves or joins
the overflow list, an id that leaves or joins the abandoned list. -/

namespace Sys2Proof.Proofs

open Sys2Proof Sys2Proof.Machine

section

variable {b : Ledger} {o : Loose} {n : LineId} {k : Condition} {ch : ChannelId} {c : Centre} {id : CallId} {x y : Stake}

/-- A call without a channel leaves the register; its line's next condition is owed. -/
theorem Ledger.Sound.drop (h : b.Sound o) (hx : x ∈ b.calls) (ho : o.call = some x.id) (hl : o.line = none)
    (hs : o.short = 0) : (b.drop x.id).Sound { line := some x.line, call := none, short := 1 } := by
  have hopen : ∀ m, o.line ≠ some m := fun m e => by rw [hl] at e; cases e
  have hsub : (b.drop x.id).calls.Sublist b.calls := List.filter_sublist
  have hmem : ∀ {y}, y ∈ (b.drop x.id).calls ↔ y ∈ b.calls ∧ y.id ≠ x.id := by
    intro y
    show y ∈ b.calls.filter _ ↔ _
    rw [List.mem_filter, decide_eq_true_iff]
  have hline : ∀ m, m ≠ x.line → (m ∈ (b.drop x.id).calls.map (·.line) ↔ m ∈ b.calls.map (·.line)) := by
    intro m hm
    refine ⟨fun hy => (hsub.map _).subset hy, fun hm' => ?_⟩
    obtain ⟨y, hy, rfl⟩ := List.mem_map.mp hm'
    refine List.mem_map_of_mem (hmem.mpr ⟨hy, fun e => hm ?_⟩)
    rw [h.call_unique hy hx e]
  have hlen : (b.drop x.id).calls.length + 1 = b.calls.length := by
    have hnd : (b.calls.map (·.id)).Nodup := (List.nodup_append.mp h.ids).1
    have hcount : b.calls.countP (fun y => y.id = x.id) = 1 := by
      have := List.count_eq_one_of_mem hnd (List.mem_map_of_mem hx)
      rw [List.count, List.countP_map] at this
      rw [← this]
      exact List.countP_congr fun y _ => by simp
    have hsplit := List.length_eq_countP_add_countP (fun y : Stake => decide (y.id ≠ x.id)) (l := b.calls)
    have hneg : b.calls.countP (fun y => !decide (y.id ≠ x.id)) = 1 := by
      rw [← hcount]
      exact List.countP_congr fun y _ => by simp
    show (b.calls.filter fun y => y.id ≠ x.id).length + 1 = _
    rw [← List.countP_eq_length_filter, hsplit]
    simpa using hcount.symm
  have hin : x.line ∈ b.calls.map (·.line) := List.mem_map_of_mem hx
  have hcond : b.condition x.line = .inCall := (h.inCall _ (hopen _)).mpr hin
  have hids : ((b.drop x.id).calls.map (·.id) ++ b.left).Sublist (b.calls.map (·.id) ++ b.left) :=
    (hsub.map _).append (.refl _)
  have hlines : ((b.drop x.id).calls.map (·.line) ++ b.queue).Sublist (b.calls.map (·.line) ++ b.queue) :=
    (hsub.map _).append (.refl _)
  exact
    { h with
      room := hsub.length_le.trans h.room
      full := fun hq => by
        have := h.full hq
        rw [hs] at this
        show (b.drop x.id).calls.length + 1 = 16
        omega
      ids := h.ids.sublist hids
      callId := fun y hy => h.callId y (hmem.mp hy).1
      lines := h.lines.sublist hlines
      inCall := fun m hm => (h.inCall m (hopen m)).trans (hline m fun e => hm (congrArg some e.symm)).symm
      queued := fun m _ => h.queued m (hopen m)
      vacant := fun m hm => by
        cases hm
        refine ⟨fun hy => ?_, fun hq => ?_, fun d e hd => ?_⟩
        · obtain ⟨y, hy, e⟩ := List.mem_map.mp hy
          obtain ⟨hy, hne⟩ := hmem.mp hy
          exact hne (congrArg Stake.id (h.line_unique hy hx e))
        · exact (List.nodup_append.mp h.lines).2.2 _ hin _ hq rfl
        · have := h.reserved d x.line e hd
          rw [hcond] at this
          cases this
      connected := fun d m e i hd => by
        obtain ⟨hne, hm⟩ := h.connected d m e i hd
        exact ⟨nofun, hmem.mpr ⟨hm, fun e => hne (ho.trans (congrArg some e.symm))⟩⟩
      held := fun y hy _ => by
        obtain ⟨hy, hne⟩ := hmem.mp hy
        exact h.held y hy fun e => hne (Option.some.inj (ho.symm.trans e)).symm
      rings := fun m _ => h.rings m (hopen m) }

/-- A call with a fresh id joins the register on a line that nothing names; its channel is owed. -/
theorem Ledger.Sound.enrol (h : b.Sound o) (hv : b.Vacant x.line) (hroom : b.calls.length < 16)
    (hid : x.id ∉ b.calls.map (·.id) ++ b.left) (hz : x.id ≠ 0) (hc : o.call = none)
    (ho : ∀ m, o.line = some m → m = x.line) :
    ((b.enrol x).become x.line .inCall).Sound { line := none, call := some x.id, short := o.short - 1 } := by
  have hcond : ∀ m, Function.update b.condition x.line .inCall m = if m = x.line then .inCall else b.condition m :=
    fun m => Function.update_apply ..
  have hopen : ∀ m, m ≠ x.line → o.line ≠ some m := fun m hm e => hm (ho m e)
  have hcall : ∀ i, o.call ≠ some i := fun i e => by rw [hc] at e; cases e
  have hlines : (b.enrol x).calls.map (·.line) = b.calls.map (·.line) ++ [x.line] := List.map_append
  have hids : (b.enrol x).calls.map (·.id) = b.calls.map (·.id) ++ [x.id] := List.map_append
  have hmem : ∀ {y}, y ∈ (b.enrol x).calls ↔ y ∈ b.calls ∨ y = x := by
    intro y
    show y ∈ b.calls ++ [x] ↔ _
    rw [List.mem_append, List.mem_singleton]
  exact
    { h with
      room := by
        show (b.calls ++ [x]).length ≤ 16
        rw [List.length_append, List.length_singleton]
        omega
      full := fun hq => by
        have := h.full hq
        show (b.calls ++ [x]).length + (o.short - 1) = 16
        rw [List.length_append, List.length_singleton]
        omega
      ids := by
        show ((b.enrol x).calls.map (·.id) ++ b.left).Nodup
        rw [hids, List.append_assoc, List.singleton_append]
        exact (List.nodup_middle).mpr (List.nodup_cons.mpr ⟨hid, h.ids⟩)
      callId := fun y hy => (hmem.mp hy).elim (h.callId y) fun e => e ▸ hz
      lines := by
        show ((b.enrol x).calls.map (·.line) ++ b.queue).Nodup
        rw [hlines, List.append_assoc, List.singleton_append]
        refine (List.nodup_middle).mpr (List.nodup_cons.mpr ⟨?_, h.lines⟩)
        rw [List.mem_append, not_or]
        exact ⟨hv.calls, hv.queue⟩
      inCall := fun m _ => by
        show Function.update b.condition x.line .inCall m = _ ↔ m ∈ (b.enrol x).calls.map (·.line)
        rw [hcond, hlines, List.mem_append, List.mem_singleton]
        split
        · next e => exact ⟨fun _ => .inr e, fun _ => rfl⟩
        · next e => rw [h.inCall m (hopen m e), or_iff_left e]
      queued := fun m _ => by
        show Function.update b.condition x.line .inCall m = _ ↔ m ∈ b.queue
        rw [hcond]
        split
        · next e => exact ⟨nofun, fun hq => absurd (e ▸ hq) hv.queue⟩
        · next e => exact h.queued m (hopen m e)
      vacant := fun m hm => by cases hm
      reserved := fun d m e hd => by
        show (Function.update b.condition x.line .inCall m).ring? = _
        rw [hcond]
        split
        · next he => exact absurd (he ▸ hd) (hv.channel d e)
        · exact h.reserved d m e hd
      connected := fun d m e i hd => by
        obtain ⟨-, hm⟩ := h.connected d m e i hd
        refine ⟨fun e => hid ?_, hmem.mpr (.inl hm)⟩
        injection e with e
        rw [List.mem_append, e]
        exact .inl (List.mem_map_of_mem hm)
      held := fun y hy hne => by
        obtain hy | rfl := hmem.mp hy
        · exact h.held y hy (hcall _)
        · exact absurd rfl hne
      rings := fun m _ y hy => by
        change y ∈ (Function.update b.condition x.line .inCall m).ring? at hy
        rw [hcond] at hy
        split at hy
        · cases hy
        · next e => exact h.rings m (hopen m e) y hy }

/-- A line that nothing names joins the overflow list. -/
theorem Ledger.Sound.enqueue (h : b.Sound o) (hv : b.Vacant n) {q : List LineId} (hq : q.Perm (n :: b.queue))
    (hs : b.calls.length + o.short = 16) (ho : ∀ m, o.line = some m → m = n) :
    ({ b with queue := q }.become n .queued : Ledger).Sound { o with line := none } := by
  have hcond : ∀ m, Function.update b.condition n .queued m = if m = n then .queued else b.condition m :=
    fun m => Function.update_apply ..
  have hopen : ∀ m, m ≠ n → o.line ≠ some m := fun m hm e => hm (ho m e)
  exact
    { h with
      full := fun _ => hs
      lines := by
        show (b.calls.map (·.line) ++ q).Nodup
        rw [(hq.append_left _).nodup_iff]
        refine (List.nodup_middle).mpr (List.nodup_cons.mpr ⟨?_, h.lines⟩)
        rw [List.mem_append, not_or]
        exact ⟨hv.calls, hv.queue⟩
      inCall := fun m _ => by
        show Function.update b.condition n .queued m = _ ↔ m ∈ b.calls.map (·.line)
        rw [hcond]
        split
        · next e => exact ⟨nofun, fun hm => absurd (e ▸ hm) hv.calls⟩
        · next e => exact h.inCall m (hopen m e)
      queued := fun m _ => by
        show Function.update b.condition n .queued m = _ ↔ m ∈ q
        rw [hcond, hq.mem_iff, List.mem_cons]
        split
        · next e => exact ⟨fun _ => .inl e, fun _ => rfl⟩
        · next e => rw [h.queued m (hopen m e), or_iff_right e]
      vacant := fun m hm => by cases hm
      reserved := fun d m e hd => by
        show (Function.update b.condition n .queued m).ring? = _
        rw [hcond]
        split
        · next he => exact absurd (he ▸ hd) (hv.channel d e)
        · exact h.reserved d m e hd
      rings := fun m _ y hy => by
        change y ∈ (Function.update b.condition n .queued m).ring? at hy
        rw [hcond] at hy
        split at hy
        · cases hy
        · next e => exact h.rings m (hopen m e) y hy }

/-- A line leaves the overflow list; its next condition is owed. -/
theorem Ledger.Sound.dequeue (h : b.Sound o) {q : List LineId} (hq : b.queue.Perm (n :: q)) (ho : o.line = none) :
    ({ b with queue := q } : Ledger).Sound { o with line := some n } := by
  have hopen : ∀ m, o.line ≠ some m := fun m e => by rw [ho] at e; cases e
  have hnd : (b.calls.map (·.line) ++ n :: q).Nodup := ((hq.append_left _).nodup_iff).mp h.lines
  obtain ⟨hnew, hold⟩ := List.nodup_cons.mp (List.nodup_middle.mp hnd)
  rw [List.mem_append, not_or] at hnew
  have hin : n ∈ b.queue := hq.symm.subset (List.mem_cons_self ..)
  have hcond : b.condition n = .queued := (h.queued n (hopen n)).mpr hin
  exact
    { h with
      full := fun _ => h.full (List.ne_nil_of_mem hin)
      lines := hold
      inCall := fun m _ => h.inCall m (hopen m)
      queued := fun m hm => by
        rw [h.queued m (hopen m), hq.mem_iff, List.mem_cons, or_iff_right]
        exact fun e => hm (congrArg some e.symm)
      vacant := fun m hm => by
        cases hm
        refine ⟨hnew.1, hnew.2, fun d e hd => ?_⟩
        have := h.reserved d n e hd
        rw [hcond] at this
        cases this
      rings := fun m _ => h.rings m (hopen m) }

theorem Ledger.Vacant.of_eq {d : Ledger} (h : b.Vacant n) (hc : d.calls = b.calls) (hq : d.queue = b.queue)
    (hch : d.channel = b.channel) : d.Vacant n := ⟨hc ▸ h.calls, hq ▸ h.queue, hch ▸ h.channel⟩

/-- An id that nothing holds joins the abandoned list, from which the oldest may go. -/
theorem Ledger.Sound.abandon (h : b.Sound o) (hid : id ∉ b.calls.map (·.id) ++ b.left) (hz : id ≠ 0) {xs : List CallId}
    (hxs : xs.Sublist b.left) (hlen : xs.length < 16) {f : Bool} :
    ({ b with left := xs ++ [id], overflowed := f } : Ledger).Sound o :=
  { h with
    leftRoom := by
      show (xs ++ [id]).length ≤ 16
      rw [List.length_append, List.length_singleton]
      omega
    ids := by
      show (b.calls.map (·.id) ++ (xs ++ [id])).Nodup
      rw [← List.append_assoc, List.nodup_append_comm, List.singleton_append]
      have hs := List.Sublist.append (.refl (b.calls.map (·.id))) hxs
      exact List.nodup_cons.mpr ⟨fun hm => hid (hs.subset hm), h.ids.sublist hs⟩
    leftId := fun i hi => by
      obtain hi | hi := List.mem_append.mp hi
      · exact h.leftId i (hxs.subset hi)
      · rw [List.mem_singleton.mp hi]
        exact hz
    vacant := fun m hm => (h.vacant m hm).of_eq rfl rfl rfl
    overflowed := fun _ => by simp }

/-- Ids leave the abandoned list, and OVERFLOWED with the last of them. -/
theorem Ledger.Sound.forget (h : b.Sound o) {xs : List CallId} (hxs : xs.Sublist b.left) {f : Bool}
    (hf : f = true → xs ≠ []) : ({ b with left := xs, overflowed := f } : Ledger).Sound o :=
  { h with
    leftRoom := hxs.length_le.trans h.leftRoom
    ids := h.ids.sublist ((List.Sublist.refl _).append hxs)
    leftId := fun i hi => h.leftId i (hxs.subset hi)
    vacant := fun m hm => (h.vacant m hm).of_eq rfl rfl rfl
    overflowed := hf }

theorem Ledger.Sound.count (h : b.Sound o) {i : CallId} (hi : i ≠ 0) : ({ b with counter := i } : Ledger).Sound o :=
  { h with counter := hi, vacant := fun m hm => (h.vacant m hm).of_eq rfl rfl rfl }

/-- Sixteen calls cannot all hold a channel: two of six channels would be one. -/
theorem Ledger.Sound.some_unconnected (h : b.Sound o) (ho : o.call = none) (hfull : 6 < b.calls.length) :
    ∃ x ∈ b.calls, x.channel = none := by
  by_contra hno
  push Not at hno
  have hnd : b.calls.Nodup := List.Nodup.of_map _ (List.nodup_append.mp h.ids).1
  have hinj : (b.calls.map (·.channel)).Nodup := by
    refine (List.nodup_map_iff_inj_on hnd).mpr fun x hx y hy e => ?_
    obtain ⟨d, hd⟩ := Option.ne_none_iff_exists'.mp (hno x hx)
    obtain ⟨c, -, hc⟩ := h.held x hx (by rw [ho]; exact nofun) d hd
    obtain ⟨c', -, hc'⟩ := h.held y hy (by rw [ho]; exact nofun) d (e.symm.trans hd)
    rw [hc] at hc'
    injection hc' with _ _ hid
    exact h.call_unique hx hy hid
  have hsub : (b.calls.map (·.channel)).toFinset ⊆ (Finset.univ : Finset ChannelId).image some := by
    intro z hz
    obtain ⟨x, hx, rfl⟩ := List.mem_map.mp (List.mem_toFinset.mp hz)
    obtain ⟨d, hd⟩ := Option.ne_none_iff_exists'.mp (hno x hx)
    rw [hd]
    exact Finset.mem_image_of_mem _ (Finset.mem_univ d)
  have hcard := Finset.card_le_card hsub
  rw [List.toFinset_card_of_nodup hinj, List.length_map] at hcard
  have : ((Finset.univ : Finset ChannelId).image some).card ≤ 6 := Finset.card_image_le.trans (by simp [ChannelId])
  omega

end

end Sys2Proof.Proofs

/-! PROOFS. What an operation keeps of the register, the lines and the channels (R81 to R95, R120, R126, R127): a sound
ledger, records whose fields agree, and nothing held by a LOST link. -/

namespace Sys2Proof.Proofs

open Sys2Proof Sys2Proof.Machine

/-! ### What is kept -/

/-- A record's fields agree, and it is neither claimed by nor offered to a dead link. -/
def Fair (dead : Centre → Prop) (r : CallRecord) : Prop :=
  r.Sound ∧ ∀ c, dead c → r.claimant ≠ some c ∧ r.offered.has c = false

/-- The state is in order, but for what `o` says it owes; the dead links, which are LOST, hold nothing. -/
structure Kept (o : Loose) (dead : Centre → Prop) (s : State) : Prop where
  sound : (ledger s).Sound o
  fair : ∀ r ∈ s.records, o.call ≠ some r.id → Fair dead r
  rung : ∀ ch n c, s.channel ch = .reserved n c → ¬ dead c
  lost : ∀ c, dead c → (s.centre c).health = .lost

/-- The LOST links. -/
def lostIn (s : State) (c : Centre) : Prop := (s.centre c).health = .lost

section

variable {s t : State} {o : Loose} {dead : Centre → Prop} {r q : CallRecord} {id : CallId} {n : LineId} {c : Centre}
  {ch : ChannelId} {f : CallRecord → CallRecord}

theorem Kept.of_face (h : Kept o dead s) (hf : face t = face s) : Kept o dead t where
  sound := ledger_of_face hf ▸ h.sound
  fair := records_of_face hf ▸ h.fair
  rung := by
    have e : t.channel = s.channel := congrArg Face.channel hf
    rw [e]
    exact h.rung
  lost := centre_of_face hf ▸ h.lost

/-- Fewer links are dead. -/
theorem Kept.mono (h : Kept o dead s) {dead' : Centre → Prop} (hd : ∀ c, dead' c → dead c) : Kept o dead' s where
  sound := h.sound
  fair r hr hc := ⟨(h.fair r hr hc).1, fun c k => (h.fair r hr hc).2 c (hd c k)⟩
  rung ch n c hc k := h.rung ch n c hc (hd c k)
  lost c k := h.lost c (hd c k)

theorem Kept.not_dead (h : Kept o dead s) (hc : (s.centre c).health.heard = true) : ¬ dead c := fun k => by
  rw [h.lost c k] at hc
  cases hc

theorem Kept.usable_not_dead (h : Kept o dead s) (hc : s.usable c = true) : ¬ dead c :=
  h.not_dead (usable_iff.mp hc).1

theorem map_id_stakes (s : State) : (ledger s).calls.map (·.id) = s.records.map (·.id) := by
  show (s.records.map stakeOf).map _ = _
  rw [List.map_map]
  rfl

theorem map_line_stakes (s : State) : (ledger s).calls.map (·.line) = s.records.map (·.line) := by
  show (s.records.map stakeOf).map _ = _
  rw [List.map_map]
  rfl

theorem Kept.ids_nodup (h : Kept o dead s) : (s.records.map (·.id)).Nodup :=
  map_id_stakes s ▸ (List.nodup_append.mp h.sound.ids).1

theorem Kept.unique (h : Kept o dead s) (hr : r ∈ s.records) (hq : q ∈ s.records) (e : r.id = q.id) : r = q :=
  List.inj_on_of_nodup_map h.ids_nodup hr hq e

theorem mem_of_recordById (h : s.recordById id = some r) : r ∈ s.records ∧ r.id = id :=
  ⟨List.mem_of_find?_eq_some h, by simpa using List.find?_some h⟩

theorem mem_of_recordOfLine (h : s.recordOfLine n = some r) : r ∈ s.records ∧ r.line = n :=
  ⟨List.mem_of_find?_eq_some h, by simpa using List.find?_some h⟩

theorem Kept.recordById (h : Kept o dead s) (hr : r ∈ s.records) : s.recordById r.id = some r :=
  Tidy.recordById h.ids_nodup hr

theorem Kept.lines_nodup (h : Kept o dead s) : (s.records.map (·.line)).Nodup :=
  map_line_stakes s ▸ (List.nodup_append.mp h.sound.lines).1

theorem Kept.recordOfLine (h : Kept o dead s) (hr : r ∈ s.records) : s.recordOfLine r.line = some r :=
  Tidy.recordOfLine h.lines_nodup hr

/-! ### It is the invariant -/

theorem channelSound_iff (s : State) : (∀ ch, s.ChannelSound ch) ↔
    (∀ ch n c, s.channel ch = .reserved n c → (s.line n).condition.ring? = some (c, ch)) ∧
    ∀ ch n c id, s.channel ch = .connected n c id →
      ∃ r ∈ s.records, r.id = id ∧ r.line = n ∧ r.claimant = some c ∧ r.channel = some ch := by
  refine ⟨fun h => ⟨fun ch n c hc => ?_, fun ch n c id hc => ?_⟩, fun h ch => ?_⟩
  · have := h ch; unfold State.ChannelSound at this; rwa [hc] at this
  · have := h ch; unfold State.ChannelSound at this; rwa [hc] at this
  · unfold State.ChannelSound
    split
    · trivial
    · next hc => exact h.1 _ _ _ hc
    · next hc => exact h.2 _ _ _ _ hc

theorem mem_stakes {x : Stake} : x ∈ (ledger s).calls ↔ ∃ r ∈ s.records, stakeOf r = x := List.mem_map

theorem channelsRouted_eq_zero_iff (s : State) (c : Centre) :
    s.channelsRouted c = 0 ↔ ∀ ch, (s.channel ch).routedTo c = false := by
  unfold State.channelsRouted
  rw [List.countP_eq_zero]
  constructor
  · intro h ch
    simpa using h (s.channel ch) (by simp [State.channel])
  · intro h x hx
    obtain ⟨i, hi, rfl⟩ := List.mem_iff_getElem.mp hx
    have hi' : i < 6 := by simpa using hi
    have := h (⟨i, hi'⟩ : Fin 6)
    simpa [State.channel] using this

theorem kept_of_inv (hi : InvIds s) (hc : InvCalls s) (hch : InvChannels s) : Kept {} (lostIn s) s := by
  obtain ⟨hroom, hleft, hfull, hids, hcid, hlid, hcount, hover⟩ := hi
  obtain ⟨hlines, hin, hqueued, hsound, hlost⟩ := hc
  obtain ⟨hchan, hheld, hrings, hrouted⟩ := hch
  obtain ⟨hres, hcon⟩ := (channelSound_iff s).mp hchan
  have hall : ∀ c : Centre, c ∈ [Centre.a, .b] := fun c => by cases c <;> decide
  refine ⟨?_, fun r hr _ => ⟨hsound r hr, fun c k => hlost c (hall c) k r hr⟩, fun ch n c hc k => ?_, fun c k => k⟩
  · exact
      { room := by simpa [ledger, Config.registerCapacity] using hroom
        leftRoom := by simpa [ledger, Config.abandonedCapacity] using hleft
        full := fun hq => by simpa [ledger, Config.registerCapacity] using hfull (by simpa [ledger] using hq)
        ids := by rw [map_id_stakes]; exact hids
        callId := fun x hx => by obtain ⟨r, hr, rfl⟩ := mem_stakes.mp hx; exact hcid r hr
        leftId := fun i hi => by obtain ⟨e, he, rfl⟩ := List.mem_map.mp hi; exact hlid e he
        counter := hcount
        overflowed := fun h => by simpa [ledger] using hover h
        lines := by rw [map_line_stakes]; exact hlines
        inCall := fun m _ => by rw [map_line_stakes]; exact hin m
        queued := fun m _ => hqueued m
        vacant := fun m hm => by cases hm
        reserved := hres
        connected := fun d m e i hd => by
          obtain ⟨r, hr, rfl, rfl, hcl, hrc⟩ := hcon d m e i hd
          exact ⟨nofun, mem_stakes.mpr ⟨r, hr, by rw [stakeOf, hcl, hrc]⟩⟩
        held := fun x hx _ d hd => by
          obtain ⟨r, hr, rfl⟩ := mem_stakes.mp hx
          exact hheld r hr d hd
        rings := fun m _ => hrings m }
  · have := (channelsRouted_eq_zero_iff s c).mp (hrouted c (hall c) k) ch
    rw [hc] at this
    simp [Channel.routedTo] at this

theorem Kept.routed (h : Kept {} dead s) (hc : dead c) : s.channelsRouted c = 0 := by
  refine (channelsRouted_eq_zero_iff s c).mpr fun ch => ?_
  cases hch : s.channel ch with
  | free => rfl
  | reserved n d =>
    refine decide_eq_false ?_
    rintro rfl
    exact h.rung ch n d hch hc
  | connected n d id =>
    refine decide_eq_false ?_
    rintro rfl
    obtain ⟨-, hm⟩ := h.sound.connected ch n d id hch
    obtain ⟨r, hr, hs⟩ := mem_stakes.mp hm
    exact ((h.fair r hr nofun).2 d hc).1 (congrArg Stake.holder hs)

theorem Kept.inv (h : Kept {} (lostIn s) s) : InvIds s ∧ InvCalls s ∧ InvChannels s := by
  have hs := h.sound
  refine ⟨⟨?_, ?_, fun hq => ?_, ?_, fun r hr => ?_, fun e he => ?_, hs.counter, fun ho => ?_⟩,
    ⟨?_, fun n => ?_, fun n => hs.queued n nofun, fun r hr => (h.fair r hr nofun).1,
      fun c _ hc r hr => (h.fair r hr nofun).2 c hc⟩,
    (channelSound_iff s).mpr ⟨hs.reserved, fun ch n c id hc => ?_⟩, fun r hr ch hc => ?_, fun n => hs.rings n nofun,
    fun c _ hc => h.routed hc⟩
  · simpa [ledger, Config.registerCapacity] using hs.room
  · simpa [ledger, Config.abandonedCapacity] using hs.leftRoom
  · simpa [ledger, Config.registerCapacity] using hs.full (by simpa [ledger] using hq)
  · exact map_id_stakes s ▸ hs.ids
  · exact hs.callId (stakeOf r) (mem_stakes.mpr ⟨r, hr, rfl⟩)
  · exact hs.leftId e.id (List.mem_map_of_mem he)
  · simpa [ledger] using hs.overflowed ho
  · exact map_line_stakes s ▸ hs.lines
  · exact map_line_stakes s ▸ hs.inCall n nofun
  · obtain ⟨r, hr, e⟩ := mem_stakes.mp (hs.connected ch n c id hc).2
    injection e with e1 e2 e3 e4
    exact ⟨r, hr, e1, e2, e3, e4⟩
  · exact hs.held (stakeOf r) (mem_stakes.mpr ⟨r, hr, rfl⟩) nofun ch hc

/-! ### Records -/

theorem ledger_updRecord {g : Stake → Stake} (hf : ∀ r, stakeOf (f r) = g (stakeOf r)) :
    ledger (s.updRecord id f) = (ledger s).change id g := by
  show ({ ledger s with calls := (s.records.map fun r => if r.id = id then f r else r).map stakeOf } : Ledger) =
    { ledger s with calls := (s.records.map stakeOf).map fun x => if x.id = id then g x else x }
  rw [List.map_map, List.map_map]
  refine congrArg (fun xs : List Stake => ({ ledger s with calls := xs } : Ledger)) (List.map_congr_left fun r _ => ?_)
  simp only [Function.comp]
  split
  · next e => rw [if_pos (show (stakeOf r).id = id from e), hf]
  · next e => rw [if_neg (show (stakeOf r).id ≠ id from e)]

theorem ledger_updRecord_same (hf : ∀ r, stakeOf (f r) = stakeOf r) : ledger (s.updRecord id f) = ledger s := by
  rw [ledger_updRecord (g := fun x => x) hf]
  show ({ ledger s with calls := (ledger s).calls.map fun x => if x.id = id then x else x } : Ledger) = ledger s
  have : (fun x : Stake => if x.id = id then x else x) = fun x => x := funext fun x => ite_self x
  rw [this, List.map_id']

theorem mem_updRecord {p : CallRecord} (h : p ∈ (s.updRecord id f).records) :
    (∃ r ∈ s.records, r.id = id ∧ p = f r) ∨ p ∈ s.records ∧ p.id ≠ id := by
  obtain ⟨r, hr, rfl⟩ := List.mem_map.mp h
  split
  · next e => exact .inl ⟨r, hr, e, rfl⟩
  · next e => exact .inr ⟨hr, e⟩

/-- A loose record takes new fields. -/
theorem Kept.updLoose (h : Kept o dead s) (ho : o.call = some id) {g : Stake → Stake}
    (hf : ∀ r, stakeOf (f r) = g (stakeOf r)) (hid : ∀ x, (g x).id = x.id) (hline : ∀ x, (g x).line = x.line) :
    Kept o dead (s.updRecord id f) where
  sound := ledger_updRecord hf ▸ h.sound.change ho hid hline
  fair p hp hc := by
    obtain ⟨r, -, e, rfl⟩ | ⟨hp, -⟩ := mem_updRecord hp
    · refine absurd (ho.trans (congrArg some ?_)) hc
      exact e.symm.trans ((hid (stakeOf r)).symm.trans (congrArg Stake.id (hf r)).symm)
    · exact h.fair p hp hc
  rung := h.rung
  lost := h.lost

/-- A record takes fields that agree. -/
theorem Kept.updRecord (h : Kept o dead s) (hf : ∀ r, stakeOf (f r) = stakeOf r)
    (hfair : ∀ r ∈ s.records, r.id = id → Fair dead (f r))
    (ho : ∀ i, o.call = some i → i = id ∧ ∀ r ∈ s.records, r.id = id → r.channel = none) :
    Kept { o with call := none } dead (s.updRecord id f) where
  sound := by
    rw [ledger_updRecord_same hf]
    refine h.sound.fasten fun x hx hc => ?_
    obtain ⟨r, hr, rfl⟩ := mem_stakes.mp hx
    obtain ⟨hi, hch⟩ := ho _ hc
    exact hch r hr hi
  fair p hp _ := by
    obtain ⟨r, hr, e, rfl⟩ | ⟨hp, hne⟩ := mem_updRecord hp
    · exact hfair r hr e
    · exact h.fair p hp fun hc => hne (ho _ hc).1
  rung := h.rung
  lost := h.lost

/-- A loose record whose fields agree is entered without a channel. -/
theorem Kept.fasten (h : Kept o dead s) (ho : o.call = some id)
    (hr : ∀ r ∈ s.records, r.id = id → r.channel = none ∧ Fair dead r) : Kept { o with call := none } dead s where
  sound := h.sound.fasten fun x hx hc => by
    obtain ⟨r, hm, rfl⟩ := mem_stakes.mp hx
    exact (hr r hm (Option.some.inj (hc.symm.trans ho))).1
  fair r hm _ := by
    by_cases hc : o.call = some r.id
    · exact (hr r hm (Option.some.inj (hc.symm.trans ho))).2
    · exact h.fair r hm hc
  rung := h.rung
  lost := h.lost

/-! ### Channels -/

theorem ledger_setChannel (s : State) (ch : ChannelId) (k : Channel) :
    ledger (s.setChannel ch k) = (ledger s).route ch k := by
  have : (s.setChannel ch k).channel = Function.update s.channel ch k := by
    funext d
    rw [Function.update_apply, State.setChannel_channel]
  show ({ ledger s with channel := (s.setChannel ch k).channel } : Ledger) = _
  rw [this]
  rfl

theorem freeChannel_face (s : State) (ch : ChannelId) : face (s.freeChannel ch) = face (s.setChannel ch .free) := by
  unfold State.freeChannel
  split <;> rfl

theorem ledger_freeHeld (s : State) (x : Option ChannelId) : ledger (s.freeHeld x) = (ledger s).release x := by
  cases x with
  | none => rfl
  | some ch => exact (ledger_of_face (freeChannel_face s ch)).trans (ledger_setChannel ..)

theorem freeHeld_keeps (s : State) (x : Option ChannelId) : (s.freeHeld x).records = s.records ∧
    (s.freeHeld x).centre = s.centre ∧
    ∀ ch, (s.freeHeld x).channel ch = .free ∨ (s.freeHeld x).channel ch = s.channel ch := by
  cases x with
  | none => exact ⟨rfl, rfl, fun _ => .inr rfl⟩
  | some d =>
    have hf : face (s.freeHeld (some d)) = face (s.setChannel d .free) := freeChannel_face s d
    have hch : (s.freeHeld (some d)).channel = (s.setChannel d .free).channel := congrArg Face.channel hf
    refine ⟨(records_of_face hf).trans rfl, (centre_of_face hf).trans rfl, fun ch => ?_⟩
    rw [hch, State.setChannel_channel]
    split
    · exact .inl rfl
    · exact .inr rfl

/-- A record's channel is freed, and the record is loose. -/
theorem Kept.loosen (h : Kept o dead s) (hr : r ∈ s.records) (ho : o.call = none) :
    Kept { o with call := some r.id } dead (s.freeHeld r.channel) := by
  obtain ⟨hrec, hcen, hch⟩ := freeHeld_keeps s r.channel
  exact
    { sound := ledger_freeHeld s r.channel ▸ h.sound.loosen (mem_stakes.mpr ⟨r, hr, rfl⟩) ho
      fair := fun p hp _ => h.fair p (hrec ▸ hp) (by rw [ho]; exact nofun)
      rung := fun ch n c hc => by
        obtain e | e := hch ch
        · rw [e] at hc; cases hc
        · exact h.rung ch n c (e ▸ hc)
      lost := hcen ▸ h.lost }

/-- A loose record takes a free channel for its claimant. -/
theorem Kept.connect (h : Kept o dead s) (ho : o.call = some r.id) (hr : r ∈ s.records) (hh : r.claimant = some c)
    (hc : r.channel = some ch) (hch : s.channel ch = .free) (hfair : Fair dead r) :
    Kept { o with call := none } dead (s.setChannel ch (.connected r.line c r.id)) where
  sound := by
    rw [ledger_setChannel]
    exact h.sound.connect (x := stakeOf r) ho (mem_stakes.mpr ⟨r, hr, rfl⟩) hh hc hch
  fair p hp _ := by
    by_cases e : p.id = r.id
    · exact h.unique hp hr e ▸ hfair
    · exact h.fair p hp fun k => e (Option.some.inj (k.symm.trans ho))
  rung d m e hd := by
    rw [State.setChannel_channel] at hd
    split at hd
    · cases hd
    · exact h.rung d m e hd
  lost := h.lost

end

end Sys2Proof.Proofs

/-! PROOFS. Offers keep the register in order (R104 to R109, R119): they move no stake, and a record that is offered, or
waits, has fields that agree. -/

namespace Sys2Proof.Proofs

open Sys2Proof Sys2Proof.Machine

/-! ### What offers leave alone -/

/-- `t` comes from `s` by offers: no stake and no centre link has changed. -/
structure Offers (s t : State) : Prop where
  ledger : ledger t = ledger s
  centre : t.centre = s.centre

section

variable {s t : State} {o : Loose} {dead : Centre → Prop} {r q : CallRecord} {id : CallId} {n : LineId} {c : Centre}
  {f : CallRecord → CallRecord}

theorem Offers.refl (s : State) : Offers s s := ⟨rfl, rfl⟩
theorem Offers.trans {u : State} (h : Offers s t) (k : Offers t u) : Offers s u :=
  ⟨k.ledger.trans h.ledger, k.centre.trans h.centre⟩

theorem Offers.of_face (h : face t = face s) : Offers s t := ⟨ledger_of_face h, centre_of_face h⟩

theorem Offers.updRecord (hf : ∀ r, stakeOf (f r) = stakeOf r) : Offers s (s.updRecord id f) :=
  ⟨ledger_updRecord_same hf, rfl⟩

theorem Offers.after {u : State} (h : Offers (s.updRecord id f) u) (hf : ∀ r, stakeOf (f r) = stakeOf r) : Offers s u :=
  (Offers.updRecord hf).trans h

theorem Offers.usable (h : Offers s t) (c : Centre) : t.usable c = s.usable c := by
  unfold State.usable
  rw [h.centre]

theorem Offers.each {α : Type} (s : State) (xs : List α) {f : State → α → State} (hf : ∀ u x, Offers u (f u x)) :
    Offers s (s.each xs f) :=
  State.each_keeps (Offers s) f (fun u x hu => hu.trans (hf u x)) s xs (.refl s)

theorem Offers.eachRecord (s : State) {f : State → CallRecord → State} (hf : ∀ u r, Offers u (f u r)) :
    Offers s (s.eachRecord f) :=
  State.eachRecord_keeps (Offers s) f (fun u r hu => hu.trans (hf u r)) s (.refl s)

/-- The face of an offer's state, but for the record. -/
theorem face_offerTo (h : s.recordById id = some r) : face (s.offerTo id c) =
    face (s.updRecord id fun q => q.offeredTo c (s.group r.line.group).health) := by
  unfold State.offerTo
  rw [h]
  exact (face_retone ..).trans (face_placeOffer ..)

theorem offers_offerTo (s : State) (id : CallId) (c : Centre) : Offers s (s.offerTo id c) := by
  cases h : s.recordById id with
  | none => rw [State.offerTo, h]; exact .refl s
  | some r => exact (Offers.of_face (face_offerTo h)).after fun _ => rfl

theorem offers_startOffer (s : State) (id : CallId) : Offers s (s.startOffer id) := .updRecord fun _ => rfl

theorem offers_makeFirstOffer (s : State) (id : CallId) : Offers s (s.makeFirstOffer id) := by
  unfold State.makeFirstOffer
  split
  · exact .refl s
  · dsimp only
    split
    · exact (offers_offerTo ..).trans (offers_startOffer ..)
    · split
      · exact (offers_offerTo ..).trans (offers_startOffer ..)
      · exact (Offers.of_face (face_retone ..)).after fun _ => rfl

theorem offers_offerOrWait (s : State) (id : CallId) (c : Centre) : Offers s (s.offerOrWait id c) := by
  unfold State.offerOrWait
  split
  · exact offers_offerTo ..
  · split
    · exact (Offers.of_face (face_retone ..)).after fun _ => rfl
    · exact .refl s

theorem offers_offerOnUsable (s : State) (c : Centre) (r : CallRecord) : Offers s (s.offerOnUsable c r) := by
  unfold State.offerOnUsable
  split
  · dsimp only
    split
    · exact (offers_offerTo ..).trans (offers_startOffer ..)
    · exact offers_offerTo ..
  · split
    · exact offers_offerTo ..
    · exact .refl s
  · exact .refl s

theorem offers_becomeUsable (s : State) (c : Centre) : Offers s (s.becomeUsable c) :=
  .eachRecord s fun u r => offers_offerOnUsable u c r

theorem offers_escalate (s : State) (r : CallRecord) : Offers s (s.escalate r) := by
  refine (Offers.each _ _ fun u c => ?_).after (f := fun r => { r with flags := { r.flags with escalated := true } })
    fun _ => rfl
  split
  · exact offers_offerTo ..
  · exact .refl u

theorem offers_escalateOffers (s : State) (c : Centre) : Offers s (s.escalateOffers c) := by
  refine .eachRecord s fun u r => ?_
  split
  · exact offers_escalate u r
  · exact .refl u

theorem offers_transferTimedOut (s : State) (r : CallRecord) : Offers s (s.transferTimedOut r) := by
  unfold State.transferTimedOut
  split
  · split
    · exact offers_offerTo ..
    · exact .refl s
  · exact .refl s

theorem offers_resolve (s : State) (r : CallRecord) (res : CaptureResult) : Offers s (s.resolve r res) :=
  (offers_makeFirstOffer ..).after (f := fun q => q.resolved s.acceptance (s.entry r.line) res) fun _ => rfl

theorem offers_markOverdue (s : State) (r : CallRecord) : Offers s (s.markOverdue r) :=
  (Offers.of_face (face_notifyAll ..)).after (f := fun q => { q with flags := { q.flags with overdue := true } })
    fun _ => rfl

/-! ### Records that can be offered -/

/-- An unclaimed record with its location and its result: it can be offered, or wait. -/
structure Draft (dead : Centre → Prop) (r : CallRecord) : Prop where
  claimant : r.claimant = none
  channel : r.channel = none
  long : r.longTimer = none ∧ r.longWaits = false
  transfer : r.transferTimer.isSome = true → r.origin.isSome = true
  location : r.location ≠ none
  capture : r.capture ≠ none
  offered : ∀ c, dead c → r.offered.has c = false

theorem add_has (x : CentreSet) (c d : Centre) : (x.add c).has d = (x.has d || decide (d = c)) := by
  cases c <;> cases d <;> cases x <;> simp [CentreSet.add, CentreSet.has]

theorem add_ne_empty (x : CentreSet) (c : Centre) : x.add c ≠ .empty := by
  cases c <;> cases x <;> simp [CentreSet.add, CentreSet.empty]

theorem Draft.offeredTo (h : Draft dead r) (hc : ¬ dead c) (k : GroupHealth) : Fair dead (r.offeredTo c k) := by
  refine ⟨⟨by simp [CallRecord.offeredTo, h.claimant], by simp [CallRecord.offeredTo, h.channel],
    by simp [CallRecord.offeredTo, add_ne_empty], fun e => ?_, fun _ => h.long, h.transfer,
    by simp [CallRecord.offeredTo, h.location], by simp [CallRecord.offeredTo, h.capture],
    by simp [CallRecord.offeredTo]⟩, fun d hd => ⟨?_, ?_⟩⟩
  · rw [show (r.offeredTo c k).claimant = none from h.claimant] at e
    cases e
  · rw [show (r.offeredTo c k).claimant = none from h.claimant]
    exact nofun
  · show (r.offered.add c).has d = false
    rw [add_has, h.offered d hd, Bool.false_or]
    exact decide_eq_false fun e => hc (e ▸ hd)

theorem Draft.wait (h : Draft dead r) : Fair dead { r with state := .waiting, offered := .empty } := by
  refine ⟨⟨by simp [h.claimant], by simp [h.channel], by simp, fun e => ?_, fun _ => h.long, h.transfer,
    by simp [h.location], by simp [h.capture], by simp⟩, fun d _ => ⟨?_, empty_has d⟩⟩
  · rw [show r.claimant = none from h.claimant] at e
    cases e
  · rw [show r.claimant = none from h.claimant]
    exact nofun

/-- What the fields of a sound record say of its state. -/
theorem sound_unclaimed_iff (h : r.Sound) : r.claimant = none ↔ r.state.unclaimed = true := by
  obtain ⟨hcl, -⟩ := h
  rw [← Option.not_isSome_iff_eq_none, hcl]
  cases r.state <;> simp [CallState.unclaimed]

theorem sound_channel_none (h : r.Sound) (hc : r.state ≠ .connected) : r.channel = none := by
  obtain ⟨-, hch, -⟩ := h
  rw [← Option.not_isSome_iff_eq_none, hch]
  exact hc

theorem draft_of_fair (h : Fair dead r) (hs : r.state = .waiting ∨ r.state = .offered) : Draft dead r := by
  have hu : r.claimant = none := (sound_unclaimed_iff h.1).mpr (by obtain e | e := hs <;> rw [e] <;> rfl)
  have hi : r.state ≠ .identifying := by obtain e | e := hs <;> rw [e] <;> exact nofun
  have hch := sound_channel_none h.1 (by obtain e | e := hs <;> rw [e] <;> exact nofun)
  obtain ⟨⟨-, -, -, -, hlong, htr, hloc, hcap, -⟩, hd⟩ := h
  exact ⟨hu, hch, hlong hu, htr, fun e => hi (hloc.mp e), fun e => hi (hcap.mp e), fun c hc => (hd c hc).2⟩

theorem offered_of_has (h : r.Sound) (hc : r.offered.has c = true) : r.state = .offered := by
  obtain ⟨-, -, ho, -⟩ := h
  refine ho.mp fun e => ?_
  rw [e, empty_has] at hc
  cases hc

/-! ### Offers keep the register in order -/

/-- No record is loose but the one that is offered. -/
def Loose.at (o : Loose) (id : CallId) : Prop := ∀ i, o.call = some i → i = id

theorem Kept.offerTo (h : Kept o dead s) (hc : ¬ dead c) (hr : ∀ r ∈ s.records, r.id = id → Draft dead r)
    (ho : o.at id) : Kept { o with call := none } dead (s.offerTo id c) := by
  cases hid : s.recordById id with
  | none =>
    rw [State.offerTo, hid]
    have hno : ∀ r ∈ s.records, r.id ≠ id := fun r hr e => by
      have := List.find?_eq_none.mp hid r hr
      simp [e] at this
    have hcall : ∀ i, o.call = some i → ∀ r ∈ s.records, r.id ≠ i := fun i hi r hr e => hno r hr (e.trans (ho i hi))
    refine ⟨h.sound.fasten fun x hx hi => ?_, fun r hr _ => h.fair r hr fun e => hcall _ e r hr rfl, h.rung, h.lost⟩
    obtain ⟨r, hr, rfl⟩ := mem_stakes.mp hx
    exact absurd rfl (hcall _ hi r hr)
  | some r =>
    refine Kept.of_face ?_ (face_offerTo hid)
    exact h.updRecord (fun _ => rfl) (fun q hq e => (hr q hq e).offeredTo hc _) fun i hi =>
      ⟨ho i hi, fun q hq e => (hr q hq e).channel⟩

theorem at_none (h : o.call = none) (id : CallId) : o.at id := fun i hi => by rw [h] at hi; cases hi

/-- A record waits. -/
theorem Kept.wait (h : Kept o dead s) (hr : ∀ r ∈ s.records, r.id = id → Draft dead r) (ho : o.at id) :
    Kept { o with call := none } dead ((s.updRecord id fun r => { r with state := .waiting, offered := .empty }).retone n) :=
  .of_face (h.updRecord (f := fun r => { r with state := .waiting, offered := .empty }) (fun _ => rfl)
    (fun q hq e => (hr q hq e).wait) fun i hi => ⟨ho i hi, fun q hq e => (hr q hq e).channel⟩) (face_retone ..)

/-- The first-offer tick and the escalation timer of an offered record. -/
theorem Kept.startOffer (h : Kept o dead s) (ho : o.call = none)
    (hr : ∀ r ∈ s.records, r.id = id → r.state = .offered) : Kept o dead (s.startOffer id) := by
  have hk : Kept { o with call := none } dead (s.startOffer id) := by
    refine h.updRecord (fun _ => rfl) (fun r hm e => ?_) fun i hi => by rw [ho] at hi; cases hi
    have hs := hr r hm e
    obtain ⟨h1, hd⟩ := h.fair r hm (by rw [ho]; exact nofun)
    have hu := (sound_unclaimed_iff h1).mpr (by rw [hs]; rfl)
    obtain ⟨hcl, hch, hof, -, hlong, htr, hloc, hcap, -⟩ := h1
    refine ⟨⟨hcl, hch, hof, fun e => ?_, hlong, htr, hloc, hcap, fun e => ?_⟩, hd⟩
    · rw [show r.claimant = none from hu] at e; cases e
    · rw [show r.state = .offered from hs] at e; cases e
  rw [show o = { o with call := none } by rw [← ho]]
  exact hk

/-- The state of the record that was offered. -/
theorem state_offerTo (h : s.recordById id = some r) (hq : q ∈ (s.offerTo id c).records) (e : q.id = id) :
    q.state = .offered := by
  rw [records_of_face ((face_offerTo h).trans rfl)] at hq
  obtain ⟨p, -, -, rfl⟩ | ⟨-, hne⟩ := mem_updRecord hq
  · rfl
  · exact absurd e hne

theorem Kept.makeFirstOffer (h : Kept o dead s) (hr : ∀ r ∈ s.records, r.id = id → Draft dead r) (ho : o.at id)
    (hid : s.recordById id = some r) : Kept { o with call := none } dead (s.makeFirstOffer id) := by
  have hoff : ∀ {c : Centre}, s.usable c = true → Kept { o with call := none } dead ((s.offerTo id c).startOffer id) :=
    fun hu => (h.offerTo (h.usable_not_dead hu) hr ho).startOffer rfl fun q hq e => state_offerTo hid hq e
  unfold State.makeFirstOffer
  rw [hid]
  dsimp only
  split
  · next hu => exact hoff hu
  · split
    · next hu => exact hoff hu
    · exact h.wait hr ho

theorem Kept.offerOrWait (h : Kept o dead s) (hr : ∀ r ∈ s.records, r.id = id → Draft dead r) (ho : o.at id)
    (hid : s.recordById id = some r) : Kept { o with call := none } dead (s.offerOrWait id c) := by
  unfold State.offerOrWait
  split
  · next hu => exact h.offerTo (h.usable_not_dead hu) hr ho
  · rw [hid]
    exact h.wait hr ho

end

/-! ### Offers outside an operation on one record -/

section

variable {s : State} {dead : Centre → Prop} {r : CallRecord} {c : Centre} {m : Option LineId} {k : Nat}

/-- Nothing is owed of a call. -/
abbrev Entered (m : Option LineId) (k : Nat) : Loose := { line := m, call := none, short := k }

theorem Kept.fair_mem (h : Kept (Entered m k) dead s) (hr : r ∈ s.records) : Fair dead r := h.fair r hr nofun

theorem Kept.draft (h : Kept (Entered m k) dead s) (hr : r ∈ s.records) (hs : r.state = .waiting ∨ r.state = .offered) :
    ∀ q ∈ s.records, q.id = r.id → Draft dead q := fun q hq e => by
  rw [h.unique hq hr e]
  exact draft_of_fair (h.fair_mem hr) hs

theorem Kept.offer (h : Kept (Entered m k) dead s) (hc : ¬ dead c) (hr : r ∈ s.records)
    (hs : r.state = .waiting ∨ r.state = .offered) : Kept (Entered m k) dead (s.offerTo r.id c) :=
  Kept.offerTo h hc (h.draft hr hs) (at_none rfl _)

theorem Kept.each {o : Loose} {α : Type} (h : Kept o dead s) (xs : List α) {f : State → α → State}
    (hf : ∀ u x, Kept o dead u → x ∈ xs → Kept o dead (f u x)) : Kept o dead (s.each xs f) := by
  induction xs generalizing s with
  | nil => exact h
  | cons x rest ih =>
    exact ih (hf s x h (List.mem_cons_self ..)) fun u y hu hy => hf u y hu (List.mem_cons_of_mem _ hy)

theorem Kept.eachRecord {o : Loose} (h : Kept o dead s) {f : State → CallRecord → State}
    (hf : ∀ u r, Kept o dead u → r ∈ u.records → Kept o dead (f u r)) : Kept o dead (s.eachRecord f) := by
  refine h.each _ fun u id hu _ => ?_
  show Kept o dead (match u.recordById id with
    | some r => f u r
    | none => u)
  split
  · next r hr => exact hf u r hu (mem_of_recordById hr).1
  · exact hu

theorem Kept.offerOnUsable (h : Kept (Entered m k) dead s) (hc : ¬ dead c) (hr : r ∈ s.records) :
    Kept (Entered m k) dead (s.offerOnUsable c r) := by
  unfold State.offerOnUsable
  split
  · next hs =>
    dsimp only
    split
    · exact (h.offer hc hr (.inl hs)).startOffer rfl fun q hq e => state_offerTo (h.recordById hr) hq e
    · exact h.offer hc hr (.inl hs)
  · next hs =>
    split
    · exact h.offer hc hr (.inr hs)
    · exact h
  · exact h

theorem Kept.becomeUsable (h : Kept (Entered m k) dead s) (hc : ¬ dead c) : Kept (Entered m k) dead (s.becomeUsable c) :=
  h.eachRecord fun _ _ hu hr => hu.offerOnUsable hc hr

/-- Fields that soundness does not read. -/
theorem Kept.decorate {o : Loose} {id : CallId} {f : CallRecord → CallRecord} (h : Kept o dead s) (ho : o.call = none)
    (hf : ∀ r, stakeOf (f r) = stakeOf r) (hfair : ∀ r ∈ s.records, r.id = id → Fair dead r → Fair dead (f r)) :
    Kept o dead (s.updRecord id f) := by
  have hk := h.updRecord (id := id) hf (fun r hr e => hfair r hr e (h.fair r hr (by rw [ho]; exact nofun)))
    fun i hi => by rw [ho] at hi; cases hi
  rw [show o = { o with call := none } by rw [← ho]]
  exact hk

theorem Kept.escalate (h : Kept (Entered m k) dead s) (hd : ∀ q ∈ s.records, q.id = r.id → Draft dead q) :
    Kept (Entered m k) dead (s.escalate r) := by
  have hdrafts : ∀ u : State, Kept (Entered m k) dead u → (∀ q ∈ u.records, q.id = r.id → Draft dead q) →
      ∀ c : Centre, ¬ dead c → Kept (Entered m k) dead (u.offerTo r.id c) := fun u hu hd c hc =>
    Kept.offerTo hu hc hd (at_none rfl _)
  have hmark : Kept (Entered m k) dead
      (s.updRecord r.id fun q => { q with flags := { q.flags with escalated := true } }) :=
    h.decorate rfl (fun _ => rfl) fun q _ _ hq => ⟨hq.1, hq.2⟩
  have hinv : Kept (Entered m k) dead (s.escalate r) ∧ ∀ q ∈ (s.escalate r).records, q.id = r.id → Draft dead q := by
    unfold State.escalate
    dsimp only
    refine State.each_keeps (fun u => Kept (Entered m k) dead u ∧ ∀ q ∈ u.records, q.id = r.id → Draft dead q) _
      (fun u c hu => ?_) _ _ ⟨hmark, fun q hq e => ?_⟩
    · split
      · next hc =>
        have hlive : ¬ dead c.partner := hu.1.usable_not_dead (by simp_all)
        have ho := hdrafts u hu.1 hu.2 _ hlive
        refine ⟨ho, fun q hq e => draft_of_fair (ho.fair_mem hq) (.inr ?_)⟩
        cases hid : u.recordById r.id with
        | none =>
          rw [State.offerTo, hid] at hq
          have := List.find?_eq_none.mp hid q hq
          simp [e] at this
        | some p => exact state_offerTo hid hq e
      · exact hu
    · obtain ⟨p, hp, ep, rfl⟩ | ⟨-, hne⟩ := mem_updRecord hq
      · have hd := hd p hp ep
        exact ⟨hd.claimant, hd.channel, hd.long, hd.transfer, hd.location, hd.capture, hd.offered⟩
      · exact absurd e hne
  exact hinv.1

theorem Kept.escalateOffers (h : Kept (Entered m k) dead s) : Kept (Entered m k) dead (s.escalateOffers c) := by
  refine h.eachRecord fun u r hu hr => ?_
  split
  · next hs => exact hu.escalate (hu.draft hr (.inr (by simp_all)))
  · exact hu

theorem Kept.transferTimedOut (h : Kept (Entered m k) dead s) (hd : ∀ q ∈ s.records, q.id = r.id → Draft dead q) :
    Kept (Entered m k) dead (s.transferTimedOut r) := by
  unfold State.transferTimedOut
  split
  · split
    · next hc =>
      refine Kept.offerTo h (fun hk => ?_) hd (at_none rfl _)
      rw [h.lost _ hk] at hc
      simp at hc
    · exact h
  · exact h

end

end Sys2Proof.Proofs

/-! PROOFS. The duties (R103, R104, R122 to R125): the fall-back and the completion of a handover leave each link the
duty that the invariant allows it, and the register in order. -/

namespace Sys2Proof.Proofs

open Sys2Proof Sys2Proof.Machine

/-! ### The invariant of the duties -/

/-- The duties but for the standby fall-back: one link of the two is ACTIVE, and a link that is handing over claims a
record and has a partner that is not LOST. -/
structure Duties (s : State) : Prop where
  one : ∀ c : Centre, (s.centre c).duty ≠ .active → (s.centre c.partner).duty = .active
  handing : ∀ c, (s.centre c).duty = .handingOver → s.claimsAny c = true ∧ (s.centre c.partner).health ≠ .lost

/-- A STANDBY link that is heard has a usable partner. -/
def Rested (s : State) : Prop :=
  ∀ c, s.usable c = false → s.usable c.partner = false → (s.centre c).duty = .standby →
    (s.centre c).health.heard = false

section

variable {s t : State} {c : Centre} {dead : Centre → Prop} {m : Option LineId} {k : Nat} {r : CallRecord}

theorem forall_centre {p : Centre → Prop} : (∀ c ∈ [Centre.a, .b], p c) ↔ ∀ c, p c :=
  ⟨fun h c => h c (by cases c <;> decide), fun h c _ => h c⟩

theorem invDuty_iff (s : State) : InvDuty s ↔ Duties s ∧ Rested s := by
  unfold InvDuty
  rw [forall_centre, forall_centre]
  constructor
  · rintro ⟨h1, h2, h3⟩
    refine ⟨⟨fun c hc => ?_, h2⟩, fun c hc hp => ?_⟩
    · cases c
      · exact h1.resolve_left hc
      · exact h1.resolve_right hc
    · cases c
      · exact h3 .a hc hp
      · exact h3 .b hp hc
  · rintro ⟨⟨h1, h2⟩, h3⟩
    refine ⟨?_, h2, fun c ha hb => ?_⟩
    · by_cases hc : (s.centre .a).duty = .active
      · exact .inl hc
      · exact .inr (h1 .a hc)
    · cases c
      · exact h3 .a ha hb
      · exact h3 .b hb ha

theorem claimsAny_iff (s : State) (c : Centre) : s.claimsAny c = true ↔ ∃ x ∈ (ledger s).calls, x.holder = some c := by
  unfold State.claimsAny
  rw [List.any_eq_true]
  constructor
  · rintro ⟨r, hr, e⟩
    exact ⟨stakeOf r, mem_stakes.mpr ⟨r, hr, rfl⟩, by simpa [stakeOf] using e⟩
  · rintro ⟨x, hx, e⟩
    obtain ⟨r, hr, rfl⟩ := mem_stakes.mp hx
    exact ⟨r, hr, by simpa [stakeOf] using e⟩

theorem claimsAny_of_calls (h : (ledger t).calls = (ledger s).calls) (c : Centre) : t.claimsAny c = s.claimsAny c := by
  rw [Bool.eq_iff_iff, claimsAny_iff, claimsAny_iff, h]

/-- What the duties read. -/
theorem invDuty_congr (hc : ∀ c, t.claimsAny c = s.claimsAny c) (hh : ∀ c, (t.centre c).health = (s.centre c).health)
    (hd : ∀ c, (t.centre c).duty = (s.centre c).duty) (h : InvDuty s) : InvDuty t := by
  obtain ⟨⟨h1, h2⟩, h3⟩ := (invDuty_iff s).mp h
  have hu : ∀ c, t.usable c = s.usable c := fun c => by simp only [State.usable, hh, hd]
  refine (invDuty_iff t).mpr ⟨⟨fun c => ?_, fun c => ?_⟩, fun c => ?_⟩
  · rw [hd, hd]; exact h1 c
  · rw [hd, hc, hh]; exact h2 c
  · rw [hu, hu, hd, hh]; exact h3 c

theorem Offers.invDuty (h : Offers s t) (hs : InvDuty s) : InvDuty t :=
  invDuty_congr (claimsAny_of_calls (congrArg Ledger.calls h.ledger)) (fun c => by rw [h.centre])
    (fun c => by rw [h.centre]) hs

theorem invDuty_of_face (h : face t = face s) (hs : InvDuty s) : InvDuty t := (Offers.of_face h).invDuty hs

/-! ### The fall-back -/

/-- One link's turn in the fall-back. -/
def calledUp (s : State) (c : Centre) : State :=
  if (s.centre c).duty = .standby && (s.centre c).health.heard then
    ((s.setDuty c .active).notify c.link .dutyResumed).becomeUsable c
  else s

theorem ledger_setDuty (s : State) (c : Centre) (d : Duty) : ledger (s.setDuty c d) = ledger s := by cases c <;> rfl

theorem centre_setDuty (s : State) (c : Centre) (d : Duty) (e : Centre) :
    (s.setDuty c d).centre e = if e = c then { s.centre c with duty := d } else s.centre e := by
  unfold State.setDuty
  rw [State.setCentre_centre]

theorem Kept.setDuty {o : Loose} (h : Kept o dead s) (c : Centre) (d : Duty) : Kept o dead (s.setDuty c d) where
  sound := ledger_setDuty s c d ▸ h.sound
  fair := by cases c <;> exact h.fair
  rung := by cases c <;> exact h.rung
  lost e he := by
    rw [centre_setDuty]
    split
    · next hc => exact hc ▸ h.lost e he
    · exact h.lost e he

theorem calledUp_spec (s : State) (c : Centre) : ledger (calledUp s c) = ledger s ∧
    ∀ e, (calledUp s c).centre e = if e = c ∧ resumes s c = true then { s.centre c with duty := .active } else s.centre e := by
  unfold calledUp resumes
  split
  · next h =>
    have hb := offers_becomeUsable ((s.setDuty c .active).notify c.link .dutyResumed) c
    have hn := face_notify (s.setDuty c .active) c.link .dutyResumed
    refine ⟨hb.ledger.trans ((ledger_of_face hn).trans (ledger_setDuty ..)), fun e => ?_⟩
    rw [hb.centre, centre_of_face hn, centre_setDuty]
    simp only [h, and_true]
  · next h =>
    refine ⟨rfl, fun e => ?_⟩
    rw [if_neg fun he => h he.2]

theorem fallback_eq_calledUp (s : State) (h : (s.usable .a || s.usable .b) = false) :
    s.fallback = calledUp (calledUp s .a) .b := by
  unfold State.fallback
  rw [h]
  rfl

/-- What the fall-back does to the duties; it moves no stake and no health. -/
theorem fallback_spec (s : State) : ledger s.fallback = ledger s ∧
    (∀ c, (s.fallback.centre c).health = (s.centre c).health) ∧
    ∀ c, (s.fallback.centre c).duty =
      if s.usable c = false ∧ s.usable c.partner = false ∧ resumes s c = true then .active else (s.centre c).duty := by
  by_cases h : (s.usable .a || s.usable .b) = true
  · have hs : s.fallback = s := if_pos h
    rw [hs]
    refine ⟨rfl, fun _ => rfl, fun c => (if_neg ?_).symm⟩
    rintro ⟨h1, h2, -⟩
    cases c <;> simp_all [Centre.partner]
  · rw [Bool.not_eq_true] at h
    obtain ⟨ha, hb⟩ := Bool.or_eq_false_iff.mp h
    obtain ⟨hl, hc⟩ := calledUp_spec s .a
    obtain ⟨hl', hc'⟩ := calledUp_spec (calledUp s .a) .b
    have hr : resumes (calledUp s .a) .b = resumes s .b := by
      unfold resumes
      rw [hc, if_neg fun e => by cases e.1]
    rw [fallback_eq_calledUp s h]
    refine ⟨hl'.trans hl, fun c => ?_, fun c => ?_⟩
    · rw [hc', hr, hc, hc]
      cases c <;> simp only [reduceCtorEq, false_and, true_and, if_false] <;> split <;> rfl
    · rw [hc', hr, hc, hc]
      cases c <;> simp only [reduceCtorEq, false_and, true_and, if_false, ha, hb, Centre.partner] <;> split <;> rfl

/-- After the fall-back the whole invariant holds. -/
theorem invDuty_fallback (h : Duties s) : InvDuty s.fallback := by
  obtain ⟨hl, hh, hd⟩ := fallback_spec s
  have hcl : ∀ c, s.fallback.claimsAny c = s.claimsAny c := claimsAny_of_calls (congrArg Ledger.calls hl)
  have hact : ∀ c, (s.centre c).duty = .active → (s.fallback.centre c).duty = .active := fun c hc => by
    rw [hd]; split
    · rfl
    · exact hc
  have hkept : ∀ c, (s.fallback.centre c).duty ≠ .active → (s.fallback.centre c).duty = (s.centre c).duty := fun c hc => by
    rw [hd] at hc ⊢; split at hc
    · exact absurd rfl hc
    · next hn => exact if_neg hn
  refine (invDuty_iff _).mpr ⟨⟨fun c hc => ?_, fun c hc => ?_⟩, fun c _ hp hc => ?_⟩
  · exact hact _ (h.one c (hkept c hc ▸ hc))
  · rw [hcl, hh]
    exact h.handing c (hkept c (by rw [hc]; exact nofun) ▸ hc)
  · have hstand : (s.centre c).duty = .standby := hkept c (by rw [hc]; exact nofun) ▸ hc
    rw [hh]
    by_contra hheard
    rw [Bool.not_eq_false] at hheard
    have hres : resumes s c = true := by simp [resumes, hstand, hheard]
    by_cases hup : s.usable c.partner = true
    · obtain ⟨h1, h2⟩ := usable_iff.mp hup
      rw [usable_iff.mpr ⟨(hh _).symm ▸ h1, hact _ h2⟩] at hp
      cases hp
    · rw [hd, if_pos ⟨usable_of_resumes hres, by simpa using hup, hres⟩] at hc
      cases hc

theorem Kept.calledUp (h : Kept (Entered m k) dead s) (c : Centre) : Kept (Entered m k) dead (calledUp s c) := by
  unfold Proofs.calledUp
  split
  · next hs =>
    have hlive : ¬ dead c := h.not_dead (by simp_all)
    exact (((h.setDuty c _).of_face (face_notify ..)).becomeUsable hlive)
  · exact h

theorem Kept.fallback (h : Kept (Entered m k) dead s) : Kept (Entered m k) dead s.fallback := by
  by_cases hu : (s.usable .a || s.usable .b) = true
  · rw [show s.fallback = s from if_pos hu]
    exact h
  · rw [fallback_eq_calledUp s (by simpa using hu)]
    exact (h.calledUp .a).calledUp .b

/-! ### A change of health -/

theorem Kept.healthChanged (h : Kept (Entered m k) dead s) (c : Centre) (old : Health) :
    Kept (Entered m k) dead (s.healthChanged c old) := by
  unfold State.healthChanged
  dsimp only
  split
  · exact h
  · refine Kept.fallback ?_
    split
    · exact h.escalateOffers
    · split
      · next hs => exact h.becomeUsable (h.not_dead (by simp_all))
      · exact h

theorem Duties.of_offers (h : Duties s) (ho : Offers s t) : Duties t where
  one d := by rw [ho.centre]; exact h.one d
  handing d := by rw [ho.centre, claimsAny_of_calls (congrArg Ledger.calls ho.ledger)]; exact h.handing d

theorem invDuty_healthChanged {old : Health} (h : Duties s) (hr : (s.centre c).health = old → Rested s) :
    InvDuty (s.healthChanged c old) := by
  have hoff : ∀ u, Offers s u → InvDuty u.fallback := fun u hu => invDuty_fallback (h.of_offers hu)
  unfold State.healthChanged
  dsimp only
  split
  · next e => exact (invDuty_iff s).mpr ⟨h, hr e⟩
  · refine hoff _ ?_
    split
    · exact offers_escalateOffers s c
    · split
      · exact offers_becomeUsable s c
      · exact .refl s

/-! ### A record that leaves an offered set -/

theorem remove_has (x : CentreSet) (c d : Centre) : (x.remove c).has d = (x.has d && decide (d ≠ c)) := by
  cases c <;> cases d <;> cases x <;> simp [CentreSet.remove, CentreSet.has]

theorem Kept.open (h : Kept (Entered m k) dead s) (hr : r ∈ s.records) (hc : r.channel = none) :
    Kept { Entered m k with call := some r.id } dead s := by
  have := h.loosen hr rfl
  rw [hc] at this
  exact this

/-- The record that has left the offered set of a link. -/
def unoffered (r : CallRecord) (c : Centre) : CallRecord := { r with offered := r.offered.remove c }

theorem Draft.unoffered (h : Draft dead r) (c : Centre) : Draft dead (unoffered r c) :=
  { h with
    offered := fun d hd => by
      show (r.offered.remove c).has d = false
      rw [remove_has, h.offered d hd, Bool.false_and] }

/-- A record leaves an offered set; it is loose until it is offered again, or known to be offered still. -/
theorem Kept.unoffer (h : Kept (Entered m k) dead s) (hr : r ∈ s.records) (hs : r.state = .waiting ∨ r.state = .offered)
    (c : Centre) :
    let u := s.updRecord r.id fun q => { q with offered := q.offered.remove c }
    Kept { Entered m k with call := some r.id } dead u ∧ u.recordById r.id = some (unoffered r c) ∧
      ∀ q ∈ u.records, q.id = r.id → q = unoffered r c := by
  have hd := draft_of_fair (h.fair_mem hr) hs
  have hk := (h.open hr hd.channel).updLoose (f := fun q => { q with offered := q.offered.remove c }) rfl
    (g := fun x => x) (fun _ => rfl) (fun _ => rfl) (fun _ => rfl)
  have huniq : ∀ q ∈ (s.updRecord r.id fun q => { q with offered := q.offered.remove c }).records, q.id = r.id →
      q = unoffered r c := by
    intro q hq e
    obtain ⟨p, hp, ep, rfl⟩ | ⟨-, hne⟩ := mem_updRecord hq
    · rw [h.unique hp hr ep]; rfl
    · exact absurd e hne
  refine ⟨hk, ?_, huniq⟩
  have hmem : unoffered r c ∈ (s.updRecord r.id fun q => { q with offered := q.offered.remove c }).records :=
    List.mem_map.mpr ⟨r, hr, if_pos rfl⟩
  exact hk.recordById hmem

/-- A record that is still offered to another link. -/
theorem Draft.still_offered (h : Draft dead r) (hs : r.state = .offered) {c d : Centre} (hd : r.offered.has d = true)
    (hne : d ≠ c) : Fair dead (Proofs.unoffered r c) := by
  have hu := h.unoffered c
  refine ⟨⟨?_, ?_, ?_, fun e => ?_, fun _ => h.long, h.transfer, ?_, ?_, fun e => ?_⟩, fun e he => ⟨?_, hu.offered e he⟩⟩
  · simp [Proofs.unoffered, h.claimant, hs]
  · simp [Proofs.unoffered, h.channel, hs]
  · have : (r.offered.remove c).has d = true := by rw [remove_has, hd]; simpa using hne
    refine ⟨fun _ => hs, fun _ e => ?_⟩
    rw [show r.offered.remove c = .empty from e, empty_has] at this
    cases this
  · rw [show (Proofs.unoffered r c).claimant = none from h.claimant] at e; cases e
  · simp [Proofs.unoffered, h.location, hs]
  · simp [Proofs.unoffered, h.capture, hs]
  · rw [show (Proofs.unoffered r c).state = .offered from hs] at e; cases e
  · rw [show (Proofs.unoffered r c).claimant = none from h.claimant]; exact nofun

/-! ### The completion of a handover -/

/-- One record's turn in the completion of a handover. -/
def handedOn (c : Centre) (s : State) (r : CallRecord) : State :=
  if r.offered.has c then
    let s := s.updRecord r.id fun r => { r with offered := r.offered.remove c }
    let s := s.withdrawFrom r c .handover
    if r.offered.has c.partner then s else s.offerOrWait r.id c.partner
  else s

theorem offers_handedOn (c : Centre) (s : State) (r : CallRecord) : Offers s (handedOn c s r) := by
  have hw : Offers s ((s.updRecord r.id fun r => { r with offered := r.offered.remove c }).withdrawFrom r c .handover) :=
    (Offers.of_face (face_withdrawFrom ..)).after fun _ => rfl
  unfold handedOn
  dsimp only
  split
  · split
    · exact hw
    · exact hw.trans (offers_offerOrWait ..)
  · exact .refl s

theorem Kept.handedOn (h : Kept (Entered m k) dead s) (hr : r ∈ s.records) (c : Centre) :
    Kept (Entered m k) dead (handedOn c s r) := by
  unfold Proofs.handedOn
  dsimp only
  split
  · next ho =>
    have hs := offered_of_has (h.fair_mem hr).1 ho
    have hd := draft_of_fair (h.fair_mem hr) (.inr hs)
    obtain ⟨hk, hid, huniq⟩ := h.unoffer hr (.inr hs) c
    have hk' := hk.of_face (face_withdrawFrom _ r c .handover)
    have hrec := records_of_face (face_withdrawFrom (s.updRecord r.id fun q => { q with offered := q.offered.remove c }) r c
      .handover)
    split
    · next hp =>
      refine hk'.fasten rfl fun q hq e => ?_
      rw [huniq q (hrec ▸ hq) e]
      exact ⟨hd.channel, hd.still_offered hs hp (partner_ne c)⟩
    · refine hk'.offerOrWait (fun q hq e => ?_) (fun i hi => (Option.some.inj hi).symm) (r := unoffered r c) ?_
      · rw [huniq q (hrec ▸ hq) e]
        exact hd.unoffered c
      · unfold State.recordById
        rw [hrec]
        exact hid
  · exact h

theorem completeHandover_turns (s : State) (c : Centre) : s.completeHandover c =
    (((s.setDuty c .standby).eachRecord (handedOn c)).notify c.link .handoverDone).fallback := rfl

theorem Kept.completeHandover (h : Kept (Entered m k) dead s) (c : Centre) :
    Kept (Entered m k) dead (s.completeHandover c) := by
  rw [completeHandover_turns]
  exact (((h.setDuty c _).eachRecord fun u r hu hr => hu.handedOn hr c).of_face (face_notify ..)).fallback

theorem Kept.checkHandover (h : Kept (Entered m k) dead s) (c : Centre) : Kept (Entered m k) dead (s.checkHandover c) := by
  unfold State.checkHandover
  split
  · exact h.completeHandover c
  · exact h

theorem Kept.checkHandoverOf (h : Kept (Entered m k) dead s) (c : Option Centre) :
    Kept (Entered m k) dead (s.checkHandoverOf c) := by
  unfold State.checkHandoverOf
  split
  · exact h.checkHandover _
  · exact h

/-- The duties at the completion of a handover. -/
theorem invDuty_completeHandover (hp : (s.centre c.partner).duty = .active) : InvDuty (s.completeHandover c) := by
  rw [completeHandover_turns]
  have hoff : Offers (s.setDuty c .standby)
      (((s.setDuty c .standby).eachRecord (handedOn c)).notify c.link .handoverDone) :=
    (Offers.eachRecord _ (offers_handedOn c)).trans (.of_face (face_notify ..))
  have hact : ∀ d, d ≠ c → d = c.partner := fun d hd => by
    cases c <;> cases d <;> first | exact absurd rfl hd | rfl
  have hdp : ∀ d, d ≠ c → ((s.setDuty c .standby).centre d).duty = .active := fun d hd => by
    rw [centre_setDuty, if_neg hd, hact d hd]
    exact hp
  refine invDuty_fallback ⟨fun d hd => ?_, fun d hd => ?_⟩
  · rw [hoff.centre] at hd ⊢
    by_cases e : d = c
    · exact e ▸ hdp _ (partner_ne c)
    · exact absurd (hdp d e) hd
  · rw [hoff.centre] at hd
    by_cases e : d = c
    · rw [e, centre_setDuty, if_pos rfl] at hd
      cases hd
    · rw [hdp d e] at hd
      cases hd

/-- The check after a link may have lost its last claim: the other link's claims stand. -/
theorem invDuty_checkHandover (h1 : ∀ d : Centre, (s.centre d).duty ≠ .active → (s.centre d.partner).duty = .active)
    (h2 : ∀ d, (s.centre d).duty = .handingOver → (d ≠ c → s.claimsAny d = true) ∧ (s.centre d.partner).health ≠ .lost)
    (h3 : Rested s) : InvDuty (s.checkHandover c) := by
  unfold State.checkHandover
  split
  · next hc =>
    refine invDuty_completeHandover (h1 c ?_)
    intro e
    rw [e] at hc
    simp at hc
  · next hc =>
    refine (invDuty_iff s).mpr ⟨⟨h1, fun d hd => ⟨?_, (h2 d hd).2⟩⟩, h3⟩
    by_cases e : d = c
    · subst e
      simpa [hd] using hc
    · exact (h2 d hd).1 e

/-- A claim has gone, that of `x` at most, before the check of `x`'s handover. -/
theorem invDuty_checkHandoverOf {x : Option Centre} (h : InvDuty t)
    (hh : ∀ c, (s.centre c).health = (t.centre c).health) (hd : ∀ c, (s.centre c).duty = (t.centre c).duty)
    (hc : ∀ c, x ≠ some c → t.claimsAny c = true → s.claimsAny c = true) : InvDuty (s.checkHandoverOf x) := by
  obtain ⟨⟨h1, h2⟩, h3⟩ := (invDuty_iff t).mp h
  have hu : ∀ c, s.usable c = t.usable c := fun c => by simp only [State.usable, hh, hd]
  have h1' : ∀ d : Centre, (s.centre d).duty ≠ .active → (s.centre d.partner).duty = .active := fun d => by
    rw [hd, hd]; exact h1 d
  have h3' : Rested s := fun d => by rw [hu, hu, hd, hh]; exact h3 d
  unfold State.checkHandoverOf
  split
  · next c =>
    refine invDuty_checkHandover h1' (fun d k => ?_) h3'
    rw [hd] at k
    rw [hh]
    exact ⟨fun e => hc d (fun e' => e (Option.some.inj e').symm) (h2 d k).1, (h2 d k).2⟩
  · refine (invDuty_iff s).mpr ⟨⟨h1', fun d k => ?_⟩, h3'⟩
    rw [hd] at k
    rw [hh]
    exact ⟨hc d nofun (h2 d k).1, (h2 d k).2⟩

end

end Sys2Proof.Proofs

/-! PROOFS. The register's own operations (R85 to R95): a record that joins, a line that queues, a capture that ends. -/

namespace Sys2Proof.Proofs

open Sys2Proof Sys2Proof.Machine

/-! ### Two entries at once -/

section

variable {b : Ledger} {o : Loose} {n : LineId} {k : Condition} {ch : ChannelId} {c : Centre} {x : Stake}

/-- A line that nothing names may be owed again, whatever its condition says. -/
theorem Ledger.Sound.reopen (h : b.Sound o) (hv : b.Vacant n) (k : Condition) (ho : o.line = none) :
    (b.become n k).Sound { o with line := some n } := by
  have hcond : ∀ m, m ≠ n → (b.become n k).condition m = b.condition m := fun m hm => Function.update_of_ne hm ..
  have hopen : ∀ m, o.line ≠ some m := fun m e => by rw [ho] at e; cases e
  have hne : ∀ {m}, some n ≠ some m → m ≠ n := fun hm e => hm (congrArg some e.symm)
  exact
    { h with
      inCall := fun m hm => by rw [hcond m (hne hm)]; exact h.inCall m (hopen m)
      queued := fun m hm => by rw [hcond m (hne hm)]; exact h.queued m (hopen m)
      vacant := fun m hm => by cases hm; exact hv.of_eq rfl rfl rfl
      reserved := fun d m e hd => by
        rw [hcond m fun e' => hv.channel d e (e' ▸ hd)]
        exact h.reserved d m e hd
      rings := fun m hm => by rw [hcond m (hne hm)]; exact h.rings m (hopen m) }

/-- A line of the overflow list has its call in the register, whatever other line's condition is owed. -/
theorem Ledger.Sound.advance (h : b.Sound o) {q : List LineId} (hq : b.queue.Perm (x.line :: q))
    (hroom : b.calls.length < 16) (hid : x.id ∉ b.calls.map (·.id) ++ b.left) (hz : x.id ≠ 0) (hc : o.call = none) :
    (({ b with queue := q } : Ledger).enrol x |>.become x.line .inCall).Sound
      { line := o.line, call := some x.id, short := o.short - 1 } := by
  have hin : x.line ∈ b.queue := hq.symm.subset (List.mem_cons_self ..)
  have step : ∀ {d : Ledger} {p : Loose}, d.Sound p → p.line = none → p.call = none → p.short = o.short →
      d.queue = b.queue → d.calls = b.calls → d.left = b.left →
      (({ d with queue := q } : Ledger).enrol x |>.become x.line .inCall).Sound
        { line := none, call := some x.id, short := o.short - 1 } := by
    intro d p hd hl hpc hs hdq hdc hdl
    have hdeq := hd.dequeue (hdq ▸ hq) hl
    have := hdeq.enrol (x := x) (hdeq.vacant _ rfl) (by show d.calls.length < 16; rw [hdc]; exact hroom)
      (by show x.id ∉ d.calls.map (·.id) ++ d.left; rw [hdc, hdl]; exact hid) hz hpc
      fun m hm => (Option.some.inj hm).symm
    rw [← hs]
    exact this
  cases ho : o.line with
  | none => exact step h ho hc rfl rfl rfl rfl
  | some l =>
    have hv := h.vacant l ho
    have hne : l ≠ x.line := fun e => hv.queue (e ▸ hin)
    have hb := h.become (k := .idle) hv ⟨nofun, nofun, rfl⟩ fun m hm => (Option.some.inj (ho.symm.trans hm)).symm
    have hs := step hb rfl hc rfl rfl rfl rfl
    have hvac : (({ b.become l .idle with queue := q } : Ledger).enrol x |>.become x.line .inCall).Vacant l := by
      refine ⟨fun hm => ?_, fun hm => hv.queue (hq.symm.subset (List.mem_cons_of_mem _ hm)), hv.channel⟩
      have : l ∈ b.calls.map (·.line) ++ [x.line] := by simpa [Ledger.enrol, Ledger.become] using hm
      obtain hm | hm := List.mem_append.mp this
      · exact hv.calls hm
      · exact hne (List.mem_singleton.mp hm)
    have hr := hs.reopen hvac (b.condition l) rfl
    have he : (({ b.become l .idle with queue := q } : Ledger).enrol x |>.become x.line .inCall |>.become l (b.condition l)) =
        (({ b with queue := q } : Ledger).enrol x |>.become x.line .inCall) := by
      show ({ b with
        queue := q, calls := b.calls ++ [x]
        condition := Function.update (Function.update (Function.update b.condition l .idle) x.line .inCall) l
          (b.condition l) } : Ledger) =
        { b with queue := q, calls := b.calls ++ [x], condition := Function.update b.condition x.line .inCall }
      rw [Function.update_comm hne.symm, Function.update_idem, Function.update_eq_self]
    rw [he] at hr
    exact hr

/-- The line of a ring has its call in the register, on the ring's channel. -/
theorem Ledger.Sound.answer (h : b.Sound o) (hn : (b.condition x.line).ring? = some (c, ch)) (hl : o.line = none)
    (hc : o.call = none) (hh : x.holder = some c) (hch : x.channel = some ch) (hroom : b.calls.length < 16)
    (hid : x.id ∉ b.calls.map (·.id) ++ b.left) (hz : x.id ≠ 0) :
    ((b.enrol x).route ch (.connected x.line c x.id) |>.become x.line .inCall).Sound
      { line := none, call := none, short := o.short - 1 } := by
  have hu := h.unring hn hl
  have he := hu.enrol (x := x) (hu.vacant _ rfl) hroom hid hz hc fun m hm => (Option.some.inj hm).symm
  have hk := he.connect (x := x) (c := c) (ch := ch) rfl (List.mem_append_right _ (List.mem_singleton_self x)) hh hch
    (by show Function.update b.channel ch .free ch = _; exact Function.update_self ..)
  have heq : (((b.route ch .free).enrol x).become x.line .inCall).route ch (.connected x.line c x.id) =
      ((b.enrol x).route ch (.connected x.line c x.id)).become x.line .inCall := by
    show ({ b with
      calls := b.calls ++ [x], condition := Function.update b.condition x.line .inCall
      channel := Function.update (Function.update b.channel ch .free) ch (.connected x.line c x.id) } : Ledger) =
      { b with
        calls := b.calls ++ [x], condition := Function.update b.condition x.line .inCall
        channel := Function.update b.channel ch (.connected x.line c x.id) }
    rw [Function.update_idem]
  rw [heq] at hk
  exact hk

end

/-! ### Conditions -/

section

variable {s t : State} {o : Loose} {dead : Centre → Prop} {r q : CallRecord} {id : CallId} {n : LineId} {c : Centre}
  {ch : ChannelId} {k : Condition}

/-- `t` comes from `s` with its centre links as they were, and with every stake but that of `x`. -/
structure Retains (x : Option CallId) (s t : State) : Prop where
  centre : t.centre = s.centre
  calls : ∀ y ∈ (ledger s).calls, x ≠ some y.id → y ∈ (ledger t).calls

theorem Retains.trans {x : Option CallId} {u : State} (h : Retains x s t) (k : Retains x t u) : Retains x s u :=
  ⟨k.centre.trans h.centre, fun y hy hx => k.calls y (h.calls y hy hx) hx⟩

theorem Offers.retains {x : Option CallId} (h : Offers s t) : Retains x s t :=
  ⟨h.centre, fun y hy _ => by rw [h.ledger]; exact hy⟩

theorem Retains.of_face {x : Option CallId} (h : face t = face s) : Retains x s t := (Offers.of_face h).retains

theorem Retains.claims (h : Retains none s t) (c : Centre) (hc : s.claimsAny c = true) : t.claimsAny c = true := by
  rw [claimsAny_iff] at hc ⊢
  obtain ⟨x, hx, e⟩ := hc
  exact ⟨x, h.calls x hx nofun, e⟩

/-- Claims that are kept or added leave the duties as the invariant has them. -/
theorem invDuty_of_claims (hcen : t.centre = s.centre) (hcl : ∀ c, s.claimsAny c = true → t.claimsAny c = true)
    (hs : InvDuty s) : InvDuty t := by
  obtain ⟨⟨h1, h2⟩, h3⟩ := (invDuty_iff s).mp hs
  have hc : ∀ d, t.centre d = s.centre d := fun d => by rw [hcen]
  have hu : ∀ d, t.usable d = s.usable d := fun d => by simp only [State.usable, hc]
  refine (invDuty_iff t).mpr ⟨⟨fun d => ?_, fun d k => ?_⟩, fun d => ?_⟩
  · rw [hc, hc]; exact h1 d
  · rw [hc] at k ⊢
    exact ⟨hcl d (h2 d k).1, (h2 d k).2⟩
  · rw [hu, hu, hc]; exact h3 d

theorem Retains.invDuty (h : Retains none s t) (hs : InvDuty s) : InvDuty t :=
  invDuty_of_claims h.centre (fun c => h.claims c) hs

theorem ledger_setCondition (s : State) (n : LineId) (k : Condition) :
    ledger (s.setCondition n k) = (ledger s).become n k := by
  have : (fun m => ((s.setCondition n k).line m).condition) = Function.update (fun m => (s.line m).condition) n k := by
    funext m
    rw [Function.update_apply, State.setCondition_line]
    split
    · rfl
    · rfl
  show ({ ledger s with condition := fun m => ((s.setCondition n k).line m).condition } : Ledger) = _
  rw [this]
  rfl

theorem face_setCondition (s : State) (n : LineId) (k : Condition) :
    face (s.setCondition n k) = { face s with condition := Function.update (face s).condition n k } := by
  have := congrArg Ledger.condition (ledger_setCondition s n k)
  show ({ face s with condition := (ledger (s.setCondition n k)).condition } : Face) = _
  rw [this]
  rfl

theorem face_enter (s : State) (n : LineId) (k : Condition) : face (s.enter n k) = face (s.setCondition n k) :=
  face_retone ..

/-- Lines enter conditions on equal faces alike. -/
theorem face_enter_congr (h : face t = face s) (n : LineId) (k : Condition) : face (t.enter n k) = face (s.enter n k) := by
  rw [face_enter, face_enter, face_setCondition, face_setCondition, h]

theorem ledger_enter (s : State) (n : LineId) (k : Condition) : ledger (s.enter n k) = (ledger s).become n k :=
  (ledger_of_face (face_enter s n k)).trans (ledger_setCondition s n k)

theorem retains_enter {x : Option CallId} (s : State) (n : LineId) (k : Condition) : Retains x s (s.enter n k) :=
  ⟨(centre_of_face (face_enter ..)).trans rfl, fun y hy _ => by rw [ledger_enter]; exact hy⟩

/-- The lines' conditions change and nothing else. -/
theorem Kept.of_setCondition {o' : Loose} (h : Kept o dead s) (hs : ((ledger s).become n k).Sound o')
    (ho : o'.call = o.call) : Kept o' dead (s.setCondition n k) where
  sound := by rw [ledger_setCondition]; exact hs
  fair := by rw [ho]; exact h.fair
  rung := h.rung
  lost := h.lost

theorem Kept.setCondition (h : Kept o dead s) (hv : (ledger s).Vacant n) (hk : Plain' k)
    (ho : ∀ m, o.line = some m → m = n) : Kept { o with line := none } dead (s.setCondition n k) :=
  h.of_setCondition (h.sound.become hv hk ho) rfl

theorem Kept.enter (h : Kept o dead s) (hv : (ledger s).Vacant n) (hk : Plain' k)
    (ho : ∀ m, o.line = some m → m = n) : Kept { o with line := none } dead (s.enter n k) :=
  (h.setCondition hv hk ho).of_face (face_retone ..)

theorem Kept.enterPlain (h : Kept {} dead s) (hn : Plain' (s.line n).condition) (hk : Plain' k) :
    Kept {} dead (s.enter n k) := h.enter (h.sound.vacant_of_plain hn) hk nofun

theorem Kept.enterOwed {m : Nat} (h : Kept (Entered (some n) m) dead s) (hk : Plain' k) :
    Kept (Entered none m) dead (s.enter n k) :=
  Kept.enter h (h.sound.vacant n rfl) hk fun _ e => (Option.some.inj e).symm

theorem Kept.setPlain (h : Kept {} dead s) (hn : Plain' (s.line n).condition) (hk : Plain' k) :
    Kept {} dead (s.setCondition n k) := h.setCondition (h.sound.vacant_of_plain hn) hk nofun

theorem retains_setCondition {x : Option CallId} (s : State) (n : LineId) (k : Condition) :
    Retains x s (s.setCondition n k) := ⟨rfl, fun y hy _ => by rw [ledger_setCondition]; exact hy⟩

/-! ### New ids -/

theorem Kept.nextId (h : Kept o dead s) :
    s.nextId ∉ (ledger s).calls.map (·.id) ++ (ledger s).left ∧ s.nextId ≠ 0 := by
  have hz := h.sound.counter
  rw [nextId_eq s hz, map_id_stakes]
  refine ⟨issuedId_not_mem _ ?_, issuedId_ne_zero _ hz⟩
  have h1 := h.sound.room
  have h2 := h.sound.leftRoom
  simp only [ledger, List.length_map] at h1 h2
  simp only [ledger, List.length_append, List.length_map]
  omega

/-! ### A record that joins the register -/

theorem fair_create (dead : Centre → Prop) (id : CallId) (n : LineId) (arrival : Tick) (x : Option Timer) :
    Fair dead (CallRecord.create id n arrival x) :=
  ⟨⟨by simp [CallRecord.create], by simp [CallRecord.create], by simp [CallRecord.create], nofun,
    fun _ => ⟨rfl, rfl⟩, nofun, by simp [CallRecord.create], by simp [CallRecord.create], fun _ => ⟨rfl, rfl, rfl⟩⟩,
    fun d _ => ⟨nofun, empty_has d⟩⟩

/-- The record that `createRecord` makes. -/
def made (s : State) (n : LineId) (arrival : Tick) : CallRecord :=
  CallRecord.create s.nextId n arrival (s.overdueTimerFor arrival)

theorem ledger_addRecord (s : State) (n : LineId) (arrival : Tick) : ledger (s.addRecord n arrival) =
    { ((ledger s).enrol (stakeOf (made s n arrival))).become n .inCall with counter := nextCandidate s.nextId } := by
  unfold State.addRecord
  rw [ledger_enter]
  show ({ ledger s with
    calls := (s.records ++ [made s n arrival]).map stakeOf, counter := nextCandidate s.nextId } : Ledger).become n .inCall = _
  rw [List.map_append]
  rfl

theorem records_addRecord (s : State) (n : LineId) (arrival : Tick) :
    (s.addRecord n arrival).records = s.records ++ [made s n arrival] :=
  (records_of_face (face_enter ..)).trans rfl

/-- A record that joins is entered, its ledger being sound but for its channel. -/
theorem Kept.addRecord_of {m : Option LineId} {j : Nat} {i : Loose} (h : Kept i dead s) (hi : i.call = none)
    (arrival : Tick) {u : State} (hrec : u.records = s.records ++ [made s n arrival]) (hch : u.channel = s.channel)
    (hcen : u.centre = s.centre)
    (hs : (ledger u).Sound { line := m, call := some s.nextId, short := j }) : Kept (Entered m j) dead u where
  sound := by
    refine hs.fasten fun x hx e => ?_
    obtain ⟨r, hr, rfl⟩ := mem_stakes.mp hx
    have hmade : made s n arrival ∈ u.records := by rw [hrec]; simp
    have := hs.call_unique (mem_stakes.mpr ⟨_, hr, rfl⟩) (mem_stakes.mpr ⟨_, hmade, rfl⟩) (Option.some.inj e).symm
    rw [this]
    rfl
  fair r hr _ := by
    rw [hrec] at hr
    obtain hr | hr := List.mem_append.mp hr
    · exact h.fair r hr (by rw [hi]; exact nofun)
    · rw [List.mem_singleton.mp hr]
      exact fair_create ..
  rung := hch ▸ h.rung
  lost := hcen ▸ h.lost

theorem channel_enter (s : State) (n : LineId) (k : Condition) : (s.enter n k).channel = s.channel :=
  congrArg Ledger.channel (ledger_enter s n k)

theorem centre_enter (s : State) (n : LineId) (k : Condition) : (s.enter n k).centre = s.centre :=
  (retains_enter (x := none) s n k).centre

theorem Kept.addRecord {m : Nat} {l : Option LineId} (h : Kept (Entered l m) dead s) (hv : (ledger s).Vacant n)
    (hl : ∀ x, l = some x → x = n) (hroom : s.records.length < 16) (arrival : Tick) :
    Kept (Entered none (m - 1)) dead (s.addRecord n arrival) := by
  obtain ⟨hid, hz⟩ := h.nextId
  refine Kept.addRecord_of h rfl arrival (records_addRecord ..) (channel_enter ..) (centre_enter ..) ?_
  rw [ledger_addRecord]
  have hlen : (ledger s).calls.length < 16 := by simpa [ledger] using hroom
  exact (h.sound.enrol (x := stakeOf (made s n arrival)) hv hlen hid hz rfl hl).count (nextCandidate_ne hz)

theorem retains_addRecord {x : Option CallId} (s : State) (n : LineId) (arrival : Tick) :
    Retains x s (s.addRecord n arrival) :=
  ⟨(centre_enter ..).trans rfl, fun y hy _ => by
    rw [ledger_addRecord]
    exact List.mem_append_left _ hy⟩

/-! ### A line that queues -/

theorem insertOverflow_perm (now : Tick) (e : OverflowEntry) (xs : List OverflowEntry) :
    (insertOverflow now e xs).Perm (e :: xs) := by
  induction xs with
  | nil => exact .refl _
  | cons q rest ih =>
    unfold insertOverflow
    dsimp only
    split
    · exact .refl _
    · exact (ih.cons q).trans (.swap e q rest)

theorem ledger_addOverflow (s : State) (e : OverflowEntry) : ledger (s.addOverflow e) =
    ({ ledger s with queue := (insertOverflow s.tick e s.overflow).map (·.line) } : Ledger).become e.line .queued := by
  refine (ledger_of_face (face_notifyAll ..)).trans ?_
  rw [ledger_enter]
  rfl

theorem Kept.addOverflow {m : Nat} {l : Option LineId} {e : OverflowEntry} (h : Kept (Entered l m) dead s)
    (hv : (ledger s).Vacant e.line) (hl : ∀ x, l = some x → x = e.line) (hfull : s.records.length + m = 16) :
    Kept (Entered none m) dead (s.addOverflow e) where
  sound := by
    rw [ledger_addOverflow]
    exact h.sound.enqueue hv ((insertOverflow_perm ..).map _) (by simpa [ledger] using hfull) hl
  fair r hr _ := h.fair_mem <| by
    have : (s.addOverflow e).records = s.records :=
      (records_of_face (face_notifyAll ..)).trans ((records_of_face (face_enter ..)).trans rfl)
    exact this ▸ hr
  rung := by
    have : (s.addOverflow e).channel = s.channel := congrArg Ledger.channel (ledger_addOverflow s e)
    rw [this]
    exact h.rung
  lost := by
    have : (s.addOverflow e).centre = s.centre := (centre_of_face (face_notifyAll ..)).trans (centre_enter ..)
    rw [this]
    exact h.lost

theorem retains_addOverflow {x : Option CallId} (s : State) (e : OverflowEntry) : Retains x s (s.addOverflow e) :=
  ⟨(centre_of_face (face_notifyAll ..)).trans (centre_enter ..), fun y hy _ => by rw [ledger_addOverflow]; exact hy⟩

/-! ### A call request -/

theorem face_callRequest (s : State) (n : LineId) (arrival : Tick) : face (s.callRequest n arrival) =
    if s.records.length < 16 then face (s.addRecord n arrival)
    else face (s.addOverflow { line := n, arrival := arrival, result := none }) := by
  unfold State.callRequest
  by_cases h : s.records.length < 16
  · rw [if_pos (show s.records.length < Config.registerCapacity from h), if_pos h]
    exact face_enter_congr (face_startCapture ..) n _
  · rw [if_neg (show ¬ s.records.length < Config.registerCapacity from h), if_neg h]
    unfold State.addOverflow State.queueLine
    rw [face_notifyAll, face_notifyAll]
    exact face_enter_congr (face_startCapture ..) n _

theorem Kept.callRequest (h : Kept {} dead s) (hn : Plain' (s.line n).condition) (arrival : Tick) :
    Kept {} dead (s.callRequest n arrival) := by
  have hv := h.sound.vacant_of_plain hn
  have hface := face_callRequest s n arrival
  split at hface
  · next hroom => exact (h.addRecord hv nofun hroom arrival).of_face hface
  · next hroom =>
    refine (h.addOverflow (e := ⟨n, arrival, none⟩) hv nofun ?_).of_face hface
    have := h.sound.room
    simp only [ledger, List.length_map] at this
    omega

theorem retains_callRequest {x : Option CallId} (s : State) (n : LineId) (arrival : Tick) :
    Retains x s (s.callRequest n arrival) := by
  have hface := face_callRequest s n arrival
  split at hface
  · exact (retains_addRecord ..).trans (.of_face hface)
  · exact (retains_addOverflow ..).trans (.of_face hface)

/-! ### The end of a capture -/

theorem resolved_draft {table : Vector Acceptance 4} {e : Entry} {res : CaptureResult} (h : Fair dead r)
    (hs : r.state = .identifying) : Draft dead (r.resolved table e res) := by
  have hu := (sound_unclaimed_iff h.1).mpr (by rw [hs]; rfl)
  have hch := sound_channel_none h.1 (by rw [hs]; exact nofun)
  obtain ⟨⟨-, -, -, -, hlong, htr, -⟩, hd⟩ := h
  exact ⟨hu, hch, hlong hu, htr, nofun, nofun, fun c hc => (hd c hc).2⟩

theorem Kept.resolve {m : Option LineId} {j : Nat} (h : Kept (Entered m j) dead s) (hr : r ∈ s.records)
    (hs : r.state = .identifying) (res : CaptureResult) : Kept (Entered m j) dead (s.resolve r res) := by
  have hd := resolved_draft (table := s.acceptance) (e := s.entry r.line) (res := res) (h.fair_mem hr) hs
  have hk := (h.open hr hd.channel).updLoose (f := fun q => q.resolved s.acceptance (s.entry r.line) res)
    (g := fun x => x) rfl (fun _ => rfl) (fun _ => rfl) fun _ => rfl
  have hmem : r.resolved s.acceptance (s.entry r.line) res ∈
      (s.updRecord r.id fun q => q.resolved s.acceptance (s.entry r.line) res).records :=
    List.mem_map.mpr ⟨r, hr, if_pos rfl⟩
  have hid := hk.recordById hmem
  refine hk.makeFirstOffer (fun q hq e => ?_) (fun i hi => (Option.some.inj hi).symm) hid
  obtain ⟨p, hp, ep, rfl⟩ | ⟨-, hne⟩ := mem_updRecord hq
  · rw [h.unique hp hr ep]
    exact hd
  · exact absurd e hne

theorem Kept.markOverdue {m : Option LineId} {j : Nat} (h : Kept (Entered m j) dead s) (r : CallRecord) :
    Kept (Entered m j) dead (s.markOverdue r) :=
  .of_face (h.decorate (f := fun q => { q with flags := { q.flags with overdue := true } }) rfl (fun _ => rfl)
    fun _ _ _ hq => ⟨hq.1, hq.2⟩) (face_notifyAll ..)

/-- The results that wait are not read. -/
theorem face_setResults (s : State) (n : LineId) (res : CaptureResult) :
    face { s with overflow := s.overflow.map fun e => if e.line = n then { e with result := some res } else e } =
      face s := by
  have : (s.overflow.map fun e => if e.line = n then { e with result := some res } else e).map (·.line) =
      s.overflow.map (·.line) := by
    rw [List.map_map]
    refine List.map_congr_left fun e _ => ?_
    simp only [Function.comp]
    split <;> rfl
  show ({ face s with queue := _ } : Face) = _
  rw [this]
  rfl

theorem Kept.handResult (h : Kept {} dead s) (n : LineId) (res : CaptureResult) : Kept {} dead (s.handResult n res) := by
  unfold State.handResult
  split
  · next r hr =>
    split
    · next hs => exact h.resolve (mem_of_recordOfLine hr).1 hs res
    · exact h
  · exact h.of_face (face_setResults ..)

theorem offers_handResult (s : State) (n : LineId) (res : CaptureResult) : Offers s (s.handResult n res) := by
  unfold State.handResult
  split
  · split
    · exact offers_resolve ..
    · exact .refl s
  · exact .of_face (face_setResults ..)

theorem Kept.endCapture (h : Kept {} dead s) (n : LineId) (res : CaptureResult) : Kept {} dead (s.endCapture n res) :=
  ((h.of_face (t := s.setCapture n none) rfl).handResult n res).of_face (face_leaveReceiver ..)

theorem offers_endCapture (s : State) (n : LineId) (res : CaptureResult) : Offers s (s.endCapture n res) := by
  have hs : Offers s (s.setCapture n none) := .of_face rfl
  exact hs.trans ((offers_handResult (s.setCapture n none) n res).trans (.of_face (face_leaveReceiver ..)))

end

end Sys2Proof.Proofs

/-! PROOFS. Endings, displacement and the answered recall keep the register in order (R88 to R97). -/

namespace Sys2Proof.Proofs

open Sys2Proof Sys2Proof.Machine

section

variable {s t : State} {o : Loose} {dead : Centre → Prop} {r q : CallRecord} {id : CallId} {n : LineId} {c : Centre}
  {ch : ChannelId} {k : Condition} {m : Option LineId} {j : Nat}

/-! ### Promotion -/

/-- The register after the first overflow entry has its record. -/
theorem Kept.advance (h : Kept (Entered m j) dead s) {e : OverflowEntry} {rest : List OverflowEntry}
    (ho : s.overflow = e :: rest) (hroom : s.records.length < 16) :
    Kept (Entered m (j - 1)) dead (({ s with overflow := rest } : State).addRecord e.line e.arrival) := by
  obtain ⟨hid, hz⟩ := h.nextId
  have hlen : (ledger s).calls.length < 16 := by simpa [ledger] using hroom
  have hq : (ledger s).queue.Perm (e.line :: rest.map (·.line)) := by
    show (s.overflow.map (·.line)).Perm _
    rw [ho]
    exact .refl _
  refine Kept.addRecord_of (n := e.line) h rfl e.arrival (records_addRecord ..) (channel_enter ..) (centre_enter ..) ?_
  rw [ledger_addRecord]
  exact (h.sound.advance (x := stakeOf (made s e.line e.arrival)) hq hlen hid hz rfl).count (nextCandidate_ne hz)

/-- The record of a promoted entry takes the result that the entry holds (R88). -/
def resultTaken (u : State) (e : OverflowEntry) : State :=
  match u.recordOfLine e.line, e.result with
  | some r, some res => u.resolve r res
  | _, _ => u

theorem retains_promote {x : Option CallId} (s : State) : Retains x s s.promote := by
  unfold State.promote
  split
  · exact .of_face rfl
  · next e rest ho =>
    have hrest : Retains x s ({ s with overflow := rest } : State) := ⟨rfl, fun y hy _ => hy⟩
    have hadd := hrest.trans (retains_addRecord { s with overflow := rest } e.line e.arrival)
    dsimp only
    have hres : Retains x s (resultTaken (({ s with overflow := rest } : State).addRecord e.line e.arrival) e) := by
      unfold resultTaken
      split
      · exact hadd.trans (offers_resolve ..).retains
      · exact hadd
    split
    · split
      · exact hres.trans (offers_markOverdue ..).retains
      · exact hres
    · exact hres

theorem Kept.promote (h : Kept (Entered m j) dead s) (hroom : s.records.length < 16) (ho : s.overflow ≠ []) :
    Kept (Entered m (j - 1)) dead s.promote := by
  unfold State.promote
  split
  · next he => exact absurd he ho
  · next e rest he =>
    have hadd := h.advance he hroom
    have hstate : ∀ r, (({ s with overflow := rest } : State).addRecord e.line e.arrival).recordOfLine e.line = some r →
        r.state = .identifying := by
      intro r hr
      obtain ⟨hm, hline⟩ := mem_of_recordOfLine hr
      have hmade : made ({ s with overflow := rest } : State) e.line e.arrival ∈
          (({ s with overflow := rest } : State).addRecord e.line e.arrival).records := by
        rw [records_addRecord]; simp
      have := List.inj_on_of_nodup_map hadd.lines_nodup hm hmade hline
      rw [this]
      rfl
    dsimp only
    have hres : Kept (Entered m (j - 1)) dead
        (resultTaken (({ s with overflow := rest } : State).addRecord e.line e.arrival) e) := by
      unfold resultTaken
      split
      · next r res hr _ => exact hadd.resolve (mem_of_recordOfLine hr).1 (hstate r hr) res
      · exact hadd
    split
    · split
      · exact hres.markOverdue _
      · exact hres
    · exact hres

/-! ### The abandoned list -/

theorem ledger_addAbandoned (s : State) (e : AbandonedEntry) : ∃ xs f, xs.Sublist (ledger s).left ∧
    ((ledger s).left.length ≤ 16 → xs.length < 16) ∧
    ledger (s.addAbandoned e) = { ledger s with left := xs ++ [e.id], overflowed := f } := by
  unfold State.addAbandoned
  by_cases h : s.abandoned.length < Config.abandonedCapacity
  · rw [if_pos h]
    refine ⟨(ledger s).left, s.overflowed, .refl _, fun _ => by simpa [ledger, Config.abandonedCapacity] using h, ?_⟩
    show ({ ledger s with left := (s.abandoned ++ [e]).map (·.id) } : Ledger) = _
    rw [List.map_append]
    rfl
  · rw [if_neg h]
    refine ⟨(s.abandoned.drop 1).map (·.id), true, (List.drop_sublist ..).map _, fun hl => ?_, ?_⟩
    · simp only [ledger, List.length_map, List.length_drop] at hl ⊢
      omega
    · show ({ ledger s with left := (s.abandoned.drop 1 ++ [e]).map (·.id), overflowed := true } : Ledger) = _
      rw [List.map_append]
      rfl

theorem addAbandoned_keeps (s : State) (e : AbandonedEntry) : (s.addAbandoned e).records = s.records ∧
    (s.addAbandoned e).channel = s.channel ∧ (s.addAbandoned e).centre = s.centre := by
  rw [State.addAbandoned_eq]
  exact ⟨rfl, rfl, rfl⟩

theorem Kept.addAbandoned (h : Kept o dead s) {e : AbandonedEntry} (hid : e.id ∉ (ledger s).calls.map (·.id) ++ (ledger s).left)
    (hz : e.id ≠ 0) : Kept o dead (s.addAbandoned e) := by
  obtain ⟨hr, hch, hc⟩ := addAbandoned_keeps s e
  obtain ⟨xs, f, hxs, hlen, hl⟩ := ledger_addAbandoned s e
  exact
    { sound := hl ▸ h.sound.abandon hid hz hxs (hlen h.sound.leftRoom)
      fair := hr ▸ h.fair
      rung := hch ▸ h.rung
      lost := hc ▸ h.lost }

theorem retains_addAbandoned {x : Option CallId} (s : State) (e : AbandonedEntry) : Retains x s (s.addAbandoned e) := by
  obtain ⟨xs, f, -, -, hl⟩ := ledger_addAbandoned s e
  exact ⟨(addAbandoned_keeps s e).2.2, fun y hy _ => by rw [hl]; exact hy⟩

theorem Kept.issue (h : Kept o dead s) (hz : id ≠ 0) : Kept o dead (s.issue id) :=
  ⟨h.sound.count (nextCandidate_ne hz), h.fair, h.rung, h.lost⟩

/-- An overflow entry that has left the list is abandoned. -/
theorem Kept.abandonOverflow (h : Kept o dead s) (e : OverflowEntry) : Kept o dead (s.abandonOverflow e) := by
  obtain ⟨hid, hz⟩ := h.nextId
  exact (h.issue hz).addAbandoned hid hz

theorem retains_abandonOverflow {x : Option CallId} (s : State) (e : OverflowEntry) : Retains x s (s.abandonOverflow e) := by
  have hi : Retains x s (s.issue s.nextId) := ⟨rfl, fun y hy _ => hy⟩
  exact hi.trans (retains_addAbandoned ..)

theorem setAbandoned_keeps (h : Kept o dead s) {xs : List AbandonedEntry} (hxs : xs.Sublist s.abandoned) :
    Kept o dead (s.setAbandoned xs) where
  sound := h.sound.forget (hxs.map _) fun hf => by
    have hx : (s.overflowed && !xs.isEmpty) = true := hf
    rw [Bool.and_eq_true, Bool.not_eq_true', List.isEmpty_eq_false_iff] at hx
    exact fun e => hx.2 (List.map_eq_nil_iff.mp e)
  fair := h.fair
  rung := h.rung
  lost := h.lost

/-- A line leaves the overflow list. -/
theorem Kept.unqueue (h : Kept (Entered none j) dead s) {e : OverflowEntry} {rest : List OverflowEntry}
    (ho : s.overflow.Perm (e :: rest)) : Kept (Entered (some e.line) j) dead { s with overflow := rest } where
  sound := by
    have hp : (ledger s).queue.Perm (e.line :: rest.map (·.line)) := ho.map fun q : OverflowEntry => q.line
    exact h.sound.dequeue hp rfl
  fair := h.fair
  rung := h.rung
  lost := h.lost

theorem perm_filter_line {e : OverflowEntry} {xs : List OverflowEntry} (h : (xs.map (·.line)).Nodup) (he : e ∈ xs) :
    xs.Perm (e :: xs.filter fun q => q.line ≠ e.line) := by
  induction xs with
  | nil => cases he
  | cons x rest ih =>
    obtain ⟨hx, hr⟩ := List.nodup_cons.mp h
    obtain rfl | he := List.mem_cons.mp he
    · rw [List.filter_cons_of_neg (by simp), List.filter_eq_self.mpr fun q hq => ?_]
      simpa using fun e' : q.line = e.line => hx (List.mem_map.mpr ⟨q, hq, e'⟩)
    · have hne : x.line ≠ e.line := fun e' => hx (List.mem_map.mpr ⟨e, he, e'.symm⟩)
      rw [List.filter_cons_of_pos (by simpa using hne)]
      exact ((ih hr he).cons x).trans (.swap ..)

theorem Kept.dropOverflow (h : Kept {} dead s) (hn : (s.line n).condition = .queued) :
    Kept (Entered (some n) 0) dead (s.dropOverflow n) := by
  have hin : n ∈ s.overflow.map (·.line) := (h.sound.queued n nofun).mp hn
  obtain ⟨q, hq, hqn⟩ := List.mem_map.mp hin
  unfold State.dropOverflow
  split
  · next e he =>
    have hline : e.line = n := by simpa using List.find?_some he
    have hnd : (s.overflow.map (·.line)).Nodup := (List.nodup_append.mp h.sound.lines).2.1
    have hu := h.unqueue (perm_filter_line hnd (List.mem_of_find?_eq_some he))
    rw [hline] at hu
    exact hu.abandonOverflow e
  · next he =>
    have := List.find?_eq_none.mp he q hq
    simp [hqn] at this

theorem retains_dropOverflow {x : Option CallId} (s : State) (n : LineId) : Retains x s (s.dropOverflow n) := by
  unfold State.dropOverflow
  split
  · next e _ =>
    have hr : Retains x s ({ s with overflow := s.overflow.filter fun q => q.line ≠ n } : State) := ⟨rfl, fun y hy _ => hy⟩
    exact hr.trans (retains_abandonOverflow ..)
  · exact .of_face rfl

/-! ### Endings -/

theorem ledger_removed (s : State) (id : CallId) (x : Option ChannelId) :
    ledger ((s.removeRecord id).freeHeld x) = ((ledger s).release x).drop id := by
  have hr : ledger (s.removeRecord id) = (ledger s).drop id := by
    show ({ ledger s with calls := (s.records.filter fun r => r.id ≠ id).map stakeOf } : Ledger) =
      { ledger s with calls := (s.records.map stakeOf).filter fun y => y.id ≠ id }
    rw [List.filter_map]
    rfl
  rw [ledger_freeHeld, hr]
  cases x <;> rfl

/-- A record leaves the register with its channel; its line's next condition is owed. -/
theorem Kept.remove (h : Kept {} dead s) (hr : r ∈ s.records) :
    Kept (Entered (some r.line) 1) dead ((s.removeRecord r.id).freeHeld r.channel) := by
  obtain ⟨hrec, hcen, hch⟩ := freeHeld_keeps (s.removeRecord r.id) r.channel
  have hl := h.loosen hr rfl
  exact
    { sound := by
        rw [ledger_removed]
        have hs : ((ledger s).release r.channel).Sound { ({} : Loose) with call := some r.id } :=
          ledger_freeHeld s r.channel ▸ hl.sound
        exact hs.drop (x := stakeOf r) (by rw [Ledger.release_calls]; exact mem_stakes.mpr ⟨r, hr, rfl⟩) rfl rfl rfl
      fair := fun p hp _ => h.fair_mem (List.mem_of_mem_filter (hrec ▸ hp))
      rung := fun d x e hd => by
        obtain e' | e' := hch d
        · rw [e'] at hd; cases hd
        · exact h.rung d x e (e'.symm.trans hd)
      lost := by rw [hcen]; exact h.lost }

theorem retains_remove (s : State) (r : CallRecord) :
    Retains (some r.id) s ((s.removeRecord r.id).freeHeld r.channel) := by
  refine ⟨(freeHeld_keeps _ r.channel).2.1.trans rfl, fun y hy hx => ?_⟩
  rw [ledger_removed]
  show y ∈ ((ledger s).release r.channel).calls.filter _
  rw [Ledger.release_calls, List.mem_filter]
  exact ⟨hy, by simpa using fun e : y.id = r.id => hx (congrArg some e.symm)⟩

/-- Those told of an ending. -/
def endNotices (s : State) (r : CallRecord) (x : EndReason) : State :=
  let s := match r.claimant with
    | some c => s.notify c.link (.callEnded r.id r.line x)
    | none => s
  let s := s.each r.offered.members fun s c => s.withdrawFrom r c x
  s.notifyOrigin r (.callWithdrawn r.id r.line x)

theorem face_endNotices (s : State) (r : CallRecord) (x : EndReason) : face (endNotices s r x) = face s := by
  unfold endNotices
  dsimp only
  rw [face_notifyOrigin, face_each _ _ fun u d => face_withdrawFrom ..]
  split
  · exact face_notify ..
  · rfl

/-- The end of a record, with the notices named. -/
theorem endRecord_notices (s : State) (r : CallRecord) (x : EndReason) : s.endRecord r x =
    let u := endNotices ((s.removeRecord r.id).freeHeld r.channel) r x
    let u := if r.state.unclaimed then u.addAbandoned (abandonedOfRecord r u.tick) else u
    if Config.registerCapacity ≤ s.records.length then u.promote else u := rfl

theorem retains_endRecord (s : State) (r : CallRecord) (x : EndReason) : Retains (some r.id) s (s.endRecord r x) := by
  rw [endRecord_notices]
  have hn := (retains_remove s r).trans (.of_face (face_endNotices _ r x))
  dsimp only
  have ha : Retains (some r.id) s (if r.state.unclaimed then
      (endNotices ((s.removeRecord r.id).freeHeld r.channel) r x).addAbandoned
        (abandonedOfRecord r (endNotices ((s.removeRecord r.id).freeHeld r.channel) r x).tick)
      else endNotices ((s.removeRecord r.id).freeHeld r.channel) r x) := by
    split
    · exact hn.trans (retains_addAbandoned ..)
    · exact hn
  split
  · exact ha.trans (retains_promote _)
  · exact ha

theorem Kept.endRecord (h : Kept {} dead s) (hr : r ∈ s.records) (x : EndReason) :
    Kept (Entered (some r.line) 0) dead (s.endRecord r x) := by
  rw [endRecord_notices]
  have hrem := h.remove hr
  have hn := hrem.of_face (face_endNotices _ r x)
  have hids : (stakeOf r).id ∉ ((ledger s).drop r.id).calls.map (·.id) ++ (ledger s).left := by
    intro hm
    obtain hm | hm := List.mem_append.mp hm
    · obtain ⟨y, hy, e⟩ := List.mem_map.mp hm
      have := (List.mem_filter.mp hy).2
      simp [e, stakeOf] at this
    · have hnd := (List.nodup_append.mp h.sound.ids).2.2
      exact hnd _ (List.mem_map_of_mem (mem_stakes.mpr ⟨r, hr, rfl⟩)) _ hm rfl
  have hz : r.id ≠ 0 := h.sound.callId (stakeOf r) (mem_stakes.mpr ⟨r, hr, rfl⟩)
  dsimp only
  generalize hu : endNotices ((s.removeRecord r.id).freeHeld r.channel) r x = u at hn
  have hface : face u = face ((s.removeRecord r.id).freeHeld r.channel) := hu ▸ face_endNotices ..
  have hled : ledger u = ((ledger s).release r.channel).drop r.id := (ledger_of_face hface).trans (ledger_removed ..)
  have ha : Kept (Entered (some r.line) 1) dead
      (if r.state.unclaimed then u.addAbandoned (abandonedOfRecord r u.tick) else u) := by
    split
    · refine hn.addAbandoned ?_ hz
      rw [hled]
      cases r.channel <;> exact hids
    · exact hn
  have hover : ∀ e, (u.addAbandoned e).overflow = u.overflow := fun e => by rw [State.addAbandoned_eq]
  have hqueue : (ledger u).queue = (ledger s).queue := by
    rw [hled]
    exact Ledger.release_queue ..
  have hlen : (ledger u).calls.length < s.records.length := by
    rw [hled]
    show (((ledger s).release r.channel).calls.filter _).length < _
    rw [Ledger.release_calls, ← List.length_map (as := s.records) stakeOf]
    exact List.length_filter_lt_length_iff_exists.mpr ⟨stakeOf r, mem_stakes.mpr ⟨r, hr, rfl⟩, by simp [stakeOf]⟩
  have hroom16 : s.records.length ≤ 16 := by simpa [ledger] using h.sound.room
  have hempty : ∀ {v : State}, v.overflow = [] → Kept (Entered (some r.line) 1) dead v → Kept (Entered (some r.line) 0) dead v :=
    fun hv hk => ⟨hk.sound.settle fun hq => absurd (by simp [ledger, hv]) hq, hk.fair, hk.rung, hk.lost⟩
  have hsame : ∀ v, v = (if r.state.unclaimed then u.addAbandoned (abandonedOfRecord r u.tick) else u) →
      v.overflow = u.overflow ∧ v.records = u.records := by
    rintro v rfl
    split
    · exact ⟨hover _, (addAbandoned_keeps ..).1⟩
    · exact ⟨rfl, rfl⟩
  obtain ⟨hvo, hvr⟩ := hsame _ rfl
  generalize (if r.state.unclaimed then u.addAbandoned (abandonedOfRecord r u.tick) else u) = v at ha hvo hvr ⊢
  split
  · by_cases ho : v.overflow = []
    · have : v.promote = v := by unfold State.promote; rw [ho]
      rw [this]
      exact hempty ho ha
    · refine ha.promote ?_ ho
      have : (ledger u).calls.length = v.records.length := by rw [hvr]; simp [ledger]
      omega
  · next hfull =>
    refine hempty ?_ ha
    by_contra ho
    have hq : (ledger s).queue ≠ [] := by
      rw [← hqueue]
      simpa [ledger, ← hvo] using ho
    have hf := h.sound.full hq
    simp only [ledger, List.length_map] at hf
    exact hfull (by rw [Config.registerCapacity]; exact hf.ge)

theorem Kept.endCall (h : Kept {} dead s) (hr : r ∈ s.records) (x : EndReason) (hk : Plain' k) :
    Kept {} dead (s.endCall r x k) :=
  (((h.endRecord hr x).enterOwed hk).of_face (face_dropCapture ..)).checkHandoverOf _

theorem invDuty_endCall (h : Kept {} dead s) (hd : InvDuty s) (hr : r ∈ s.records) (x : EndReason) (k : Condition) :
    InvDuty (s.endCall r x k) := by
  have hret : Retains (some r.id) s (((s.endRecord r x).enter r.line k).dropCapture r.line) :=
    (retains_endRecord s r x).trans ((retains_enter ..).trans (.of_face (face_dropCapture ..)))
  refine invDuty_checkHandoverOf hd (fun c => by rw [hret.centre]) (fun c => by rw [hret.centre]) fun c hne hc => ?_
  rw [claimsAny_iff] at hc ⊢
  obtain ⟨y, hy, e⟩ := hc
  refine ⟨y, hret.calls y hy fun hid => hne ?_, e⟩
  have := h.sound.call_unique (mem_stakes.mpr ⟨r, hr, rfl⟩) hy (Option.some.inj hid)
  rw [← e, ← this]
  rfl

/-! ### Rings -/

theorem Kept.stopRing (h : Kept {} dead s) (hn : (s.line n).condition.ring? = some (c, ch)) :
    Kept {} dead (s.stopRing n ch) := by
  have hl : ledger ((s.give (.ring n false)).freeChannel ch) = (ledger s).route ch .free :=
    (ledger_of_face (freeChannel_face ..)).trans (ledger_setChannel ..)
  obtain ⟨hrec, hcen, hchan⟩ := freeHeld_keeps (s.give (.ring n false)) (some ch)
  have hf : Kept (Entered (some n) 0) dead ((s.give (.ring n false)).freeChannel ch) :=
    { sound := by rw [hl]; exact h.sound.unring hn rfl
      fair := fun p hp hc => h.fair_mem (hrec ▸ hp)
      rung := fun d x e hd => by
        obtain e' | e' := hchan d
        · rw [show ((s.give (.ring n false)).freeChannel ch).channel d = .free from e'] at hd; cases hd
        · exact h.rung d x e (e'.symm.trans hd)
      lost := hcen ▸ h.lost }
  exact hf.enterOwed ⟨nofun, nofun, rfl⟩

theorem retains_stopRing {x : Option CallId} (s : State) (n : LineId) (ch : ChannelId) : Retains x s (s.stopRing n ch) := by
  have hf := freeChannel_face (s.give (.ring n false)) ch
  have h1 : Retains x s ((s.give (.ring n false)).freeChannel ch) :=
    ⟨(centre_of_face hf).trans rfl, fun y hy _ => by
      rw [ledger_of_face hf, ledger_setChannel]
      exact hy⟩
  exact h1.trans (retains_enter ..)

/-! ### Displacement and the answered recall -/

/-- Those told of a displacement. -/
def displaceNotices (s : State) (r : CallRecord) : State :=
  let s := match r.state with
    | .held =>
      match r.claimant with
      | some c => s.notify c.link (.callWithdrawn r.id r.line .displaced)
      | none => s
    | _ => s.each r.offered.members fun s c => s.withdrawFrom r c .displaced
  s.notifyOrigin r (.callWithdrawn r.id r.line .displaced)

theorem face_displaceNotices (s : State) (r : CallRecord) : face (displaceNotices s r) = face s := by
  unfold displaceNotices
  dsimp only
  rw [face_notifyOrigin]
  split
  · split
    · exact face_notify ..
    · rfl
  · exact face_each _ _ fun u d => face_withdrawFrom ..

theorem displace_notices (s : State) (r : CallRecord) : s.displace r =
    (displaceNotices (s.removeRecord r.id) r).addOverflow
      { line := r.line, arrival := r.arrival, result := if r.category = .recall then some .notReceived else r.capture } := rfl

theorem Kept.displace (h : Kept {} dead s) (hr : r ∈ s.records) (hch : r.channel = none) (hfull : s.records.length = 16) :
    Kept (Entered none 1) dead (s.displace r) := by
  have hrem := h.remove hr
  rw [hch] at hrem
  have hn : Kept (Entered (some r.line) 1) dead (displaceNotices (s.removeRecord r.id) r) :=
    Kept.of_face (s := s.removeRecord r.id) hrem (face_displaceNotices ..)
  rw [displace_notices]
  refine hn.addOverflow (hn.sound.vacant _ rfl) (fun _ e => (Option.some.inj e).symm) ?_
  rw [records_of_face (face_displaceNotices ..)]
  have hcalls := List.length_eq_countP_add_countP (fun q : CallRecord => decide (q.id ≠ r.id)) (l := s.records)
  have hone : s.records.countP (fun q => q.id = r.id) = 1 := by
    have := List.count_eq_one_of_mem h.ids_nodup (List.mem_map_of_mem hr)
    rw [List.count, List.countP_map] at this
    rw [← this]
    exact List.countP_congr fun y _ => by simp
  have hneg : s.records.countP (fun q => !decide (q.id ≠ r.id)) = 1 := by
    rw [← hone]
    exact List.countP_congr fun y _ => by simp
  show (s.records.filter fun q => q.id ≠ r.id).length + 1 = 16
  rw [← List.countP_eq_length_filter]
  have : s.records.countP (fun q => ¬ decide (q.id ≠ r.id) = true) = 1 := by simpa using hone
  omega

theorem retains_displace (s : State) (r : CallRecord) : Retains (some r.id) s (s.displace r) := by
  rw [displace_notices]
  have h1 : Retains (some r.id) s (s.removeRecord r.id) := by
    refine ⟨rfl, fun y hy hx => ?_⟩
    have := ledger_removed s r.id none
    rw [show ledger (s.removeRecord r.id) = (ledger s).drop r.id from this]
    exact List.mem_filter.mpr ⟨hy, by simpa using fun e : y.id = r.id => hx (congrArg some e.symm)⟩
  exact h1.trans ((Retains.of_face (face_displaceNotices ..)).trans (retains_addOverflow ..))

/-- A full register has a record to displace, for only six calls hold a channel. -/
theorem Kept.displaced (h : Kept {} dead s) (hfull : 6 < s.records.length) :
    ∃ r, s.displaced = some r ∧ r ∈ s.records ∧ r.channel = none := by
  have hmem : ∀ {p : CallRecord → Bool} {r}, (s.registerOrder.filter p).getLast? = some r → r ∈ s.records ∧ p r = true :=
    fun e => by
      have := List.mem_filter.mp (List.mem_of_getLast? e)
      exact ⟨(mem_registerOrder s _).mp this.1, this.2⟩
  have hfound : ∀ r, s.displaced = some r → r ∈ s.records ∧ r.channel = none := by
    intro r e
    unfold State.displaced at e
    split at e
    · next q hq =>
      obtain rfl := Option.some.inj e
      obtain ⟨hm, hs⟩ := hmem hq
      exact ⟨hm, sound_channel_none (h.fair_mem hm).1 fun e' => by rw [e'] at hs; cases hs⟩
    · obtain ⟨hm, hs⟩ := hmem e
      refine ⟨hm, sound_channel_none (h.fair_mem hm).1 fun e' => ?_⟩
      rw [e'] at hs
      simp at hs
  cases hd : s.displaced with
  | some r => exact ⟨r, rfl, hfound r hd⟩
  | none =>
    obtain ⟨x, hx, hxc⟩ := h.sound.some_unconnected rfl (by simpa [ledger] using hfull)
    obtain ⟨r, hr, rfl⟩ := mem_stakes.mp hx
    have hstate : r.state ≠ .connected := fun e => by
      have := (h.fair_mem hr).1.2.1.mpr e
      rw [show r.channel = none from hxc] at this
      cases this
    have hnil : ∀ {p : CallRecord → Bool}, (s.registerOrder.filter p).getLast? = none → p r = false := fun e => by
      have := List.filter_eq_nil_iff.mp (List.getLast?_eq_none_iff.mp e) r ((mem_registerOrder s r).mpr hr)
      simpa using this
    unfold State.displaced at hd
    split at hd
    · cases hd
    · next hu =>
      have h1 := hnil hu
      have h2 := hnil hd
      cases hs : r.state <;> simp_all [CallState.unclaimed]

end

end Sys2Proof.Proofs

/-! PROOFS. A confirmed class, the scanner and the tests keep the register, the channel table and the duties in order
(R35 to R51, R89, R90, R139 to R147). -/

namespace Sys2Proof.Proofs

open Sys2Proof Sys2Proof.Machine

/-! ### The answered recall -/

section

variable {s t : State} {o : Loose} {dead : Centre → Prop} {r q : CallRecord} {id : CallId} {n : LineId} {c : Centre}
  {ch : ChannelId} {k : Condition} {m : Option LineId} {j : Nat}

/-- The RECALL record joins the register on the ring's channel. -/
def joined (s : State) (n : LineId) (c : Centre) (ch : ChannelId) (e : Entry) (long : Timer) : State :=
  let id := s.nextId
  let s := { s.issue id with records := s.records ++ [recallRecord id n c ch s.tick e long] }
  (s.connectChannel ch n c id).enter n .inCall

theorem fair_recall (hc : ¬ dead c) (id : CallId) (n : LineId) (ch : ChannelId) (now : Tick) (e : Entry) (long : Timer) :
    Fair dead (recallRecord id n c ch now e long) := by
  refine ⟨⟨by simp [recallRecord], by simp [recallRecord], by simp [recallRecord, CallRecord.create],
    fun _ => ⟨rfl, rfl, rfl, rfl, rfl⟩, nofun, nofun, by simp [recallRecord], by simp [recallRecord],
    by simp [recallRecord]⟩, fun d hd => ⟨fun e => hc ?_, empty_has d⟩⟩
  obtain rfl : c = d := Option.some.inj e
  exact hd

theorem ledger_joined (s : State) (n : LineId) (c : Centre) (ch : ChannelId) (e : Entry) (long : Timer) :
    ledger (joined s n c ch e long) =
      { (((ledger s).enrol ⟨s.nextId, n, some c, some ch⟩).route ch (.connected n c s.nextId)).become n .inCall with
        counter := nextCandidate s.nextId } := by
  unfold joined
  dsimp only
  rw [ledger_enter]
  have hu : ∀ u : State, ledger (u.connectChannel ch n c s.nextId) = (ledger u).route ch (.connected n c s.nextId) :=
    fun u => (ledger_of_face (face_give ..)).trans (ledger_setChannel ..)
  rw [hu]
  show (({ ledger s with
    calls := (s.records ++ [recallRecord s.nextId n c ch s.tick e long]).map stakeOf
    counter := nextCandidate s.nextId } : Ledger).route ch _).become n .inCall = _
  rw [List.map_append]
  rfl

theorem joined_keeps (s : State) (n : LineId) (c : Centre) (ch : ChannelId) (e : Entry) (long : Timer) :
    (joined s n c ch e long).records = s.records ++ [recallRecord s.nextId n c ch s.tick e long] ∧
    (joined s n c ch e long).centre = s.centre :=
  ⟨(records_of_face (face_enter ..)).trans rfl, (centre_enter ..).trans rfl⟩

theorem Kept.join (h : Kept (Entered none j) dead s) (hn : (s.line n).condition.ring? = some (c, ch))
    (hroom : s.records.length < 16) (e : Entry) (long : Timer) :
    Kept (Entered none (j - 1)) dead (joined s n c ch e long) := by
  obtain ⟨hid, hz⟩ := h.nextId
  obtain ⟨hrec, hcen⟩ := joined_keeps s n c ch e long
  have hlive : ¬ dead c := h.rung ch n c (h.sound.rings n nofun (c, ch) hn)
  refine ⟨?_, fun p hp _ => ?_, fun d x f hd => ?_, by rw [hcen]; exact h.lost⟩
  · rw [ledger_joined]
    exact (h.sound.answer (x := ⟨s.nextId, n, some c, some ch⟩) hn rfl rfl rfl rfl (by simpa [ledger] using hroom) hid
      hz).count (nextCandidate_ne hz)
  · rw [hrec] at hp
    obtain hp | hp := List.mem_append.mp hp
    · exact h.fair_mem hp
    · rw [List.mem_singleton.mp hp]
      exact fair_recall hlive ..
  · have : (joined s n c ch e long).channel = Function.update s.channel ch (.connected n c s.nextId) :=
      congrArg Ledger.channel (ledger_joined ..)
    rw [this, Function.update_apply] at hd
    split at hd
    · cases hd
    · exact h.rung d x f hd

theorem retains_joined {x : Option CallId} (s : State) (n : LineId) (c : Centre) (ch : ChannelId) (e : Entry) (long : Timer) :
    Retains x s (joined s n c ch e long) :=
  ⟨(joined_keeps ..).2, fun y hy _ => by
    rw [ledger_joined]
    exact List.mem_append_left _ hy⟩

/-- The record displaced by an answered recall. -/
def victimOf (s : State) : Option CallRecord := if s.records.length < 16 then none else s.displaced

def roomMade (s : State) : State :=
  match victimOf s with
  | some r => s.displace r
  | none => s

/-- The line's abandoned entries go. -/
def forgotten (s : State) (n : LineId) : State :=
  if s.abandoned.any (·.line = n) then s.setAbandoned (s.abandoned.filter fun e => e.line ≠ n) else s

theorem Kept.forgotten (h : Kept o dead s) (n : LineId) : Kept o dead (forgotten s n) := by
  unfold Proofs.forgotten
  split
  · exact setAbandoned_keeps h List.filter_sublist
  · exact h

theorem retains_forgotten {x : Option CallId} (s : State) (n : LineId) : Retains x s (forgotten s n) := by
  unfold forgotten
  split
  · exact ⟨rfl, fun y hy _ => hy⟩
  · exact .of_face rfl

theorem answerRecall_steps (s : State) (n : LineId) (c : Centre) (ch : ChannelId) : s.answerRecall n c ch =
    let u := roomMade (s.give (.ring n false))
    let t := forgotten (joined u n c ch (u.entry n) (u.timerFromTick (u.timers.longCall * 1000))) n
    (t.notify c.link (.callTaken u.nextId n c)).checkHandoverOf
      ((victimOf (s.give (.ring n false))).bind (·.claimant)) := rfl

/-- Room for the RECALL record, the line still rung. -/
theorem Kept.roomMade (h : Kept {} dead s) (hn : (s.line n).condition.ring? = some (c, ch)) :
    (∃ j, Kept (Entered none j) dead (roomMade s) ∧ j - 1 = 0) ∧ (roomMade s).records.length < 16 ∧
    ((roomMade s).line n).condition.ring? = some (c, ch) := by
  have hroom : s.records.length ≤ 16 := by simpa [ledger] using h.sound.room
  unfold Proofs.roomMade victimOf
  split
  · next r hr =>
    split at hr
    · cases hr
    · next hfull =>
      obtain ⟨v, hv, hm, hch⟩ := h.displaced (by omega)
      obtain rfl : v = r := Option.some.inj (hv.symm.trans hr)
      have hk := h.displace hm hch (by omega)
      have hline : (ledger (s.displace v)).condition n = (s.line n).condition := by
        rw [displace_notices, ledger_addOverflow]
        have hne : n ≠ v.line := by
          rintro rfl
          have := (h.sound.inCall v.line nofun).mpr (List.mem_map.mpr ⟨stakeOf v, mem_stakes.mpr ⟨v, hm, rfl⟩, rfl⟩)
          rw [show (s.line v.line).condition = .inCall from this] at hn
          cases hn
        show Function.update (ledger (displaceNotices (s.removeRecord v.id) v)).condition v.line .queued n = _
        rw [Function.update_of_ne hne, ledger_of_face (face_displaceNotices ..)]
        rfl
      refine ⟨⟨1, hk, rfl⟩, ?_, ?_⟩
      · have hfull := hk.sound.full
        have hq : (ledger (s.displace v)).queue ≠ [] := by
          rw [displace_notices, ledger_addOverflow]
          show List.map _ _ ≠ []
          intro e
          have := (insertOverflow_perm (displaceNotices (s.removeRecord v.id) v).tick
            { line := v.line, arrival := v.arrival, result := if v.category = .recall then some .notReceived else v.capture }
            (displaceNotices (s.removeRecord v.id) v).overflow).length_eq
          rw [List.map_eq_nil_iff.mp e] at this
          simp at this
        have := hfull hq
        simp only [ledger, List.length_map] at this
        omega
      · rw [← hn, ← hline]
        rfl
  · next hnone =>
    split at hnone
    · next hlt => exact ⟨⟨0, h, rfl⟩, hlt, hn⟩
    · next hfull =>
      obtain ⟨v, hv, -⟩ := h.displaced (by omega)
      rw [hv] at hnone
      cases hnone

theorem Kept.answerRecall (h : Kept {} dead s) (hn : (s.line n).condition.ring? = some (c, ch)) :
    Kept {} dead (s.answerRecall n c ch) := by
  rw [answerRecall_steps]
  have hg : Kept {} dead (s.give (.ring n false)) := h.of_face rfl
  obtain ⟨⟨j, hk, hj⟩, hroom, hring⟩ := hg.roomMade hn
  have hjoin := hk.join hring hroom ((Proofs.roomMade (s.give (.ring n false))).entry n)
    ((Proofs.roomMade (s.give (.ring n false))).timerFromTick
      ((Proofs.roomMade (s.give (.ring n false))).timers.longCall * 1000))
  rw [hj] at hjoin
  exact (((hjoin.forgotten n).of_face (face_notify ..))).checkHandoverOf _

theorem invDuty_answerRecall (h : Kept {} dead s) (hd : InvDuty s) : InvDuty (s.answerRecall n c ch) := by
  rw [answerRecall_steps]
  have hg : Kept {} dead (s.give (.ring n false)) := h.of_face rfl
  have hdg : InvDuty (s.give (.ring n false)) := invDuty_of_face (face_give ..) hd
  dsimp only
  generalize s.give (.ring n false) = u at hg hdg
  have htail : ∀ x, Retains x (roomMade u) ((forgotten (joined (roomMade u) n c ch ((roomMade u).entry n)
      ((roomMade u).timerFromTick ((roomMade u).timers.longCall * 1000))) n).notify c.link
      (.callTaken (roomMade u).nextId n c)) := fun x =>
    (retains_joined ..).trans ((retains_forgotten ..).trans (.of_face (face_notify ..)))
  have hroom : Retains ((victimOf u).map (·.id)) u (roomMade u) := by
    unfold roomMade
    split
    · next r hr => rw [hr]; exact retains_displace u r
    · exact .of_face rfl
  have hret := hroom.trans (htail _)
  refine invDuty_checkHandoverOf hdg (fun e => by rw [hret.centre]) (fun e => by rw [hret.centre]) fun e hne hc => ?_
  rw [claimsAny_iff] at hc ⊢
  obtain ⟨y, hy, hye⟩ := hc
  refine ⟨y, hret.calls y hy fun hid => hne ?_, hye⟩
  cases hv : victimOf u with
  | none => rw [hv] at hid; cases hid
  | some v =>
    rw [hv] at hid
    have hm : v ∈ u.records := by
      unfold victimOf at hv
      split at hv
      · cases hv
      · next hfull =>
        obtain ⟨w, hw, hwm, -⟩ := hg.displaced (by omega)
        rw [hw] at hv
        exact Option.some.inj hv ▸ hwm
    have := hg.sound.call_unique (mem_stakes.mpr ⟨v, hm, rfl⟩) hy (Option.some.inj hid)
    rw [← hye, ← this]
    rfl

end

/-! ### Good states -/

/-- A state in which the register, the channel table and the duties are in order. -/
structure Good (s : State) : Prop where
  kept : Kept {} (lostIn s) s
  duty : InvDuty s

section

variable {s t : State} {n : LineId} {g : GroupId} {k : Condition} {c : Centre}

theorem lostIn_congr (h : t.centre = s.centre) : lostIn t = lostIn s := by
  funext c
  unfold lostIn
  rw [h]

/-- An operation that keeps the register in order for any dead links, and the centre links but for their duties. -/
theorem Good.of (hh : ∀ c, (t.centre c).health = (s.centre c).health) (hk : Kept {} (lostIn s) t)
    (hd : InvDuty t) : Good t := by
  refine ⟨?_, hd⟩
  have : lostIn t = lostIn s := by
    funext c
    unfold lostIn
    rw [hh]
  rw [this]
  exact hk

theorem Good.of_face (h : Good s) (hf : face t = face s) : Good t :=
  Good.of (fun c => by rw [centre_of_face hf]) (h.kept.of_face hf) (invDuty_of_face hf h.duty)

theorem Good.of_offers (h : Good s) (ho : Offers s t) (hk : Kept {} (lostIn s) t) : Good t :=
  Good.of (fun c => by rw [ho.centre]) hk (ho.invDuty h.duty)

theorem Good.of_retains (h : Good s) (hr : Retains none s t) (hk : Kept {} (lostIn s) t) : Good t :=
  Good.of (fun c => by rw [hr.centre]) hk (hr.invDuty h.duty)

/-- What calls do to a centre link: its duty at most. -/
theorem Good.of_calls (hc : Calls s t) (hk : Kept {} (lostIn s) t) (hd : InvDuty t) : Good t :=
  Good.of (fun c => by obtain ⟨d, e⟩ := hc.wired.centre c; rw [e]) hk hd

theorem Good.each {α : Type} (h : Good s) (xs : List α) {f : State → α → State} (hf : ∀ u x, Good u → Good (f u x)) :
    Good (s.each xs f) := State.each_keeps Good f (fun u x hu => hf u x hu) s xs h

theorem Good.enter (h : Good s) (hn : Plain' (s.line n).condition) (hk : Plain' k) : Good (s.enter n k) :=
  h.of_retains (retains_enter ..) (h.kept.enterPlain hn hk)

theorem Good.setCondition (h : Good s) (hn : Plain' (s.line n).condition) (hk : Plain' k) : Good (s.setCondition n k) :=
  h.of_retains (retains_setCondition ..) (h.kept.setPlain hn hk)

theorem Good.callRequest (h : Good s) (hn : Plain' (s.line n).condition) (arrival : Tick) : Good (s.callRequest n arrival) :=
  h.of_retains (retains_callRequest ..) (h.kept.callRequest hn arrival)

theorem Good.endCall {r : CallRecord} (h : Good s) (hr : r ∈ s.records) (x : EndReason) (hk : Plain' k) :
    Good (s.endCall r x k) :=
  Good.of_calls ((Calls.refl s).endCall r x k) (h.kept.endCall hr x hk) (invDuty_endCall h.kept h.duty hr x k)

theorem Good.answerRecall {ch : ChannelId} (h : Good s) (hn : (s.line n).condition.ring? = some (c, ch)) :
    Good (s.answerRecall n c ch) :=
  Good.of_calls ((Calls.refl s).answerRecall n c ch) (h.kept.answerRecall hn) (invDuty_answerRecall h.kept h.duty)

theorem Good.notifyCondition (h : Good s) (n : LineId) : Good (s.notifyCondition n) := h.of_face (face_notifyCondition ..)

theorem plain_idle : Plain' .idle := ⟨nofun, nofun, rfl⟩
theorem plain_fault (x : FaultKind) : Plain' (.fault x) := ⟨nofun, nofun, rfl⟩
theorem plain_parked (a : Option Timer) (b : Bool) (x : Tick) : Plain' (.parked a b x) := ⟨nofun, nofun, rfl⟩
theorem plain_testing (p : PriorCondition) : Plain' (.testing p) := ⟨nofun, nofun, rfl⟩
theorem plain_outOfService : Plain' .outOfService := ⟨nofun, nofun, rfl⟩
theorem plain_notFitted : Plain' .notFitted := ⟨nofun, nofun, rfl⟩

theorem Good.enterFault (h : Good s) (hn : Plain' (s.line n).condition) (x : FaultKind) : Good (s.enterFault n x) :=
  (h.enter hn (plain_fault x)).notifyCondition n

theorem Good.changeIdle (h : Good s) (hn : Plain' (s.line n).condition) (new : LoopClass) : Good (s.changeIdle n new) := by
  unfold State.changeIdle
  split
  · exact h.callRequest hn _
  · split
    · exact h.enterFault hn _
    · exact h

theorem Good.changeFault (h : Good s) (hn : Plain' (s.line n).condition) (old : FaultKind) (new : LoopClass) :
    Good (s.changeFault n old new) := by
  unfold State.changeFault
  split
  · exact (h.enter hn plain_idle).of_face (face_notifyLine ..)
  · have hc := (h.setCondition hn plain_idle).of_face (face_notifyLine _ n (.faultCleared n old))
    refine hc.callRequest ?_ _
    have hline : (((s.setCondition n .idle).notifyLine n (.faultCleared n old)).line n).condition = .idle := by
      have := congrFun (congrArg Face.condition (face_notifyLine (s.setCondition n .idle) n (.faultCleared n old))) n
      refine Eq.trans this ?_
      show ((s.setCondition n .idle).line n).condition = .idle
      rw [State.setCondition_line, if_pos rfl]
    rw [hline]
    exact plain_idle
  · split
    · exact h.enterFault hn _
    · exact h

theorem Good.changeInCall (h : Good s) (n : LineId) (new : LoopClass) : Good (s.changeInCall n new) := by
  unfold State.changeInCall
  split
  · exact h
  · next r hr =>
    have hm := (mem_of_recordOfLine hr).1
    split
    · exact h.endCall hm _ plain_idle
    · split
      · exact (h.endCall hm _ (plain_fault _)).notifyCondition n
      · exact h

theorem Good.leaveQueue (h : Good s) (hn : (s.line n).condition = .queued) (hk : Plain' k) :
    Good (((s.dropOverflow n).enter n k).dropCapture n) :=
  (h.of_retains ((retains_dropOverflow ..).trans (retains_enter ..)) ((h.kept.dropOverflow hn).enterOwed hk)).of_face
    (face_dropCapture ..)

theorem Good.changeQueued (h : Good s) (hn : (s.line n).condition = .queued) (new : LoopClass) :
    Good (s.changeQueued n new) := by
  unfold State.changeQueued
  split
  · exact h.leaveQueue hn plain_idle
  · split
    · exact (h.leaveQueue hn (plain_fault _)).notifyCondition n
    · exact h

theorem Good.notifyUnparked (h : Good s) (n : LineId) (sent : Bool) : Good (s.notifyUnparked n sent) := by
  unfold State.notifyUnparked
  split
  · exact h.notifyCondition n
  · exact h

theorem Good.changeParked (h : Good s) (hn : Plain' (s.line n).condition) (sent : Bool) (new : LoopClass) :
    Good (s.changeParked n sent new) := by
  unfold State.changeParked
  split
  · exact (h.enter hn plain_idle).notifyUnparked n sent
  · split
    · exact (h.enterFault hn _).notifyUnparked n sent
    · exact h

theorem Good.classChange (h : Good s) (n : LineId) (new : LoopClass) : Good (s.classChange n new) := by
  unfold State.classChange
  split
  · next hc => exact h.changeIdle (hc ▸ plain_idle) new
  · next hc => exact h.changeFault (hc ▸ plain_fault _) _ new
  · exact h.changeInCall n new
  · next hc => exact h.changeQueued hc new
  · next hc => exact h.changeParked (hc ▸ plain_parked ..) _ new
  · next hc =>
    split
    · exact h.answerRecall (by rw [hc]; rfl)
    · exact h
  all_goals exact h

theorem Good.debounceLine (h : Good s) (n : LineId) (raw : RawClass) : Good (s.debounceLine n raw) := by
  unfold State.debounceLine
  dsimp only
  split
  · exact (h.of_face (face_setClassifier s n _)).classChange n _
  · exact h.of_face (face_setClassifier ..)

theorem Good.classify (h : Good s) (n : LineId) (vc ic : Code) (vf : Option Code) : Good (s.classify n vc ic vf) := by
  unfold State.classify
  split
  · exact h
  · exact h
  · exact h
  · unfold State.classifyRinging
    split
    · exact h
    · dsimp only
      split
      · exact (h.of_face (face_setClassifier ..)).debounceLine n _
      · exact h.of_face (face_setClassifier ..)
  · unfold State.classifyFull
    split
    · exact h.debounceLine n _
    · dsimp only
      split
      · exact ((h.of_face (face_setClassifier ..)).of_face (face_trackLine ..)).debounceLine n _
      · exact (h.of_face (face_setClassifier ..)).debounceLine n _

/-! ### Tests and the scanner -/

theorem Good.leaveTesting (h : Good s) (n : LineId) : Good (s.leaveTesting n) := by
  unfold State.leaveTesting
  split
  · next p hc =>
    refine h.enter (hc ▸ plain_testing p) ?_
    cases p
    · exact plain_idle
    · exact plain_fault _
    · exact plain_outOfService
  · exact h

theorem Good.endTest (h : Good s) (g : GroupId) (o : TestOutcome) : Good (s.endTest g o) := by
  unfold State.endTest
  split
  · exact h
  · next r _ =>
    have hd : Good ((s.setGroup g (dropTestOrder (s.group g))).restoreDrives r) :=
      h.of_face ((face_restoreDrives ..).trans (face_setGroup ..))
    exact ((hd.leaveTesting r.line).of_face (face_setTest _ g none)).of_face (face_notify ..)

theorem Good.testSample (h : Good s) (g : GroupId) (r : TestRecord) (x : Code × Code) : Good (s.testSample g r x) := by
  unfold State.testSample
  split
  · exact h.of_face ((face_give ..).trans (face_updTest ..))
  · split
    · exact (h.of_face (face_updTest ..)).endTest g _
    · exact h
  · exact (h.of_face (face_updTest ..)).endTest g _
  · exact h.of_face (face_updTest ..)
  · split
    · exact (h.of_face ((face_countCheck ..).trans (face_updTest ..))).endTest g _
    · exact h
  · exact h
  · exact h

theorem Good.testOrderEnd (h : Good s) (g : GroupId) (x : Option (Code × Code)) : Good (s.testOrderEnd g x) := by
  unfold State.testOrderEnd
  split
  · exact h
  · split
    · exact h.endTest g _
    · exact h.testSample g _ _

theorem Good.becomeSilent (h : Good s) (g : GroupId) : Good (s.becomeSilent g) := by
  unfold State.becomeSilent
  refine Good.endTest (h.of_face ?_) g _
  exact (face_startProbeDelay ..).trans ((face_notifyAll ..).trans (face_setGroup ..))

theorem Good.noSample (h : Good s) (g : GroupId) {f : State → State} (hf : ∀ u, Good u → Good (f u)) :
    Good (s.noSample g f) := by
  unfold State.noSample
  dsimp only
  have hs := fun r => h.of_face (face_setGroup s g r)
  split
  · exact (hs _).becomeSilent g
  · exact hf _ (hs _)

theorem Good.scanSample (h : Good s) (g : GroupId) (p : ScanPurpose) (x : Code × Code) : Good (s.scanSample g p x) := by
  have hs : Good (s.sampled g) := h.of_face (face_sampled ..)
  unfold State.scanSample
  split
  · exact hs.of_face ((face_scanFrom ..).trans (face_setGroup ..))
  · exact (hs.classify _ _ _ _).of_face (face_scanFrom ..)
  · exact hs.of_face (face_ready ..)
  · dsimp only
    split
    · exact hs.of_face ((face_endPass ..).trans (face_countCheck ..))
    · exact hs.of_face (face_endPass ..)
  · exact h.of_face (face_recoverGroup ..)

theorem Good.scanNoSample (h : Good s) (g : GroupId) (p : ScanPurpose) : Good (s.scanNoSample g p) := by
  unfold State.scanNoSample
  split
  · refine h.noSample g fun u hu => ?_
    split
    · exact hu.of_face (face_scanFrom ..)
    · exact hu.of_face (face_endPass ..)
  · exact h.noSample g fun u hu => hu.of_face (face_scanFrom ..)
  · exact h.noSample g fun u hu => hu.of_face (face_ready ..)
  · exact h.noSample g fun u hu => hu.of_face (face_endPass ..)
  · exact h.of_face ((face_startProbeDelay ..).trans (face_setGroup ..))

theorem Good.afterOrder (h : Good s) (g : GroupId) :
    Good ((if (s.group g).restartPass then s.startPass g else s).arbitrate g) := by
  refine Good.of_face (s := if (s.group g).restartPass then s.startPass g else s) ?_ (face_arbitrate ..)
  split
  · exact h.of_face (face_startPass ..)
  · exact h

theorem Good.endOrder (h : Good s) (g : GroupId) (x : Option (Code × Code)) : Good (s.endOrder g x) := by
  unfold State.endOrder
  split
  · exact h
  · have hs : Good (s.setGroup g { s.group g with port := none }) := h.of_face (face_setGroup ..)
    refine Good.afterOrder ?_ g
    split
    · exact hs
    · exact hs.testOrderEnd g x
    · exact hs
    · exact hs.of_face (face_scanLostFit ..)
    · split
      · exact hs.scanSample g _ _
      · exact hs.scanNoSample g _

theorem Good.stopRing {ch : ChannelId} (h : Good s) (hn : (s.line n).condition.ring? = some (c, ch)) :
    Good (s.stopRing n ch) := h.of_retains (retains_stopRing ..) (h.kept.stopRing hn)

theorem Good.endCapture (h : Good s) (n : LineId) (res : CaptureResult) : Good (s.endCapture n res) :=
  h.of_offers (offers_endCapture ..) (h.kept.endCapture n res)

end

end Sys2Proof.Proofs

/-! PROOFS. The commands on a call and the timers of its record keep the register, the channel table and the duties in
order (R96, R98, R109 to R119, R122 to R125). -/

namespace Sys2Proof.Proofs

open Sys2Proof Sys2Proof.Machine

section

variable {s t : State} {o : Loose} {dead : Centre → Prop} {r q : CallRecord} {id : CallId} {n : LineId} {c : Centre}
  {ch : ChannelId} {f : CallRecord → CallRecord} {g : Stake → Stake}

/-! ### A record that changes hands -/

theorem eq_of_mem_updRecord (h : Kept o dead s) (hr : r ∈ s.records) (hq : q ∈ (s.updRecord r.id f).records)
    (e : q.id = r.id) : q = f r := by
  obtain ⟨p, hp, ep, rfl⟩ | ⟨-, hne⟩ := mem_updRecord hq
  · rw [h.unique hp hr ep]
  · exact absurd e hne

theorem mem_updRecord_self (hr : r ∈ s.records) : f r ∈ (s.updRecord r.id f).records :=
  List.mem_map.mpr ⟨r, hr, if_pos rfl⟩

/-- A record without a channel takes a free one for its claimant. -/
theorem Kept.assign (h : Kept {} dead s) (hr : r ∈ s.records) (hn : r.channel = none)
    (hf : ∀ q, stakeOf (f q) = g (stakeOf q)) (hid : ∀ x, (g x).id = x.id) (hline : ∀ x, (g x).line = x.line)
    (hcl : (f r).claimant = some c) (hch : (f r).channel = some ch) (hfree : s.channel ch = .free)
    (hfair : Fair dead (f r)) :
    Kept {} dead ((s.updRecord r.id f).setChannel ch (.connected r.line c r.id)) := by
  have hi : (f r).id = r.id := (congrArg Stake.id (hf r)).trans (hid _)
  have hl : (f r).line = r.line := (congrArg Stake.line (hf r)).trans (hline _)
  have hk := ((h.open hr hn).updLoose (f := f) rfl hf hid hline).connect (r := f r) (c := c) (ch := ch)
    (congrArg some hi.symm) (mem_updRecord_self hr) hcl hch hfree hfair
  rw [hi, hl] at hk
  exact hk

/-- The claims stand when the record keeps its claimant or had none. -/
theorem claimsAny_updRecord {d : Centre} (hf : ∀ q ∈ s.records, q.id = id → q.claimant = some d → (f q).claimant = some d)
    (hd : s.claimsAny d = true) : (s.updRecord id f).claimsAny d = true := by
  unfold State.claimsAny at hd ⊢
  rw [List.any_eq_true] at hd ⊢
  obtain ⟨q, hq, e⟩ := hd
  rw [decide_eq_true_iff] at e
  by_cases hi : q.id = id
  · exact ⟨f q, List.mem_map.mpr ⟨q, hq, if_pos hi⟩, by simpa using hf q hq hi e⟩
  · exact ⟨q, List.mem_map.mpr ⟨q, hq, if_neg hi⟩, by simpa using e⟩

theorem claimsAny_of_face (h : face t = face s) (d : Centre) : t.claimsAny d = s.claimsAny d := by
  unfold State.claimsAny
  rw [records_of_face h]

/-! ### The fields of a claimed, a held and a transferred record -/

theorem fair_claimed (h : Draft dead r) (hc : ¬ dead c) (now : Tick) (long : Timer) :
    Fair dead (r.claimed c ch now long) := by
  refine ⟨⟨by simp [CallRecord.claimed], by simp [CallRecord.claimed], by simp [CallRecord.claimed],
    fun _ => ⟨rfl, rfl, rfl, rfl, rfl⟩, nofun, nofun, by simp [CallRecord.claimed, h.location],
    by simp [CallRecord.claimed, h.capture], nofun⟩, fun d hd => ⟨fun e => hc ?_, empty_has d⟩⟩
  obtain rfl : c = d := Option.some.inj e
  exact hd

theorem claimed_of_spoken (hs : r.state.spoken = true) : r.state = .connected ∨ r.state = .held := by
  revert hs
  cases r.state <;> simp [CallState.spoken]

theorem fair_held (h : Fair dead r) (hs : r.state = .connected) :
    Fair dead { r with state := .held, channel := none } := by
  obtain ⟨⟨hcl, hch, hof, hcd, hun, htr, hloc, hcap, -⟩, hd⟩ := h
  have hsome : r.claimant.isSome = true := hcl.mpr (.inl hs)
  have hempty : r.offered = .empty := by
    by_contra hne
    rw [hof.mp hne] at hs
    cases hs
  rw [hs] at hloc hcap
  exact ⟨⟨by simp [hsome], by simp, by simp [hempty], hcd, hun, htr, by simpa using hloc, by simpa using hcap, nofun⟩, hd⟩

theorem fair_retrieved (h : Fair dead r) (hs : r.state = .held) (ch : ChannelId) :
    Fair dead { r with state := .connected, channel := some ch } := by
  obtain ⟨⟨hcl, hch, hof, hcd, hun, htr, hloc, hcap, -⟩, hd⟩ := h
  have hsome : r.claimant.isSome = true := hcl.mpr (.inr hs)
  have hempty : r.offered = .empty := by
    by_contra hne
    rw [hof.mp hne] at hs
    cases hs
  rw [hs] at hloc hcap
  exact ⟨⟨by simp [hsome], by simp, by simp [hempty], hcd, hun, htr, by simpa using hloc, by simpa using hcap, nofun⟩, hd⟩

/-- The record that its claimant has let go for its partner. -/
def letGo (r : CallRecord) (c : Centre) : CallRecord :=
  { r with
    channel := none, origin := some c, claimant := none, longTimer := none, longWaits := false
    offered := .empty }

theorem draft_letGo (h : Fair dead r) (hs : r.state = .connected ∨ r.state = .held) (c : Centre) :
    Draft dead (letGo r c) := by
  obtain ⟨⟨-, -, -, -, -, -, hloc, hcap, -⟩, -⟩ := h
  have hi : r.state ≠ .identifying := by obtain e | e := hs <;> rw [e] <;> exact nofun
  exact ⟨rfl, rfl, ⟨rfl, rfl⟩, fun _ => rfl, fun e => hi (hloc.mp e), fun e => hi (hcap.mp e), fun d _ => empty_has d⟩

theorem fair_transferring (h : Fair dead r) (ho : r.origin.isSome = true) (x : Timer) (hs : r.state = .offered) :
    Fair dead { r with transferTimer := some x } := by
  obtain ⟨⟨hcl, hch, hof, -, hun, -, hloc, hcap, hid⟩, hd⟩ := h
  have hnone : r.claimant.isSome ≠ true := fun e => by
    obtain e | e := hcl.mp e <;> rw [hs] at e <;> cases e
  exact ⟨⟨hcl, hch, hof, fun e => absurd e hnone, hun, fun _ => ho, hloc, hcap, hid⟩, hd⟩

/-! ### Claiming, holding, retrieving -/

theorem lowestFree_free (h : s.grantedChannel c = some ch) : s.channel ch = .free := by
  unfold State.grantedChannel at h
  split at h
  · simpa using List.find?_some h
  · cases h

theorem face_tellTaken (s : State) (r : CallRecord) (c : Centre) : face (s.tellTaken r c) = face s := by
  unfold State.tellTaken
  dsimp only
  rw [face_leave]
  split <;> split <;> simp only [face_notifyOrigin, face_leave]

theorem Good.takeClaim (h : Good s) (hr : r ∈ s.records) (ho : r.offered.has c = true) (hl : (s.centre c).health ≠ .lost)
    (hg : s.grantedChannel c = some ch) (type : Byte) (fields : List Byte) : Good (s.takeClaim r c ch type fields) := by
  have hst := offered_of_has (h.kept.fair_mem hr).1 ho
  have hd := draft_of_fair (h.kept.fair_mem hr) (.inr hst)
  let long := s.timerFromTick (s.timers.longCall * 1000)
  have hk : Kept {} (lostIn s) ((s.updRecord r.id fun q => q.claimed c ch s.tick long).setChannel ch
      (.connected r.line c r.id)) :=
    h.kept.assign (g := fun x => { x with holder := some c, channel := some ch }) hr hd.channel (fun _ => rfl)
      (fun _ => rfl) (fun _ => rfl) rfl rfl (lowestFree_free hg) (fair_claimed hd hl ..)
  have hf : face (s.takeClaim r c ch type fields) =
      face ((s.updRecord r.id fun q => q.claimed c ch s.tick long).setChannel ch (.connected r.line c r.id)) :=
    (face_retone ..).trans ((face_tellTaken ..).trans ((face_reply ..).trans rfl))
  refine Good.of (fun d => by rw [centre_of_face hf]; rfl) (hk.of_face hf) ?_
  refine invDuty_of_claims (s := s) ((centre_of_face hf).trans rfl) (fun d hd' => ?_) h.duty
  rw [claimsAny_of_face hf]
  exact claimsAny_updRecord (s := s) (fun q hq e hx => by
    rw [h.kept.unique hq hr e, hd.claimant] at hx
    cases hx) hd'

theorem Good.claimRecord (h : Good s) (hr : r ∈ s.records) (hl : (s.centre c).health ≠ .lost) :
    Good (s.claimRecord c r) := by
  have hno := fun code => h.of_face (face_refuse s c.link Command.claim code)
  unfold State.claimRecord
  dsimp only
  split
  · exact hno _
  · split
    · split
      · exact hno _
      · exact h.of_face (face_reply ..)
    · split
      · exact hno _
      · next ho =>
        split
        · next hg => exact h.takeClaim hr (by simpa using ho) hl hg _ _
        · exact hno _

theorem Good.answerNext (h : Good s) (hl : (s.centre c).health ≠ .lost) : Good (s.answerNext c) := by
  have hno := fun code => h.of_face (face_refuse s c.link Command.answerNext code)
  unfold State.answerNext
  dsimp only
  split
  · exact hno _
  · split
    · exact hno _
    · next r hr =>
      have hm : r ∈ s.records := (registerOrder_perm s).mem_iff.mp (List.mem_of_find?_eq_some hr)
      split
      · next hg => exact h.takeClaim hm (by simpa using List.find?_some hr) hl hg _ _
      · exact hno _

theorem Good.holdCall (h : Good s) (hr : r ∈ s.records) (hs : r.state = .connected) : Good (s.holdCall c r) := by
  obtain ⟨hrec, hcen, -⟩ := freeHeld_keeps s r.channel
  have hfair := fair_held (h.kept.fair_mem hr) hs
  let u := (s.freeHeld r.channel).updRecord r.id fun q => { q with state := .held, channel := none }
  have hk : Kept { ({} : Loose) with call := some r.id } (lostIn s) u :=
    (h.kept.loosen hr rfl).updLoose (g := fun x => { x with channel := none }) rfl (fun _ => rfl) (fun _ => rfl) fun _ => rfl
  have hk' : Kept {} (lostIn s) u := hk.fasten rfl fun q hq e => by
    obtain rfl := eq_of_mem_updRecord (h.kept.loosen hr rfl) (hrec ▸ hr) hq e
    exact ⟨rfl, hfair⟩
  have hf : face (s.holdCall c r) = face u := (face_retone ..).trans (face_reply ..)
  refine Good.of (fun d => by rw [centre_of_face hf]; exact congrArg (fun x => (x d).health) hcen) (hk'.of_face hf) ?_
  refine invDuty_of_claims (s := s) ((centre_of_face hf).trans hcen) (fun d hd => ?_) h.duty
  rw [claimsAny_of_face hf]
  refine claimsAny_updRecord (f := fun q => { q with state := .held, channel := none }) (fun q _ _ hx => hx) ?_
  unfold State.claimsAny at hd ⊢
  rw [hrec]
  exact hd

/-! ### The fields that a timer sets -/

/-- Fields of a record that its soundness does not read, or reads in favour. -/
theorem Good.decorate (h : Good s) (hf : ∀ q, stakeOf (f q) = stakeOf q)
    (hfair : ∀ q ∈ s.records, q.id = id → Fair (lostIn s) q → Fair (lostIn s) (f q)) : Good (s.updRecord id f) :=
  h.of_offers (.updRecord hf) (h.kept.decorate rfl hf hfair)

theorem sound_longTold (h : r.Sound) : ({ r with longCall := true, longWaits := false } : CallRecord).Sound := by
  obtain ⟨hcl, hch, hof, hcd, hun, htr, hloc, hcap, hid⟩ := h
  exact ⟨hcl, hch, hof, hcd, fun e => ⟨(hun e).1, rfl⟩, htr, hloc, hcap, hid⟩

theorem sound_longStopped (h : r.Sound) : ({ r with longTimer := none } : CallRecord).Sound := by
  obtain ⟨hcl, hch, hof, hcd, hun, htr, hloc, hcap, hid⟩ := h
  exact ⟨hcl, hch, hof, hcd, fun e => ⟨rfl, (hun e).2⟩, htr, hloc, hcap, hid⟩

theorem sound_longOwed (h : r.Sound) (hs : r.state = .held) : ({ r with longWaits := true } : CallRecord).Sound := by
  obtain ⟨hcl, hch, hof, hcd, hun, htr, hloc, hcap, hid⟩ := h
  have hsome : r.claimant.isSome = true := hcl.mpr (.inr hs)
  refine ⟨hcl, hch, hof, hcd, fun e => ?_, htr, hloc, hcap, hid⟩
  rw [show r.claimant = none from e] at hsome
  cases hsome

theorem sound_unescalating (h : r.Sound) : ({ r with escalation := none } : CallRecord).Sound := by
  obtain ⟨hcl, hch, hof, hcd, hun, htr, hloc, hcap, hid⟩ := h
  refine ⟨hcl, hch, hof, fun e => ?_, hun, htr, hloc, hcap, fun e => ⟨(hid e).1, rfl, (hid e).2.2⟩⟩
  obtain ⟨h1, h2, -, h4, h5⟩ := hcd e
  exact ⟨h1, h2, rfl, h4, h5⟩

theorem sound_notOverdue (h : r.Sound) : ({ r with overdueTimer := none } : CallRecord).Sound := by
  obtain ⟨hcl, hch, hof, hcd, hun, htr, hloc, hcap, hid⟩ := h
  refine ⟨hcl, hch, hof, fun e => ?_, hun, htr, hloc, hcap, hid⟩
  obtain ⟨h1, h2, h3, -, h5⟩ := hcd e
  exact ⟨h1, h2, h3, rfl, h5⟩

theorem sound_transferStopped (h : r.Sound) : ({ r with transferTimer := none } : CallRecord).Sound := by
  obtain ⟨hcl, hch, hof, hcd, hun, htr, hloc, hcap, hid⟩ := h
  refine ⟨hcl, hch, hof, fun e => ?_, hun, nofun, hloc, hcap, hid⟩
  obtain ⟨h1, h2, h3, h4, -⟩ := hcd e
  exact ⟨h1, h2, h3, h4, rfl⟩

theorem Good.tellLongCall (h : Good s) (r : CallRecord) : Good (s.tellLongCall r) := by
  have hu := h.decorate (id := r.id) (f := fun q => { q with longCall := true, longWaits := false }) (fun _ => rfl)
    fun q _ _ hq => ⟨sound_longTold hq.1, hq.2⟩
  unfold State.tellLongCall
  dsimp only
  split
  · exact hu.of_face (face_notify ..)
  · exact hu

theorem Good.endLongCallTimer (h : Good s) (hr : r ∈ s.records) : Good (s.endLongCallTimer r) := by
  have hu := h.decorate (id := r.id) (f := fun q => { q with longTimer := none }) (fun _ => rfl)
    fun q _ _ hq => ⟨sound_longStopped hq.1, hq.2⟩
  unfold State.endLongCallTimer
  split
  · exact h
  · dsimp only
    split
    · split
      · exact hu
      · exact hu.tellLongCall r
    · next hs =>
      refine hu.decorate (fun _ => rfl) fun q hq e hfair => ⟨sound_longOwed hfair.1 ?_, hfair.2⟩
      rw [eq_of_mem_updRecord h.kept hr hq e]
      exact hs
    · exact hu

theorem Good.endEscalation (h : Good s) (hr : r ∈ s.records) : Good (s.endEscalation r) := by
  have hu := h.decorate (id := r.id) (f := fun q => { q with escalation := none }) (fun _ => rfl)
    fun q _ _ hq => ⟨sound_unescalating hq.1, hq.2⟩
  have hesc : (r.state = .waiting ∨ r.state = .offered) →
      Good ((s.updRecord r.id fun q => { q with escalation := none }).escalate r) := fun hs =>
    hu.of_offers (offers_escalate ..) (hu.kept.escalate fun q hq e =>
      draft_of_fair (hu.kept.fair_mem hq) (by rw [eq_of_mem_updRecord h.kept hr hq e]; exact hs))
  unfold State.endEscalation
  split
  · exact h
  · dsimp only
    split
    · next hs => exact hesc (.inl hs)
    · next hs => exact hesc (.inr hs)
    · exact hu

theorem Good.endOverdue (h : Good s) (r : CallRecord) : Good (s.endOverdue r) := by
  have hu := h.decorate (id := r.id) (f := fun q => { q with overdueTimer := none }) (fun _ => rfl)
    fun q _ _ hq => ⟨sound_notOverdue hq.1, hq.2⟩
  unfold State.endOverdue
  split
  · exact h
  · dsimp only
    split
    · exact hu.of_offers (offers_markOverdue ..) (hu.kept.markOverdue r)
    · exact hu

theorem Good.endTransferTimer (h : Good s) (hr : r ∈ s.records) : Good (s.endTransferTimer r) := by
  have hu := h.decorate (id := r.id) (f := fun q => { q with transferTimer := none }) (fun _ => rfl)
    fun q _ _ hq => ⟨sound_transferStopped hq.1, hq.2⟩
  unfold State.endTransferTimer
  split
  · exact h
  · dsimp only
    split
    · next hs =>
      refine hu.of_offers (offers_transferTimedOut ..) (hu.kept.transferTimedOut fun q hq e => ?_)
      refine hu.kept.draft (mem_updRecord_self hr) (.inr hs) q hq ?_
      exact e
    · exact hu

theorem Good.retrieveCall (h : Good s) (hr : r ∈ s.records) (hs : r.state = .held) (hc : r.claimant = some c)
    (hg : s.grantedChannel c = some ch) : Good (s.retrieveCall c r ch) := by
  have hfair := h.kept.fair_mem hr
  have hnone : r.channel = none := sound_channel_none hfair.1 (by rw [hs]; nofun)
  let u := (s.updRecord r.id fun q => { q with state := .connected, channel := some ch }).setChannel ch
      (.connected r.line c r.id)
  have hk : Kept {} (lostIn s) u :=
    h.kept.assign (g := fun x => { x with channel := some ch }) hr hnone (fun _ => rfl)
      (fun _ => rfl) (fun _ => rfl) hc rfl (lowestFree_free hg) (fair_retrieved hfair hs ch)
  have hf : face ((((s.connectChannel ch r.line c r.id).updRecord r.id fun q =>
      { q with state := .connected, channel := some ch }).reply c.link Command.retrieve .ok [byte ch.val]).retone r.line) =
      face u := (face_retone ..).trans ((face_reply ..).trans rfl)
  have hgood : Good u := Good.of (fun _ => rfl) hk (invDuty_of_claims (s := s) rfl (fun d hd =>
    claimsAny_updRecord (s := s) (f := fun q => { q with state := .connected, channel := some ch })
      (fun q _ _ hx => hx) hd) h.duty)
  have hgood' := hgood.of_face hf
  unfold State.retrieveCall
  dsimp only
  split
  · exact hgood'.tellLongCall r
  · exact hgood'

/-! ### Transfer -/

/-- The transfer timer of a record starts. -/
def timed (s : State) (id : CallId) : State :=
  s.updRecord id fun r => { r with transferTimer := some (s.timer (s.timers.escalate * 1000)) }

theorem offers_timed (s : State) (id : CallId) : Offers s (timed s id) := .updRecord fun _ => rfl

theorem Good.transferCall (h : Good s) (hr : r ∈ s.records) (hs : r.state.spoken = true) (hc : r.claimant = some c)
    (hp : s.usable c.partner = true) : Good (s.transferCall c r) := by
  obtain ⟨hrec, hcen, -⟩ := freeHeld_keeps s r.channel
  have hdraft := draft_letGo (h.kept.fair_mem hr) (claimed_of_spoken hs) c
  let u := (s.freeHeld r.channel).updRecord r.id fun q => letGo q c
  have hloose := h.kept.loosen hr rfl
  have hk : Kept { ({} : Loose) with call := some r.id } (lostIn s) u :=
    hloose.updLoose (g := fun x => { x with holder := none, channel := none }) rfl (fun _ => rfl) (fun _ => rfl) fun _ => rfl
  have hat : ∀ q ∈ u.records, q.id = r.id → q = letGo r c := fun q hq e =>
    eq_of_mem_updRecord hloose (hrec ▸ hr) hq e
  have hid : u.recordById r.id = some (letGo r c) := hk.recordById (mem_updRecord_self (f := fun q => letGo q c) (hrec ▸ hr))
  have hoff : Kept {} (lostIn s) (u.offerTo r.id c.partner) :=
    hk.offerTo (h.kept.usable_not_dead hp) (fun q hq e => by rw [hat q hq e]; exact hdraft)
      fun i hi => (Option.some.inj hi).symm
  have horigin : ∀ q ∈ (u.offerTo r.id c.partner).records, q.id = r.id → q.origin = some c := fun q hq e => by
    rw [records_of_face (face_offerTo hid)] at hq
    obtain ⟨p, hp, ep, rfl⟩ | ⟨-, hne⟩ := mem_updRecord hq
    · rw [hat p hp ep]; rfl
    · exact absurd e hne
  let v := (timed (u.offerTo r.id c.partner) r.id).reply c.link Command.transfer .ok []
  have ht : Kept {} (lostIn s) (timed (u.offerTo r.id c.partner) r.id) :=
    hoff.decorate rfl (fun _ => rfl) fun q hq e hfair =>
      fair_transferring hfair (by rw [horigin q hq e]; rfl) _ (state_offerTo hid hq e)
  have hv : Kept {} (lostIn s) v := ht.of_face (face_reply ..)
  have hoffers : Offers u v := (offers_offerTo ..).trans ((offers_timed ..).trans (.of_face (face_reply ..)))
  have hcen' : v.centre = s.centre := hoffers.centre.trans hcen
  refine Good.of_calls ((Calls.refl s).transferCall c r) (hv.checkHandover c) ?_
  show InvDuty (v.checkHandoverOf (some c))
  refine invDuty_checkHandoverOf h.duty (fun d => by rw [hcen']) (fun d => by rw [hcen']) fun d hd hcl => ?_
  rw [claimsAny_of_calls (congrArg Ledger.calls hoffers.ledger)]
  refine claimsAny_updRecord (fun q hq e hx => ?_) ?_
  · rw [h.kept.unique (hrec ▸ hq) hr e, hc] at hx
    exact absurd hx hd
  · unfold State.claimsAny at hcl ⊢
    rw [hrec]
    exact hcl

/-! ### Rings -/

theorem Kept.ringLine (h : Kept {} dead s) (hn : Plain' (s.line n).condition) (hch : s.channel ch = .free)
    (hc : ¬ dead c) {k : Condition} (hk : k.ring? = some (c, ch)) :
    Kept {} dead ((s.setChannel ch (.reserved n c)).enter n k) where
  sound := by
    rw [ledger_enter, ledger_setChannel]
    exact h.sound.ring (h.sound.vacant_of_plain hn) hch hk nofun
  fair p hp _ := by
    rw [records_of_face (face_enter ..)] at hp
    exact h.fair_mem hp
  rung d m e hd := by
    rw [channel_enter, State.setChannel_channel] at hd
    split at hd
    · obtain ⟨-, rfl⟩ := Channel.reserved.inj hd
      exact hc
    · exact h.rung d m e hd
  lost := by
    rw [centre_enter]
    exact h.lost

theorem Good.ringPost (h : Good s) (hl : (s.centre c).health ≠ .lost) (n : LineId) : Good (s.ringPost c n) := by
  have hno := fun code => h.of_face (face_refuse s c.link Command.ringPost code)
  unfold State.ringPost
  dsimp only
  split
  · exact hno _
  · next hn =>
    split
    · exact hno _
    · split
      · next hg =>
        have hk := h.kept.ringLine (hn ▸ plain_idle) (lowestFree_free hg) hl (c := c)
          (k := .ringing (s.timer (s.timers.ring * 1000)) c _) rfl
        refine (Good.of_retains h ?_ hk).of_face (face_reply ..)
        exact ⟨(centre_enter ..).trans rfl, fun y hy _ => by rw [ledger_enter, ledger_setChannel]; exact hy⟩
      · exact hno _
  · exact h.of_face (face_reply ..)

theorem Good.cancelRing (h : Good s) (n : LineId) : Good (s.cancelRing c n) := by
  have hno := fun code => h.of_face (face_refuse s c.link Command.cancelRing code)
  unfold State.cancelRing
  dsimp only
  split
  · exact hno _
  · next hn =>
    split
    · exact (h.stopRing (by rw [hn]; rfl)).of_face (face_reply ..)
    · exact hno _
  · exact hno _

/-! ### The abandoned list -/

theorem Good.setAbandoned (h : Good s) {xs : List AbandonedEntry} (hxs : xs.Sublist s.abandoned) :
    Good (s.setAbandoned xs) :=
  h.of_retains ⟨rfl, fun _ hy _ => hy⟩ (setAbandoned_keeps h.kept hxs)

theorem Good.dismiss (h : Good s) (id : Byte) : Good (s.dismiss c id) := by
  have hno := fun code => h.of_face (face_refuse s c.link Command.dismiss code)
  unfold State.dismiss
  dsimp only
  split
  · exact hno _
  · split
    · exact (h.setAbandoned List.filter_sublist).of_face (face_reply ..)
    · split
      · exact hno _
      · exact hno _

/-! ### The duties -/

/-- One record's turn at a handover request. -/
def movedOn (c : Centre) (s : State) (r : CallRecord) : State :=
  if r.state.unclaimed && r.offered.has c then
    let s := s.updRecord r.id fun r => { r with offered := r.offered.remove c }
    let s := if r.offered.has c.partner then s else s.offerTo r.id c.partner
    s.withdrawFrom r c .handover
  else s

theorem takeHandover_turns (s : State) (c : Centre) : s.takeHandover c =
    (((s.setDuty c .handingOver).reply c.link Command.handoverRequest .ok []).eachRecord (movedOn c)).checkHandover c := rfl

theorem offers_movedOn (c : Centre) (s : State) (r : CallRecord) : Offers s (movedOn c s r) := by
  have hu : Offers s (s.updRecord r.id fun r => { r with offered := r.offered.remove c }) := .updRecord fun _ => rfl
  unfold movedOn
  dsimp only
  split
  · split
    · exact hu.trans (.of_face (face_withdrawFrom ..))
    · exact hu.trans ((offers_offerTo ..).trans (.of_face (face_withdrawFrom ..)))
  · exact .refl s

theorem Kept.movedOn (h : Kept {} dead s) (hr : r ∈ s.records) (hp : ¬ dead c.partner) :
    Kept {} dead (movedOn c s r) := by
  unfold Proofs.movedOn
  dsimp only
  split
  · next hc =>
    have ho : r.offered.has c = true := by simp_all
    have hs := offered_of_has (h.fair_mem hr).1 ho
    have hd := draft_of_fair (h.fair_mem hr) (.inr hs)
    obtain ⟨hk, -, huniq⟩ := h.unoffer hr (.inr hs) c
    refine Kept.of_face ?_ (face_withdrawFrom ..)
    split
    · next hboth =>
      exact hk.fasten rfl fun q hq e => by
        rw [huniq q hq e]
        exact ⟨hd.channel, hd.still_offered hs hboth (partner_ne c)⟩
    · exact hk.offerTo hp (fun q hq e => by rw [huniq q hq e]; exact hd.unoffered c) fun i hi => (Option.some.inj hi).symm
  · exact h

theorem Good.takeHandover (h : Good s) (hd : (s.centre c).duty = .active) (hp : s.usable c.partner = true) :
    Good (s.takeHandover c) := by
  obtain ⟨hph, hpd⟩ := usable_iff.mp hp
  let u := (s.setDuty c .handingOver).reply c.link Command.handoverRequest .ok []
  have hu : Kept {} (lostIn s) u := (h.kept.setDuty c _).of_face (face_reply ..)
  have hv : Kept {} (lostIn s) (u.eachRecord (movedOn c)) :=
    hu.eachRecord fun x r hx hr => hx.movedOn hr (h.kept.not_dead hph)
  have hoff : Offers u (u.eachRecord (movedOn c)) := .eachRecord u (offers_movedOn c)
  have hcen : ∀ d, (u.eachRecord (movedOn c)).centre d =
      if d = c then { s.centre c with duty := .handingOver } else s.centre d := fun d => by
    rw [hoff.centre, centre_of_face (face_reply ..), centre_setDuty]
  have hpar : (u.eachRecord (movedOn c)).centre c.partner = s.centre c.partner := by rw [hcen, if_neg (partner_ne c)]
  have hall : ∀ d, d ≠ c → d = c.partner := fun d e => by
    cases c <;> cases d <;> first | exact absurd rfl e | rfl
  have hup : (u.eachRecord (movedOn c)).usable c.partner = true := by
    rw [usable_iff, hpar]
    exact ⟨hph, hpd⟩
  refine Good.of_calls ((Calls.refl s).takeHandover c) (by rw [takeHandover_turns]; exact hv.checkHandover c) ?_
  rw [takeHandover_turns]
  refine invDuty_checkHandover (fun d hne => ?_) (fun d hh => ?_) (fun d h1 h2 _ => ?_)
  · by_cases e : d = c
    · rw [e, hpar]; exact hpd
    · rw [hall d e, hpar] at hne
      exact absurd hpd hne
  · by_cases e : d = c
    · subst e
      refine ⟨fun k => absurd rfl k, ?_⟩
      rw [hpar]
      intro k
      rw [k] at hph
      cases hph
    · rw [hall d e, hpar, hpd] at hh
      cases hh
  · by_cases e : d = c
    · rw [e, hup] at h2; cases h2
    · rw [hall d e, hup] at h1; cases h1

theorem Good.handoverRequest (h : Good s) : Good (s.handoverRequest c) := by
  have hno := fun code => h.of_face (face_refuse s c.link Command.handoverRequest code)
  unfold State.handoverRequest
  dsimp only
  split
  · exact hno _
  · exact hno _
  · next hd =>
    split
    · next hp => exact h.takeHandover hd hp
    · exact hno _

theorem Duties.activate (h : Duties s) (c : Centre) : Duties (s.setDuty c .active) := by
  have hcl : ∀ d, (s.setDuty c .active).claimsAny d = s.claimsAny d :=
    claimsAny_of_calls (congrArg Ledger.calls (ledger_setDuty ..))
  have hact : ∀ d, (s.centre d).duty = .active → ((s.setDuty c .active).centre d).duty = .active := fun d hd => by
    rw [centre_setDuty]
    split
    · rfl
    · exact hd
  have hh : ∀ d, ((s.setDuty c .active).centre d).health = (s.centre d).health := fun d => by
    rw [centre_setDuty]
    split
    · next e => rw [e]
    · rfl
  have hkept : ∀ d, ((s.setDuty c .active).centre d).duty ≠ .active →
      ((s.setDuty c .active).centre d).duty = (s.centre d).duty := fun d hd => by
    rw [centre_setDuty] at hd ⊢
    split at hd
    · exact absurd rfl hd
    · next e => rw [if_neg e]
  refine ⟨fun d hd => hact _ (h.one d (hkept d hd ▸ hd)), fun d hd => ?_⟩
  rw [hcl, hh]
  exact h.handing d (hkept d (by rw [hd]; nofun) ▸ hd)

theorem Good.resumeDuty (h : Good s) : Good (s.resumeDuty c) := by
  unfold State.resumeDuty
  split
  · exact h.of_face (face_refuse ..)
  · exact h.of_face (face_reply ..)
  · dsimp only
    have hk : Kept {} (lostIn s) ((s.setDuty c .active).reply c.link Command.resume .ok []) :=
      (h.kept.setDuty c _).of_face (face_reply ..)
    have hd : Duties ((s.setDuty c .active).reply c.link Command.resume .ok []) :=
      (((invDuty_iff s).mp h.duty).1.activate c).of_offers (.of_face (face_reply ..))
    have hc : Calls s ((s.setDuty c .active).reply c.link Command.resume .ok []) :=
      ((Calls.refl s).setDuty c _).reply _ _ _ _
    generalize (s.setDuty c .active).reply c.link Command.resume .ok [] = u at *
    split
    · next hu =>
      exact Good.of_calls (hc.becomeUsable c).fallback ((hk.becomeUsable (hk.usable_not_dead hu)).fallback)
        (invDuty_fallback (hd.of_offers (offers_becomeUsable u c)))
    · exact Good.of_calls hc.fallback hk.fallback (invDuty_fallback hd)

end

end Sys2Proof.Proofs

/-! PROOFS. The starts leave the register, the channel table and the duties in order (R102, R135, R170, R174, R175). -/

namespace Sys2Proof.Proofs

open Sys2Proof Sys2Proof.Machine

section

variable {s t : State} {xs : List AbandonedEntry} {e : AbandonedEntry} {k : CallId}

/-! ### The abandoned list of a warm restart -/

/-- An abandoned list that the invariant allows (R84, R95). -/
structure Neat (xs : List AbandonedEntry) : Prop where
  room : xs.length ≤ 16
  ids : (xs.map (·.id)).Nodup
  nonzero : ∀ e ∈ xs, e.id ≠ 0

theorem abandonedWith_ids (xs : List AbandonedEntry) (e : AbandonedEntry) :
    ∃ ys, ys.Sublist xs ∧ (xs.length ≤ 16 → ys.length < 16) ∧ abandonedWith xs e = ys ++ [e] := by
  unfold abandonedWith
  split
  · next h => exact ⟨xs, .refl _, fun _ => h, rfl⟩
  · exact ⟨xs.tail, List.tail_sublist xs, fun h => by rw [List.length_tail]; omega, rfl⟩

theorem Neat.abandonedWith (h : Neat xs) (hid : e.id ∉ xs.map (·.id)) (hz : e.id ≠ 0) : Neat (abandonedWith xs e) := by
  obtain ⟨ys, hys, hlen, heq⟩ := abandonedWith_ids xs e
  rw [heq]
  refine ⟨?_, ?_, fun x hx => ?_⟩
  · have := hlen h.room
    simpa using this
  · rw [List.map_append, List.nodup_append]
    refine ⟨h.ids.sublist (hys.map _), by simp, ?_⟩
    rintro a ha b hb rfl
    rw [List.map_singleton, List.mem_singleton] at hb
    exact hid (hb ▸ (hys.map _).subset ha)
  · obtain hx | hx := List.mem_append.mp hx
    · exact h.nonzero x (hys.subset hx)
    · rw [List.mem_singleton.mp hx]
      exact hz

theorem Neat.foldl_abandonedWith (h : Neat xs) {ys : List AbandonedEntry}
    (hids : (ys.map (·.id) ++ xs.map (·.id)).Nodup) (hz : ∀ e ∈ ys, e.id ≠ 0) : Neat (ys.foldl Machine.abandonedWith xs) := by
  induction ys generalizing xs with
  | nil => exact h
  | cons y ys ih =>
    rw [List.map_cons, List.cons_append, List.nodup_cons, List.mem_append, not_or] at hids
    obtain ⟨⟨hy, hx⟩, hnd⟩ := hids
    refine ih (h.abandonedWith hx (hz y List.mem_cons_self)) ?_ fun e he => hz e (List.mem_cons_of_mem _ he)
    obtain ⟨zs, hzs, -, heq⟩ := abandonedWith_ids xs y
    rw [heq, List.map_append, ← List.append_assoc, List.nodup_append]
    refine ⟨hnd.sublist ((List.Sublist.refl _).append (hzs.map _)), by simp, ?_⟩
    rintro a ha b hb rfl
    rw [List.map_singleton, List.mem_singleton] at hb
    subst hb
    obtain ha | ha := List.mem_append.mp ha
    · exact hy ha
    · exact hx ((hzs.map _).subset ha)

theorem length_abandonedWith (h : xs.length ≤ 16) : (Machine.abandonedWith xs e).length = min 16 (xs.length + 1) := by
  unfold Machine.abandonedWith
  split <;> simp <;> omega

theorem Neat.foldl_entered (h : Neat xs) (hk : k ≠ 0) (q : List OverflowEntry) :
    Neat (q.foldl (entered s) (xs, k)).1 ∧
    (q.foldl (entered s) (xs, k)).1.length = min 16 (xs.length + q.length) := by
  induction q generalizing xs k with
  | nil => exact ⟨h, by simpa using h.room⟩
  | cons e q ih =>
    have hlen : (xs.map (·.id)).length < 255 := by
      have := h.room
      rw [List.length_map]
      omega
    have hfree : (s.overflowLeft e (issuedId (xs.map (·.id)) k)).id ∉ xs.map (·.id) := issuedId_not_mem k hlen
    have hn := h.abandonedWith hfree (issuedId_ne_zero _ hk)
    obtain ⟨h1, h2⟩ := ih hn (nextCandidate_ne (issuedId_ne_zero (xs.map (·.id)) hk))
    refine ⟨h1, h2.trans ?_⟩
    rw [length_abandonedWith h.room, List.length_cons]
    omega

theorem leftCalls_ids (s : State) : (leftCalls s).map (·.id) = (s.registerOrder.filter (·.state.unclaimed)).map (·.id) := by
  unfold leftCalls
  rw [List.map_map]
  rfl

theorem neat_abandonedAtRestart (h : InvIds s) : Neat (abandonedAtRestart s) ∧
    (abandonedAtRestart s).length = min 16 (s.abandoned.length + (leftCalls s).length + s.overflow.length) := by
  obtain ⟨-, hleft, -, hids, hcid, hlid, hcount, -⟩ := h
  rw [Config.abandonedCapacity] at hleft
  have hsub : ((leftCalls s).map (·.id)).Subperm (s.records.map (·.id)) := by
    rw [leftCalls_ids]
    exact (List.filter_sublist.map _).subperm.trans ((registerOrder_perm s).map _).subperm
  have hn : Neat s.abandoned := ⟨hleft, (List.nodup_append.mp hids).2.1, hlid⟩
  have hl := hn.foldl_abandonedWith (ys := leftCalls s) ?_ fun e he => ?_
  · obtain ⟨h1, h2⟩ := hl.foldl_entered (s := s) hcount s.overflow
    refine ⟨h1, h2.trans ?_⟩
    rw [foldl_abandonedWith_length _ _ hleft]
    omega
  · obtain ⟨l, hperm, hsub⟩ := hsub
    rw [List.nodup_append] at hids ⊢
    exact ⟨hperm.nodup_iff.mp (hids.1.sublist hsub), hids.2.1, fun a ha b hb =>
      hids.2.2 a (hsub.subset (hperm.mem_iff.mpr ha)) b hb⟩
  · obtain ⟨r, hr, rfl⟩ := List.mem_map.mp he
    exact hcid r ((registerOrder_perm s).mem_iff.mp (List.mem_filter.mp hr).1)

/-! ### A state with nothing in the register -/

/-- Nothing is in the register, every channel is free, every line is in a plain condition, and both links are as a start
leaves them. -/
theorem Good.fresh (hrec : t.records = []) (hq : t.overflow = []) (hch : ∀ ch, t.channel ch = .free)
    (hplain : ∀ n, Plain' (t.line n).condition) (hn : Neat t.abandoned) (hc : t.idCounter ≠ 0)
    (ho : t.overflowed = true → t.abandoned ≠ []) (clock : Nat) (hcen : ∀ c, t.centre c = .initial clock) : Good t := by
  have hduty : ∀ c, (t.centre c).duty = .active := fun c => by rw [hcen]; rfl
  have hlive : ∀ c, ¬ lostIn t c := fun c k => by
    unfold lostIn at k
    rw [hcen] at k
    cases k
  have hcalls : (ledger t).calls = [] := by
    show t.records.map stakeOf = []
    rw [hrec]
    rfl
  have hqueue : (ledger t).queue = [] := by
    show t.overflow.map (·.line) = []
    rw [hq]
    rfl
  refine ⟨⟨?_, fun r hr => (by rw [hrec] at hr; cases hr), fun ch n c h => (by rw [hch] at h; cases h),
    fun c k => k⟩, (invDuty_iff t).mpr ⟨⟨fun c k => absurd (hduty c) k, fun c k => ?_⟩, fun c _ _ k => ?_⟩⟩
  · exact
      { room := by simp [hcalls]
        leftRoom := by simpa [ledger] using hn.room
        full := fun k => absurd hqueue k
        ids := by rw [hcalls]; exact hn.ids
        callId := fun x hx => by rw [hcalls] at hx; cases hx
        leftId := fun i hi => by obtain ⟨e, he, rfl⟩ := List.mem_map.mp hi; exact hn.nonzero e he
        counter := hc
        overflowed := fun k => by simpa [ledger] using ho k
        lines := by rw [hcalls, hqueue]; exact List.nodup_nil
        inCall := fun n _ => by rw [hcalls]; exact iff_of_false (hplain n).1 List.not_mem_nil
        queued := fun n _ => by rw [hqueue]; exact iff_of_false (hplain n).2.1 List.not_mem_nil
        vacant := nofun
        reserved := fun ch n c k => by rw [show (ledger t).channel ch = .free from hch ch] at k; cases k
        connected := fun ch n c i k => by rw [show (ledger t).channel ch = .free from hch ch] at k; cases k
        held := fun x hx => by rw [hcalls] at hx; cases hx
        rings := fun n _ y hy => by rw [show ((ledger t).condition n).ring? = none from (hplain n).2.2] at hy; cases hy }
  · rw [hduty] at k; cases k
  · rw [hduty] at k; cases k

theorem plain_fromDirectory (s : State) (n : LineId) : Plain' (s.conditionFromDirectory n) := by
  unfold State.conditionFromDirectory
  split
  · exact plain_notFitted
  · split
    · exact plain_idle
    · exact plain_outOfService

theorem good_warmRestart (h : InvIds s) : Good s.warmRestart := by
  obtain ⟨hk, -, hcen, hlines, -, -, hab⟩ := restarted_warmRestart s
  obtain ⟨hover, hlist⟩ := hab h
  obtain ⟨hneat, hlen⟩ := neat_abandonedAtRestart h
  have hids : (s.warmRestart.abandoned).map (·.id) = (abandonedAtRestart s).map (·.id) := by
    rw [hlist, List.map_map]
    rfl
  refine Good.fresh (clock := s.clock) (by rw [hk]) (by rw [hk]) (fun ch => ?_) (fun n => ?_)
    ⟨?_, ?_, fun e he => ?_⟩ (by rw [hk]; exact one_ne_zero) (fun k => ?_) hcen
  · rw [hk]
    exact Vector.getElem_replicate ..
  · rw [hlines]
    exact plain_fromDirectory s n
  · rw [hlist, List.length_map]
    exact hneat.room
  · rw [hids]
    exact hneat.ids
  · have : e.id ∈ (abandonedAtRestart s).map (·.id) := hids ▸ List.mem_map_of_mem he
    obtain ⟨e', he', heq⟩ := List.mem_map.mp this
    exact heq ▸ hneat.nonzero e' he'
  · rw [hover, Bool.or_eq_true, decide_eq_true_iff] at k
    have hne : (abandonedAtRestart s).length ≠ 0 := by
      obtain ⟨-, -, -, -, -, -, -, ho⟩ := h
      obtain k | k := k
      · have := List.length_pos_iff.mpr (ho k)
        omega
      · omega
    intro e
    rw [hlist, List.map_eq_nil_iff] at e
    exact hne (by rw [e]; rfl)

theorem good_coldStart (s : State) (m b k : Bool) : Good (s.coldStart m b k) :=
  Good.fresh rfl rfl (fun ch => Vector.getElem_replicate ..)
    (fun n => by
      show Plain' ((Vector.replicate 64 ({ condition := .notFitted, tone := .none } : LineUnit))[n]).condition
      rw [show (Vector.replicate 64 ({ condition := .notFitted, tone := .none } : LineUnit))[n] = _ from
        Vector.getElem_replicate ..]
      exact plain_notFitted)
    ⟨Nat.zero_le _, List.nodup_nil, nofun⟩ one_ne_zero nofun 0 fun c => by cases c <;> rfl

end

end Sys2Proof.Proofs

/-! PROOFS. The link controllers keep the register, the channel table and the duties in order: health, loss and recovery
(R120, R121, R152 to R156). -/

namespace Sys2Proof.Proofs

open Sys2Proof Sys2Proof.Machine

section

variable {s t u : State} {o : Loose} {dead : Centre → Prop} {r q : CallRecord} {id : CallId} {c : Centre} {k : CentreControl}

/-! ### A state whose last change of health is not handed on yet -/

/-- Good but for the standby fall-back. -/
structure Sane (s : State) : Prop where
  kept : Kept {} (lostIn s) s
  duties : Duties s

theorem Good.sane (h : Good s) : Sane s := ⟨h.kept, ((invDuty_iff s).mp h.duty).1⟩

theorem Sane.of_face (h : Sane s) (hf : face t = face s) : Sane t := by
  refine ⟨?_, h.duties.of_offers (.of_face hf)⟩
  rw [lostIn_congr (centre_of_face hf)]
  exact h.kept.of_face hf

theorem ledger_setCentre (s : State) (c : Centre) (k : CentreControl) : ledger (s.setCentre c k) = ledger s := by
  cases c <;> rfl

theorem Kept.setCentre (h : Kept o dead s) (hk : dead c → k.health = .lost) : Kept o dead (s.setCentre c k) where
  sound := ledger_setCentre s c k ▸ h.sound
  fair := by cases c <;> exact h.fair
  rung := by cases c <;> exact h.rung
  lost e he := by
    rw [State.setCentre_centre]
    split
    · next hc => exact hk (hc ▸ he)
    · exact h.lost e he

/-- A centre link's control changes, its duty apart, and the link does not become LOST. -/
theorem Sane.setCentre (h : Sane s) (hd : k.duty = (s.centre c).duty)
    (hk : k.health = .lost → (s.centre c).health = .lost) : Sane (s.setCentre c k) := by
  have hlost : ∀ d, lostIn (s.setCentre c k) d → lostIn s d := fun d e => by
    unfold lostIn at e ⊢
    rw [State.setCentre_centre] at e
    split at e
    · next hc => exact hc ▸ hk e
    · exact e
  have hduty : ∀ d, ((s.setCentre c k).centre d).duty = (s.centre d).duty := fun d => by
    rw [State.setCentre_centre]
    split
    · next hc => rw [hc, hd]
    · rfl
  refine ⟨(h.kept.mono hlost).setCentre fun e => ?_, fun d => ?_, fun d hh => ?_⟩
  · unfold lostIn at e
    rw [State.setCentre_centre, if_pos rfl] at e
    exact e
  · rw [hduty, hduty]
    exact h.duties.one d
  · rw [hduty] at hh
    obtain ⟨h1, h2⟩ := h.duties.handing d hh
    refine ⟨by rw [claimsAny_of_calls (congrArg Ledger.calls (ledger_setCentre ..))]; exact h1, fun e => h2 ?_⟩
    exact hlost _ e

theorem Sane.healthChanged {old : Health} (h : Sane s) (hr : (s.centre c).health = old → Rested s) :
    Good (s.healthChanged c old) :=
  Good.of_calls ((Calls.refl s).healthChanged c old) (h.kept.healthChanged c old) (invDuty_healthChanged h.duties hr)

/-- The same health and duty leave the state good. -/
theorem Good.setCentre (h : Good s) (hd : k.duty = (s.centre c).duty) (hk : k.health = (s.centre c).health) :
    Good (s.setCentre c k) := by
  have hh : ∀ d, ((s.setCentre c k).centre d).health = (s.centre d).health := fun d => by
    rw [State.setCentre_centre]
    split
    · next hc => rw [hc, hk]
    · rfl
  have hduty : ∀ d, ((s.setCentre c k).centre d).duty = (s.centre d).duty := fun d => by
    rw [State.setCentre_centre]
    split
    · next hc => rw [hc, hd]
    · rfl
  refine Good.of hh (h.kept.setCentre fun e => hk.trans e) ?_
  exact invDuty_congr (claimsAny_of_calls (congrArg Ledger.calls (ledger_setCentre ..))) hh hduty h.duty

/-- A score short of 256 is taken. -/
theorem Good.takeScore (h : Good s) {score : Nat} (hs : score < 256) : Good (s.takeScore c score) := by
  unfold State.takeScore
  have hne : healthOf score ≠ .lost := by
    unfold healthOf
    rw [Config.lostScore, if_pos hs]
    split
    · nofun
    · split
      · nofun
      · nofun
  have hu : Sane (s.setCentre c { s.centre c with score := score, health := healthOf score }) :=
    h.sane.setCentre rfl fun e => absurd e hne
  refine hu.healthChanged fun e d h1 h2 h3 => ?_
  have hg : Good (s.setCentre c { s.centre c with score := score, health := healthOf score }) := by
    refine h.setCentre rfl (Eq.trans ?_ e)
    rw [State.setCentre_centre, if_pos rfl]
  exact ((invDuty_iff _).mp hg.duty).2 d h1 h2 h3

/-! ### Valid and bad frames -/

theorem score_lt (h : InvLinks s) (hl : (s.centre c).health ≠ .lost) : (s.centre c).score < 256 := by
  obtain ⟨-, -, -, ha, hb, -, -⟩ := h
  have hsound : (s.centre c).Sound := by cases c <;> assumption
  obtain ⟨-, hhealth, -⟩ := hsound
  by_contra hge
  refine hl (hhealth.trans ?_)
  unfold healthOf
  rw [Config.lostScore, if_neg (by omega), if_neg (by omega), if_neg (by omega)]

theorem Good.startSilence (h : Good s) (c : Centre) : Good (s.startSilence c) := h.setCentre rfl rfl

theorem Good.recover (h : Good s) (c : Centre) : Good (s.recover c) := by
  unfold State.recover
  dsimp only
  have h1 : Sane (s.setCentre c { s.centre c with score := 0, health := .good, recovery := 0 }) :=
    h.sane.setCentre rfl nofun
  have h2 : Sane ((s.setCentre c { s.centre c with score := 0, health := .good, recovery := 0 }).startSilence c) :=
    h1.setCentre rfl fun e => e
  refine (h2.of_face (face_setLink ..)).healthChanged fun e => ?_
  rw [centre_of_face (face_setLink ..), State.startSilence, State.setCentre_centre, if_pos rfl] at e
  simp only [State.setCentre_centre, if_true] at e
  cases e

theorem Good.validFrame (h : Good s) (hi : InvLinks s) (c : Centre) : Good (s.validFrame c) := by
  unfold State.validFrame
  dsimp only
  split
  · split
    · exact h.recover c
    · exact h.setCentre rfl rfl
  · next hl =>
    have := score_lt hi hl
    exact (h.startSilence c).takeScore (by omega)

theorem Good.deliverReport (h : Good s) (l : Link) : Good (s.deliverReport l) := by
  have hu : Good (s.setReportPending l false) := h.of_face (by cases l <;> rfl)
  unfold State.deliverReport
  split
  · dsimp only
    split
    · exact hu.of_face (face_notify ..)
    · exact hu
  · exact h

theorem Good.setReceive (h : Good s) (l : Link) (x : Receive) : Good (s.setReceive l x) := h.of_face (face_setLink ..)

theorem Good.arrive (h : Good s) (hi : InvLinks s) (l : Link) : Good (s.arrive l) := by
  refine Good.deliverReport ?_ l
  unfold State.onCentre
  split
  · exact (h.setReceive l _).validFrame (invLinks_setReceive hi l _) _
  · exact h.setReceive l _

/-! ### The loss of a link -/

theorem Kept.cancelRings (h : Kept {} dead s) (c : Centre) : Kept {} dead (s.cancelRings c) := by
  refine h.each _ fun u n hu _ => ?_
  split
  · next hn =>
    split
    · exact hu.stopRing (by rw [hn]; rfl)
    · exact hu
  · exact hu

theorem Kept.loseDuty (h : Kept {} dead s) (c : Centre) : Kept {} dead (s.loseDuty c) := by
  unfold State.loseDuty
  dsimp only
  have h1 : Kept {} dead (if (s.centre c).duty = .handingOver then s.setDuty c .standby else s) := by
    split
    · exact h.setDuty c _
    · exact h
  generalize (if (s.centre c).duty = .handingOver then s.setDuty c .standby else s) = u at h1 ⊢
  have h2 : Kept {} dead ((u.setDuty c.partner .active).notify c.partner.link .handoverCancelled) :=
    (h1.setDuty c.partner _).of_face (face_notify ..)
  split
  · split
    · next hp => exact h2.becomeUsable (h2.usable_not_dead hp)
    · exact h2
  · exact h1

/-- The record that has lost its claimant. -/
def orphanOf (r : CallRecord) : CallRecord :=
  { r with
    channel := none, claimant := none, longTimer := none, longWaits := false, offered := .empty
    flags := { r.flags with orphan := true } }

theorem draft_orphanOf (h : Fair dead r) (hc : r.claimant = some c) : Draft dead (orphanOf r) := by
  obtain ⟨⟨hcl, -, -, -, -, htr, hloc, hcap, -⟩, -⟩ := h
  have hs := hcl.mp (by rw [hc]; rfl)
  have hi : r.state ≠ .identifying := by obtain e | e := hs <;> rw [e] <;> exact nofun
  exact ⟨rfl, rfl, ⟨rfl, rfl⟩, htr, fun e => hi (hloc.mp e), fun e => hi (hcap.mp e), fun d _ => empty_has d⟩

theorem Kept.orphan (h : Kept {} dead s) (hr : r ∈ s.records) (hc : r.claimant = some c) :
    Kept {} dead (s.orphan r c) := by
  obtain ⟨hrec, -, -⟩ := freeHeld_keeps s r.channel
  have hl := h.loosen hr rfl
  let u := (s.freeHeld r.channel).updRecord r.id orphanOf
  have hk : Kept { ({} : Loose) with call := some r.id } dead u :=
    hl.updLoose (g := fun x => { x with holder := none, channel := none }) rfl (fun _ => rfl) (fun _ => rfl) fun _ => rfl
  have hm : orphanOf r ∈ u.records := mem_updRecord_self (hrec ▸ hr)
  refine Kept.offerOrWait (r := orphanOf r) hk (fun q hq e => ?_) (fun i hi => (Option.some.inj hi).symm) (hk.recordById hm)
  rw [eq_of_mem_updRecord hl (hrec ▸ hr) hq e]
  exact draft_orphanOf (h.fair_mem hr) hc

/-- A record that is offered still. -/
theorem Draft.settled (h : Draft dead r) (hs : r.state = .offered) (ho : r.offered ≠ .empty) : Fair dead r := by
  refine ⟨⟨by simp [h.claimant, hs], by simp [h.channel, hs], by simp [hs, ho], fun e => ?_, fun _ => h.long, h.transfer,
    by simp [hs, h.location], by simp [hs, h.capture], by simp [hs]⟩, fun d hd => ⟨?_, h.offered d hd⟩⟩
  · rw [h.claimant] at e; cases e
  · rw [h.claimant]; nofun

/-- Everything is in order but, it may be, for a record that is OFFERED to none. -/
structure Adrift (dead : Centre → Prop) (id : CallId) (s : State) : Prop where
  kept : ∃ x : Option CallId, Kept { ({} : Loose) with call := x } dead s ∧ ∀ i, x = some i → i = id
  draft : ∀ q ∈ s.records, q.id = id → Draft dead q ∧ q.state = .offered

theorem Adrift.offerTo (h : Adrift dead id s) (hc : ¬ dead c) : Adrift dead id (s.offerTo id c) := by
  obtain ⟨x, hk, hx⟩ := h.kept
  have ho : Kept {} dead (s.offerTo id c) := hk.offerTo hc (fun q hq e => (h.draft q hq e).1) hx
  refine ⟨⟨none, ho, nofun⟩, fun q hq e => ?_⟩
  have hs : q.state = .offered := by
    cases hid : s.recordById id with
    | none =>
      rw [State.offerTo, hid] at hq
      have := List.find?_eq_none.mp hid q hq
      simp [e] at this
    | some p => exact state_offerTo hid hq e
  exact ⟨draft_of_fair (ho.fair_mem hq) (.inr hs), hs⟩

theorem Adrift.transferTimedOut (h : Adrift dead r.id s) : Adrift dead r.id (s.transferTimedOut r) := by
  unfold State.transferTimedOut
  split
  · split
    · next hc =>
      refine h.offerTo fun hk => ?_
      obtain ⟨x, hkept, -⟩ := h.kept
      rw [hkept.lost _ hk] at hc
      simp at hc
    · exact h
  · exact h

/-- The record goes to the partner, or waits, or is offered still. -/
theorem Adrift.rehomed (h : Adrift dead id s) (c : Centre) : Kept {} dead (rehomed s id c) := by
  obtain ⟨x, hk, hx⟩ := h.kept
  have hsettle : (∀ p ∈ s.records, p.id = id → p.offered ≠ .empty) → Kept {} dead s := fun hne => by
    cases x with
    | none => exact hk
    | some i =>
      obtain rfl := hx i rfl
      refine hk.fasten rfl fun p hp e => ?_
      obtain ⟨hd, hs⟩ := h.draft p hp e
      exact ⟨hd.channel, hd.settled hs (hne p hp e)⟩
  unfold Proofs.rehomed
  split
  · next p hp =>
    split
    · rw [(mem_of_recordById hp).2]
      exact hk.offerOrWait (fun q hq e => (h.draft q hq e).1) hx hp
    · next hne =>
      obtain ⟨hm, hid⟩ := mem_of_recordById hp
      exact hsettle fun q hq e => by rwa [hk.unique hq hm (e.trans hid.symm)]
  · next hnone =>
    refine hsettle fun p hp e => ?_
    have := List.find?_eq_none.mp hnone p hp
    simp [e] at this

/-- A record that was offered to the lost link. -/
theorem Kept.loseOffer (h : Kept {} dead s) (hq : q ∈ s.records) (e : q.id = r.id) (hs : q.state = .offered) (c : Centre) :
    Kept {} dead (s.loseOffer r c) := by
  have hd := draft_of_fair (h.fair_mem hq) (.inr hs)
  let u := s.updRecord q.id fun p => { p with offered := p.offered.remove c }
  obtain ⟨hu, -, huniq⟩ := h.unoffer hq (.inr hs) c
  have hau : Adrift dead q.id u := ⟨⟨some q.id, hu, fun i hi => (Option.some.inj hi).symm⟩, fun p hp ep => by
    rw [huniq p hp ep]
    exact ⟨hd.unoffered c, hs⟩⟩
  let v := u.updRecord q.id fun p => { p with transferTimer := none }
  have hav : Adrift dead q.id v := by
    refine ⟨⟨some q.id, hu.updLoose (g := fun x => x) rfl (fun _ => rfl) (fun _ => rfl) fun _ => rfl,
      fun i hi => (Option.some.inj hi).symm⟩, fun p hp ep => ?_⟩
    obtain ⟨p', hp', ep', rfl⟩ | ⟨-, hne⟩ := mem_updRecord hp
    · obtain ⟨hdp, hsp⟩ := hau.draft p' hp' ep'
      exact ⟨⟨hdp.claimant, hdp.channel, hdp.long, nofun, hdp.location, hdp.capture, hdp.offered⟩, hsp⟩
    · exact absurd ep hne
  rw [loseOffer_eq, ← e]
  dsimp only
  refine Adrift.rehomed ?_ c
  split
  · split
    · next p hp =>
      obtain ⟨-, hid⟩ := mem_of_recordById hp
      have ht : Adrift dead p.id (v.transferTimedOut p) := Adrift.transferTimedOut (by rw [hid]; exact hav)
      rw [hid] at ht
      exact ht
    · exact hav
  · exact hau

/-- The record whose transfer origin is lost. -/
theorem fair_originLost (h : Fair dead r) (hu : r.state.unclaimed = true) : Fair dead (originLost r) := by
  obtain ⟨⟨hcl, hch, hof, hcd, hun, htr, hloc, hcap, hid⟩, hd⟩ := h
  have hnone : r.claimant = none := (sound_unclaimed_iff ⟨hcl, hch, hof, hcd, hun, htr, hloc, hcap, hid⟩).mpr hu
  refine ⟨⟨hcl, hch, hof, fun e => ?_, hun, nofun, hloc, hcap, fun e => ⟨(hid e).1, (hid e).2.1, rfl⟩⟩, hd⟩
  rw [show (originLost r).claimant = none from hnone] at e
  cases e

theorem Kept.loseUnclaimed (h : Kept {} dead s) (hr : r ∈ s.records) (hu : r.state.unclaimed = true) (c : Centre) :
    Kept {} dead (s.loseUnclaimed r c) := by
  have hst : r.offered.has c = true → r.state = .offered := offered_of_has (h.fair_mem hr).1
  have hlose : ∀ u : State, Kept {} dead u → ∀ q ∈ u.records, q.id = r.id → q.state = r.state →
      Kept {} dead (if r.offered.has c then u.loseOffer r c else u) := fun u hk q hq e hs => by
    split
    · next ho => exact hk.loseOffer hq e (hs.trans (hst ho)) c
    · exact hk
  unfold State.loseUnclaimed
  dsimp only
  split
  · have hk : Kept {} dead (s.updRecord r.id originLost) := h.decorate rfl (fun _ => rfl) fun q hq e hf => by
      rw [h.unique hq hr e] at hf ⊢
      exact fair_originLost hf hu
    refine Kept.of_face ?_ (face_retone ..)
    have hv := hlose _ hk (originLost r) (mem_updRecord_self hr) rfl rfl
    split
    · exact hv.of_face (face_placeOffer ..)
    · exact hv
  · exact hlose _ h r hr rfl rfl

theorem Kept.lossOfLink (h : Kept {} dead s) (c : Centre) : Kept {} dead (s.lossOfLink c) := by
  unfold State.lossOfLink
  dsimp only
  refine Kept.eachRecord (Kept.eachRecord ((h.cancelRings c).loseDuty c).fallback fun u r hu hr => ?_) fun u r hu hr => ?_
  · split
    · next hc => exact hu.orphan hr hc
    · exact hu
  · split
    · next hs => exact hu.loseUnclaimed hr hs c
    · exact hu

/-! ### Entry into LOST -/

theorem cleared_self (h : s.orders = []) : ({ s with orders := [] } : State) = s :=
  congrArg (fun os => ({ s with orders := os } : State)) h.symm

theorem other_centre {d : Centre} (h : d ≠ c) : d = c.partner := by
  cases c <;> cases d <;> first | exact absurd rfl h | rfl

/-- What the loss of a link leaves of the links and their calls (R120, R124, R154). -/
structure Loss (s t : State) (c : Centre) : Prop where
  health : ∀ d, (t.centre d).health = if d = c then .lost else (s.centre d).health
  freed : ∀ r ∈ t.records, r.claimant ≠ some c ∧ r.offered.has c = false
  routed : t.channelsRouted c = 0
  duty : (t.centre c).duty = if (s.centre c).duty = .handingOver then .standby else (s.centre c).duty
  partner : (t.centre c.partner).duty =
    if (s.centre c.partner).duty = .handingOver || resumes s c.partner then .active else (s.centre c.partner).duty

theorem health_lostNow (s : State) (c d : Centre) :
    ((lostNow s c).centre d).health = if d = c then .lost else (s.centre d).health := by
  rw [lostNow, centre_of_face (face_setLink ..), State.setCentre_centre]
  split <;> rfl

theorem loss_enterLost (hids : InvIds s) (hcalls : InvCalls s) (hchan : InvChannels s) (ho : s.orders = [])
    (hsil : (s.centre c).silence.isSome = true) (hl : (s.centre c).health ≠ .lost) (hw : s.window ≠ some c.link) :
    Loss s (s.enterLost c) c := by
  obtain ⟨t, ht, -, -, -, -, -, -, -, hfree, -, hrouted, -, hdc, hdp, -⟩ :=
    lostLinkHoldsNoCall s c (.silenceTimerExpiry c) [] (.inl ⟨rfl, hsil⟩) hl hw hids hcalls hchan
  have hexec : exec (.silenceTimerExpiry c) s = .next (s.enterLost c) := by
    dsimp only [exec, execSilenceTimerExpiry, State.taking_eq]
    rw [cleared_self ho, if_pos hsil]
  rw [hexec] at ht
  obtain rfl := Host.Outcome.next.inj ht
  refine ⟨fun d => ?_, fun r hr => ⟨(hfree r hr).1, (hfree r hr).2.1⟩, hrouted, hdc, hdp⟩
  rw [enterLost_eq hl hw, ← health_lostNow]
  obtain ⟨x, e⟩ := ((Calls.refl (lostNow s c)).lossOfLink c).wired.centre d
  rw [e]

/-- The duties after a loss. -/
theorem Loss.invDuty (h : Loss s t c) (hs : Duties s) : InvDuty t := by
  have hcases : ∀ d, d = c ∨ d = c.partner := fun d => or_iff_not_imp_left.mpr other_centre
  have hlost : (t.centre c).health = .lost := by rw [h.health, if_pos rfl]
  have hpartner : (t.centre c.partner).health = (s.centre c.partner).health := by rw [h.health, if_neg (partner_ne c)]
  refine (invDuty_iff t).mpr ⟨⟨fun d hd => ?_, fun d hd => ?_⟩, fun d _ _ hd => ?_⟩
  · obtain rfl | rfl := hcases d
    · rw [h.partner]
      split
      · rfl
      · refine hs.one _ fun e => hd ?_
        rw [h.duty, e]
        rfl
    · rw [partner_partner, h.duty]
      rw [h.partner] at hd
      split at hd
      · exact absurd rfl hd
      · have := hs.one _ hd
        rw [partner_partner] at this
        rw [this]
        rfl
  · exfalso
    obtain rfl | rfl := hcases d
    · rw [h.duty] at hd
      split at hd
      · cases hd
      · next hne => exact hne hd
    · rw [h.partner] at hd
      split at hd
      · cases hd
      · next hne => exact hne (by simp [hd])
  · obtain rfl | rfl := hcases d
    · rw [hlost]; rfl
    · rw [h.partner] at hd
      split at hd
      · cases hd
      · next hne =>
        rw [hpartner]
        simpa [resumes, hd] using hne

/-- A link becomes LOST, and what it held is gone; or its restart window ends with it (R120, R154, R165). -/
theorem Good.enterLost (h : Good s) (hi : InvLinks s) (ho : s.orders = []) (c : Centre) : Good (s.enterLost c) := by
  by_cases hl : (s.centre c).health = .lost
  · rw [State.enterLost, if_pos hl]
    exact h
  obtain ⟨hids, hcalls, hchan⟩ := h.kept.inv
  by_cases hw : s.window = some c.link
  · obtain ⟨z, hz, hzs⟩ := restarts_enterLost (Apart.fresh s s.orders) hw hl
    rw [show s.enterLost c = z.warmRestart from hz]
    obtain ⟨_, _, _, _, _, _, _, rfl⟩ := hzs
    exact good_warmRestart hids
  have hsil : (s.centre c).silence.isSome = true := by
    obtain ⟨-, -, -, ha, hb, -, -⟩ := hi
    have hsound : (s.centre c).Sound := by cases c <;> assumption
    obtain ⟨-, -, -, -, hsilence⟩ := hsound
    rw [Option.isSome_iff_ne_none]
    exact fun e => hl (hsilence.mpr e)
  have hloss := loss_enterLost hids hcalls hchan ho hsil hl hw
  have hk : Kept {} (lostIn s) (s.enterLost c) := by
    rw [enterLost_eq hl hw]
    exact ((h.kept.setCentre fun _ => rfl).of_face (face_setLink ..)).lossOfLink c
  refine ⟨⟨hk.sound, fun r hr hc => ⟨(hk.fair r hr hc).1, fun d hd => ?_⟩, fun ch n d hch hd => ?_, fun d hd => hd⟩,
    hloss.invDuty h.sane.duties⟩
  all_goals unfold lostIn at hd; rw [hloss.health] at hd; split at hd
  · next e => exact e ▸ hloss.freed r hr
  · exact (hk.fair r hr hc).2 d hd
  · next e =>
    have := (channelsRouted_eq_zero_iff _ c).mp hloss.routed ch
    rw [hch, e] at this
    simp [Channel.routedTo] at this
  · exact hk.rung ch n d hch hd

theorem Good.badFrame (h : Good s) (hi : InvLinks s) (ho : s.orders = []) (c : Centre) : Good (s.badFrame c) := by
  unfold State.badFrame
  dsimp only
  split
  · exact h.setCentre rfl rfl
  · split
    · exact h.enterLost hi ho c
    · next hs => exact h.takeScore (by rw [Config.lostScore] at hs; omega)

theorem Good.zeroRecovery (h : Good s) (c : Centre) : Good (s.zeroRecovery c) := by
  unfold State.zeroRecovery
  split
  · exact h.setCentre rfl rfl
  · exact h

/-! ### The transmitter -/

theorem Good.warmRestart (h : Good s) : Good s.warmRestart := good_warmRestart h.kept.inv.1

theorem Good.afterTransmission (h : Good s) (l : Link) (m : Message) : Good (s.afterTransmission l m) := by
  unfold State.afterTransmission
  split
  · exact h.warmRestart
  · exact h.of_face (face_setLink ..)

theorem Good.linkClear (h : Good s) (l : Link) : Good (s.linkClear l) := by
  have hu := fun k => h.of_face (face_setLink s l k)
  unfold State.linkClear
  dsimp only
  split
  · exact (hu _).afterTransmission l _
  · exact (hu _).of_face (face_setLink ..)

theorem Good.takeRestart (h : Good s) (l : Link) : Good (s.takeRestart l) := by
  have hu : Good { s.reply l Command.restart .ok [] with window := some l } :=
    (h.of_face (face_reply s l Command.restart .ok [])).of_face rfl
  unfold State.takeRestart
  dsimp only
  split
  · exact hu
  · exact hu.warmRestart

end

end Sys2Proof.Proofs

/-! PROOFS. The commands on lines, the settings, the load and the power state keep the register, the channel table and the
duties in order (R47 to R50, R70 to R76, R136 to R138, R168 to R173). -/

namespace Sys2Proof.Proofs

open Sys2Proof Sys2Proof.Machine

section

variable {s t u : State} {n : LineId} {g : GroupId} {k : Condition} {c : Centre} {l : Link}

/-! ### Lines -/

/-- Lines that change from a plain condition to another, one after the other. -/
theorem Good.eachPlain {f : State → LineId → State} (hf : ∀ u n, face (f u n) = face (u.setCondition n k))
    (hk : Plain' k) (xs : List LineId) (h : Good s) (hp : ∀ n ∈ xs, Plain' (s.line n).condition) :
    Good (s.each xs f) ∧ ∀ m, Plain' (s.line m).condition → Plain' ((s.each xs f).line m).condition := by
  induction xs generalizing s with
  | nil => exact ⟨h, fun _ hm => hm⟩
  | cons n xs ih =>
    have hone : ∀ m, Plain' (s.line m).condition → Plain' ((f s n).line m).condition := fun m hm => by
      have : ((f s n).line m).condition = ((s.setCondition n k).line m).condition :=
        congrFun (congrArg Face.condition (hf s n)) m
      rw [this, State.setCondition_line]
      split
      · exact hk
      · exact hm
    have hg : Good (f s n) := (h.setCondition (hp n List.mem_cons_self) hk).of_face (hf s n)
    obtain ⟨h1, h2⟩ := ih hg fun m hm => hone m (hp m (List.mem_cons_of_mem _ hm))
    exact ⟨h1, fun m hm => h2 m (hone m hm)⟩

theorem Good.refitLines (h : Good s) (f : Fin 9) (hb : s.refitBlocked g f = false)
    (hun : ∀ n : LineId, (s.group n.group).fitted.val ≤ n.pos.val → (s.line n).condition = .notFitted) :
    Good (s.refitLines g f) := by
  have hlose : ∀ n ∈ linesBetween g f.val (s.group g).fitted.val, Plain' (s.line n).condition := fun n hn => by
    have : (s.line n).condition = .outOfService := by
      by_contra hne
      rw [refitBlocked_iff.mpr ⟨n, mem_linesBetween.mp hn, hne⟩] at hb
      cases hb
    rw [this]
    exact plain_outOfService
  have hgain : ∀ n ∈ linesBetween g (s.group g).fitted.val f.val, Plain' (s.line n).condition := fun n hn => by
    obtain ⟨rfl, hlow, -⟩ := mem_linesBetween.mp hn
    rw [hun n hlow]
    exact plain_notFitted
  obtain ⟨h1, h2⟩ := Good.eachPlain (f := fun s n => s.setCondition n .notFitted) (fun _ _ => rfl) plain_notFitted _ h hlose
  exact (Good.eachPlain (f := gainFit) (fun _ _ => rfl) plain_outOfService _ h1 fun n hn => h2 n (hgain n hn)).1

theorem Good.writeSettings (h : Good s) (x : GroupSettings)
    (hun : ∀ n : LineId, (s.group n.group).fitted.val ≤ n.pos.val → (s.line n).condition = .notFitted) :
    Good (s.writeSettings l g x) := by
  unfold State.writeSettings
  split
  · exact h.of_face (face_refuse ..)
  · next hb =>
    split
    · let a := s.setGroup g { s.group g with settle := x.settle, pathCheck := x.pathCheck }
      have hfit : ∀ d, (a.group d).fitted = (s.group d).fitted := fun d => by
        rw [State.setGroup_group]
        split
        · next e => rw [e]
        · rfl
      have ha : Good a := h.of_face (face_setGroup ..)
      have hblock : a.refitBlocked g x.fitted = false := by
        rw [Bool.not_eq_true] at hb
        unfold State.refitBlocked at hb ⊢
        rw [hfit]
        exact hb
      unfold State.takeSettings
      dsimp only
      refine Good.of_face ?_ ((face_reply ..).trans (face_queueWrite ..))
      split
      · exact ha
      · exact (ha.refitLines x.fitted hblock fun n hn => hun n (by rw [← hfit]; exact hn)).of_face (face_refit ..)
    · exact h.of_face (face_refuse ..)

/-! ### Service and tests -/

theorem face_storeService (s : State) (n : LineId) (b : Bool) : face (s.storeService n b) = face s := face_queueWrite ..

theorem Good.serviceOut (h : Good s) (n : LineId) : Good (s.serviceOut l n) := by
  have hout : Plain' (s.line n).condition →
      Good (if s.canWrite (.line n) then s.takeOut l n else s.refuse l Command.setService .storeBusy) := fun hn => by
    split
    · have hr : Good (s.reply l Command.setService .ok []) := h.of_face (face_reply ..)
      have hc : ((s.reply l Command.setService .ok []).line n).condition = (s.line n).condition :=
        congrFun (congrArg Face.condition (face_reply s l Command.setService .ok [])) n
      exact ((hr.enter (hc.symm ▸ hn) plain_outOfService).of_face (face_storeService ..)).notifyCondition n
    · exact h.of_face (face_refuse ..)
  unfold State.serviceOut
  split
  · exact h.of_face (face_refuse ..)
  · exact h.of_face (face_reply ..)
  · next hc => exact hout (hc ▸ plain_idle)
  · next hc => exact hout (hc ▸ plain_fault _)
  · next hc => exact hout (hc ▸ plain_parked ..)
  all_goals exact h.of_face (face_reply ..)

theorem Good.serviceIn (h : Good s) (n : LineId) : Good (s.serviceIn l n) := by
  unfold State.serviceIn
  split
  case h_3 hc =>
    split
    · let r := ((s.reply l Command.setService .ok []).storeService n true).resetClassifier n
      have hf : face r = face s := (face_storeService ..).trans (face_reply ..)
      have hr : Good r := h.of_face hf
      have hn : Plain' (r.line n).condition := by
        rw [show (r.line n).condition = _ from congrFun (congrArg Face.condition hf) n]
        show Plain' (s.line n).condition
        rw [hc]
        exact plain_outOfService
      exact (hr.enter hn plain_idle).notifyCondition n
    · exact h.of_face (face_refuse ..)
  all_goals exact h.of_face (face_reply ..)

theorem plain_prior {p : PriorCondition} (h : k.prior? = some p) : Plain' k := by
  cases k with
  | idle => exact plain_idle
  | fault x => exact plain_fault x
  | outOfService => exact plain_outOfService
  | _ => cases h

theorem Good.testLine (h : Good s) (n : LineId) (kind : TestKind) : Good (s.testLine l n kind) := by
  unfold State.testLine
  split
  · exact h.of_face (face_reply ..)
  · next p hp =>
    split
    · exact h.of_face (face_reply ..)
    · split
      · exact h.of_face (face_refuse ..)
      · refine Good.of_face ?_ (face_arbitrate ..)
        unfold State.startTest
        dsimp only
        have hset : ∀ r, Good (((s.setTest n.group r).enter n (.testing p)).give (.hookSense n true)) := fun r =>
          ((h.of_face (face_setTest ..)).enter (plain_prior hp) (plain_testing p)).of_face (face_give ..)
        split
        · exact ((hset _).of_face (face_reply ..)).of_face (face_give ..)
        · exact (hset _).of_face (face_reply ..)

theorem Good.writeEntry (h : Good s) (n : LineId) (e : Entry) : Good (s.writeEntry l n e) := by
  unfold State.writeEntry
  dsimp only
  split
  · exact h.of_face (face_refuse ..)
  · split
    · refine h.of_face ?_
      unfold State.takeEntry
      dsimp only
      refine (face_reply ..).trans ((face_queueWrite ..).trans ?_)
      split <;> rfl
    · exact h.of_face (face_refuse ..)
  · exact h.of_face (face_refuse ..)

theorem Good.writeProfile (h : Good s) (p : ProfileId) (q : Profile) : Good (s.writeProfile l p q) := by
  unfold State.writeProfile
  dsimp only
  split
  · exact h.of_face (face_refuse ..)
  · split
    · exact h.of_face (face_refuse ..)
    · split
      · refine h.of_face ((face_reply ..).trans ((face_queueWrite ..).trans ?_))
        exact face_each (f := State.retrack) _ _ fun _ _ => rfl
      · exact h.of_face (face_refuse ..)

theorem Good.writeAcceptance (h : Good s) (i : Fin 4) (e : Acceptance) : Good (s.writeAcceptance l i e) := by
  unfold State.writeAcceptance
  split
  · exact h.of_face ((face_reply ..).trans ((face_queueWrite ..).trans rfl))
  · exact h.of_face (face_refuse ..)

theorem Good.writeTimers (h : Good s) (x : CallTimers) : Good (s.writeTimers l x) := by
  unfold State.writeTimers
  split
  · exact h.of_face ((face_reply ..).trans ((face_queueWrite ..).trans rfl))
  · exact h.of_face (face_refuse ..)

theorem Good.writeBearer (h : Good s) (b : Bearer) : Good (s.writeBearer l b) := by
  unfold State.writeBearer
  split
  · exact h.of_face ((face_reply ..).trans ((face_queueWrite ..).trans rfl))
  · exact h.of_face (face_refuse ..)

/-! ### The power state -/

theorem face_setInput (s : State) (i : Input) (x : InputState) : face (s.setInput i x) = face s := by cases i <;> rfl

theorem Good.formPower (h : Good s) : Good s.formPower := by
  unfold State.formPower
  dsimp only
  split
  · exact h
  · have hp : Good { s with power := powerOf s.mainsOk.taken s.batteryLow.taken } := h.of_face rfl
    split
    · exact (hp.of_face (face_notifyAll ..)).each _ fun u d hu => hu.endTest d _
    · exact hp.of_face (face_notifyAll ..)

theorem Good.endDebounce (h : Good s) (i : Input) : Good (s.endDebounce i) := by
  have hs := fun x => h.of_face (face_setInput s i x)
  unfold State.endDebounce
  dsimp only
  split
  · exact h
  · cases i
    · exact (hs _).formPower
    · exact (hs _).formPower
    · exact hs _

/-! ### The load -/

theorem ofNumber_line (k : Fin 80) (n : LineId) (h : Item.ofNumber k.val = .line n) : (Item.line n).number = k.val := by
  have hall : ∀ k : Fin 80, (match Item.ofNumber k.val with
      | .line m => decide ((Item.line m).number = k.val)
      | _ => true) = true := by decide
  have := hall k
  rw [h] at this
  exact of_decide_eq_true this

theorem Good.loadItem (h : Good s) (i : Item) (x : ItemContent)
    (hn : ∀ n, i = .line n → (s.line n).condition = .notFitted) : Good (s.loadItem i x) := by
  unfold State.loadItem
  split
  case h_6 n e =>
    unfold State.loadLine
    dsimp only
    let a := s.setEntry n (correctedEntry (s.group n.group).fitted n e)
    have ha : Good a := h.of_face (face_setEntry ..)
    have hp : Plain' (a.line n).condition := by
      show Plain' (s.line n).condition
      rw [hn n rfl]
      exact plain_notFitted
    have hb : Good ((a.setCondition n (a.conditionFromDirectory n)).resetClassifier n) :=
      (ha.setCondition hp (plain_fromDirectory a n)).of_face (face_setClassifier ..)
    split
    · exact hb.of_face ((face_arbitrate ..).trans (face_startPass ..))
    · exact hb
  all_goals exact h.of_face rfl

theorem Good.endRead (h : Good s) (hi : InvLoad s) (good : Option ItemContent) : Good (s.endRead good) := by
  unfold State.endRead
  split
  · exact h
  · next ld hld =>
    obtain ⟨hread, -, hunread⟩ := hi
    obtain ⟨-, hhigh, -⟩ := hread ld hld
    rw [Config.itemCount] at hhigh
    have hl : Good ((s.loadItem (Item.ofNumber ld.read) (good.getD (defaultContent (Item.ofNumber ld.read)))).setStored
        (Item.ofNumber ld.read) good) :=
      (h.loadItem _ _ fun n e => hunread n ⟨ld, hld, (ofNumber_line ⟨ld.read, by omega⟩ n e).ge⟩).of_face
        (face_setStored ..)
    dsimp only
    split
    · exact hl.of_face rfl
    · exact hl.of_face rfl

end

end Sys2Proof.Proofs

/-! PROOFS. Every command and event keeps the register, the channel table and the duties in order (R81 to R95, R103,
R118 to R127): the invariant of the register holds after every step. -/

namespace Sys2Proof.Proofs

open Sys2Proof Sys2Proof.Machine

/-! ### A state that a command or event is taken in -/

/-- What the register's invariant needs of the rest of the state when a command or event is taken. -/
structure Fit (s : State) : Prop where
  good : Good s
  links : InvLinks s
  load : InvLoad s
  unfitted : ∀ n : LineId, (s.group n.group).fitted.val ≤ n.pos.val → (s.line n).condition = .notFitted
  orders : s.orders = []

section

variable {s : State} {l : Link} {c : Centre} {r : CallRecord}

theorem fit_of_inv (h : Inv s) (rest : List Instr) : Fit { s with pending := rest, orders := [] } := by
  obtain ⟨hlinks, hduty, -, -, hload, -, hids, hcalls, hchan, -, hlines, -⟩ := h
  refine ⟨⟨kept_of_inv hids hcalls hchan, hduty⟩, hlinks, hload, fun n hn => ?_, rfl⟩
  by_cases hu : s.unread n
  · exact hload.2.2 n hu
  · exact (hlines.2.1 n hu).1.mpr hn

/-! ### The effect of a frame on the ledger -/

theorem ledger_healthChanged (s : State) (c : Centre) (old : Health) : ledger (s.healthChanged c old) = ledger s := by
  unfold State.healthChanged
  dsimp only
  split
  · rfl
  · refine (fallback_spec _).1.trans ?_
    split
    · exact (offers_escalateOffers s c).ledger
    · split
      · exact (offers_becomeUsable s c).ledger
      · rfl

theorem ledger_validFrame (s : State) (c : Centre) : ledger (s.validFrame c) = ledger s := by
  unfold State.validFrame
  dsimp only
  split
  · split
    · exact (ledger_healthChanged ..).trans ((ledger_of_face (face_setLink ..)).trans
        ((ledger_setCentre ..).trans (ledger_setCentre ..)))
    · exact ledger_setCentre ..
  · exact (ledger_healthChanged ..).trans ((ledger_setCentre ..).trans (ledger_setCentre ..))

theorem ledger_arrive (s : State) (l : Link) : ledger (s.arrive l) = ledger s := by
  have hd : ∀ u : State, ledger (u.deliverReport l) = ledger u := fun u => by
    have hset : ledger (u.setReportPending l false) = ledger u := by cases l <;> rfl
    unfold State.deliverReport
    split
    · dsimp only
      split
      · exact (ledger_of_face (face_notify ..)).trans hset
      · exact hset
    · rfl
  refine (hd _).trans (Eq.trans ?_ (ledger_of_face (face_setLink s l { s.link l with receive := .hunt })))
  unfold State.onCentre
  split
  · exact ledger_validFrame ..
  · rfl

/-! ### Commands -/

/-- A state in which a command's own checks and effect begin. -/
structure Ready (s : State) (l : Link) : Prop where
  good : Good s
  heard : ∀ c, l.centre? = some c → (s.centre c).health ≠ .lost
  unfitted : ∀ n : LineId, (s.group n.group).fitted.val ≤ n.pos.val → (s.line n).condition = .notFitted

theorem Fit.ready (h : Fit s) (hl : (s.arrive l).isLost l = false) : Ready (s.arrive l) l := by
  refine ⟨h.good.arrive h.links l, fun c hc e => ?_, fun n hn => ?_⟩
  · rw [State.isLost, hc] at hl
    simp [e] at hl
  · have hg : (s.arrive l).groups = s.groups := by
      have := congrArg State.groups (steady_arrive s l)
      exact this
    rw [State.group, hg] at hn
    exact (congrFun (congrArg Ledger.condition (ledger_arrive s l)) n).trans (h.unfitted n hn)

theorem Fit.command {α : Type} (h : Fit s) {type : Byte} {right : Right} {read : Option α} {act : State → α → State}
    (ht : type ≠ Command.keepalive) (hact : ∀ a x, Ready a l → Good (act a x)) :
    Good (s.command l type right read act) := by
  obtain ⟨-, e⟩ | ⟨code, e⟩ | ⟨x, -, hh, -, e⟩ := command_cases s l type right read act
  · rw [e]; exact h.good
  · rw [e]; exact (h.good.arrive h.links l).of_face (face_refuse ..)
  · rw [e]; exact hact _ x (h.ready (heldUp_eq_none hh ht).2.2)

theorem Fit.centreCommand {α : Type} (h : Fit s) {type : Byte} {read : Option α} {act : State → Centre → α → State}
    (ht : type ≠ Command.keepalive)
    (hact : ∀ a c x, Good a → (a.centre c).health ≠ .lost → Good (act a c x)) :
    Good (s.centreCommand l type read act) := by
  refine h.command ht fun a x ha => ?_
  unfold State.onCentre
  split
  · next c hc => exact hact a c x ha.good (ha.heard c hc)
  · exact ha.good

theorem Good.withLine (h : Good s) {type b : Byte} {act : LineId → State} (hact : ∀ n, Good (act n)) :
    Good (s.withLine l type b act) := by
  unfold State.withLine
  split
  · exact hact _
  · exact h.of_face (face_refuse ..)

theorem Good.withCall (h : Good s) {type id : Byte} {act : CallRecord → State} (hact : ∀ r ∈ s.records, Good (act r)) :
    Good (s.withCall l type id act) := by
  unfold State.withCall
  split
  · next r hr =>
    refine hact r ?_
    unfold State.lookup at hr
    split at hr
    · cases hr
    · split at hr
      · next q hq =>
        cases hr
        exact (mem_of_recordById hq).1
      · split at hr <;> cases hr
  · exact h.of_face (face_refuse ..)
  · exact h.of_face (face_refuse ..)

theorem Good.withClaimed (h : Good s) {type id : Byte} {act : CallRecord → State}
    (hact : ∀ r ∈ s.records, r.claimant = some c → Good (act r)) : Good (s.withClaimed c type id act) := by
  refine h.withCall fun r hr => ?_
  split
  · next hc => exact hact r hr hc
  · exact h.of_face (face_refuse ..)

theorem Good.keepalive (h : Good s) (hi : InvLinks s) (body : List Byte) :
    Good (s.command l Command.keepalive .none (readNone body) fun a _ => a.takeKeepalive l) := by
  obtain ⟨-, e⟩ | ⟨code, e⟩ | ⟨_, -, -, -, e⟩ :=
    command_cases s l Command.keepalive .none (readNone body) fun a _ => a.takeKeepalive l
  · rw [e]; exact h
  · rw [e]; exact (h.arrive hi l).of_face (face_refuse ..)
  · rw [e]; exact (h.arrive hi l).of_face ((face_reply ..).trans (face_setLink ..))

theorem Fit.setService (h : Fit s) (body : List Byte) : Good (s.setService l body) := by
  refine h.command (by decide) fun a x ha => ha.good.withLine fun n => ?_
  split
  · exact ha.good.serviceIn n
  · split
    · exact ha.good.serviceOut n
    · exact ha.good.of_face (face_refuse ..)

theorem face_takeListCalls (s : State) (l : Link) (start : Byte) : face (s.takeListCalls l start) = face s := by
  unfold State.takeListCalls
  refine (face_reply ..).trans ?_
  split
  · exact face_setLink ..
  · rfl

/-- Every command of a link keeps the register in order. -/
theorem good_commanded {i : Instr} {k : LinkCommand} (hk : linkCommand i = some k) (s : State) :
    ∃ f, exec i s = s.taking f ∧ ∀ b, Fit b → Good (f b) := by
  cases i <;> cases hk <;> dsimp only [exec, execKeepalive, execListCalls, execListAbandoned, execLineStatus,
    execReadDirectory, execReadProfile, execReadGroup, execSetWatch, execClaim, execAnswerNext, execHold,
    execRetrieve, execRelease, execTransfer, execRingPost, execCancelRing, execDismiss, execHandoverRequest,
    execResume, execSetServiceOut, execSetServiceIn, execTestLine, execWriteDirectory, execWriteProfile,
    execSetGroup, execSetAcceptance, execSetCallTimers, execSetBearer, execRestart]
  case keepalive l body => exact ⟨_, rfl, fun b hb => hb.good.keepalive hb.links body⟩
  case listCalls l body =>
    exact ⟨_, rfl, fun b hb => hb.command (by decide) fun a x ha => ha.good.of_face (face_takeListCalls ..)⟩
  case listAbandoned l body =>
    exact ⟨_, rfl, fun b hb => hb.command (by decide) fun a x ha => ha.good.of_face (face_reply ..)⟩
  case lineStatus l body =>
    exact ⟨_, rfl, fun b hb => hb.command (by decide) fun a x ha => ha.good.withLine fun n =>
      ha.good.of_face (face_reply ..)⟩
  case readDirectory l body =>
    refine ⟨_, rfl, fun b hb => hb.command (by decide) fun a x ha => ha.good.withLine fun n => ?_⟩
    unfold State.withFitted
    split
    · exact ha.good.of_face (face_refuse ..)
    · exact ha.good.of_face (face_reply ..)
  case readProfile l body =>
    refine ⟨_, rfl, fun b hb => hb.command (by decide) fun a x ha => ?_⟩
    split
    · exact ha.good.of_face (face_reply ..)
    · exact ha.good.of_face (face_refuse ..)
  case readGroup l body =>
    refine ⟨_, rfl, fun b hb => hb.command (by decide) fun a x ha => ?_⟩
    split
    · exact ha.good.of_face (face_reply ..)
    · exact ha.good.of_face (face_refuse ..)
  case setWatch l body =>
    refine ⟨_, rfl, fun b hb => hb.command (by decide) fun a x ha => ?_⟩
    split
    · exact ha.good.of_face ((face_reply ..).trans (face_setLink ..))
    · exact ha.good.of_face (face_refuse ..)
  case claim l body =>
    exact ⟨_, rfl, fun b hb => hb.centreCommand (by decide) fun a c x ha hl =>
      ha.withCall fun r hr => ha.claimRecord hr hl⟩
  case answerNext l body =>
    exact ⟨_, rfl, fun b hb => hb.centreCommand (by decide) fun a c x ha hl => ha.answerNext hl⟩
  case hold l body =>
    refine ⟨_, rfl, fun b hb => hb.centreCommand (by decide) fun a c x ha _ => ha.withClaimed fun r hr _ => ?_⟩
    split
    · next hs => exact ha.holdCall hr hs
    · exact ha.of_face (face_refuse ..)
  case retrieve l body =>
    refine ⟨_, rfl, fun b hb => hb.centreCommand (by decide) fun a c x ha _ => ha.withClaimed fun r hr hc => ?_⟩
    split
    · next hs =>
      split
      · next hg => exact ha.retrieveCall hr hs hc hg
      · exact ha.of_face (face_refuse ..)
    · exact ha.of_face (face_refuse ..)
  case release l body =>
    refine ⟨_, rfl, fun b hb => hb.centreCommand (by decide) fun a c x ha _ => ha.withClaimed fun r hr _ => ?_⟩
    split
    · have hf := face_refuse a l Command.release .ok
      exact (ha.of_face hf).endCall (by rw [records_of_face hf]; exact hr) _ (plain_parked ..)
    · exact ha.of_face (face_refuse ..)
  case transfer l body =>
    refine ⟨_, rfl, fun b hb => hb.centreCommand (by decide) fun a c x ha _ => ha.withClaimed fun r hr hc => ?_⟩
    split
    · exact ha.of_face (face_refuse ..)
    · next hs =>
      split
      · exact ha.of_face (face_refuse ..)
      · next hp => exact ha.transferCall hr (by simpa using hs) hc (by simpa using hp)
  case ringPost l body =>
    exact ⟨_, rfl, fun b hb => hb.centreCommand (by decide) fun a c x ha hl => ha.withLine fun n => ha.ringPost hl n⟩
  case cancelRing l body =>
    exact ⟨_, rfl, fun b hb => hb.centreCommand (by decide) fun a c x ha _ => ha.withLine fun n => ha.cancelRing n⟩
  case dismiss l body => exact ⟨_, rfl, fun b hb => hb.centreCommand (by decide) fun a c x ha _ => ha.dismiss x⟩
  case handoverRequest l body =>
    exact ⟨_, rfl, fun b hb => hb.centreCommand (by decide) fun a c x ha _ => ha.handoverRequest⟩
  case resume l body => exact ⟨_, rfl, fun b hb => hb.centreCommand (by decide) fun a c x ha _ => ha.resumeDuty⟩
  case setServiceOut l body => exact ⟨_, rfl, fun b hb => hb.setService body⟩
  case setServiceIn l body => exact ⟨_, rfl, fun b hb => hb.setService body⟩
  case testLine l body =>
    refine ⟨_, rfl, fun b hb => hb.command (by decide) fun a x ha => ha.good.withLine fun n => ?_⟩
    split
    · unfold State.withFitted
      split
      · exact ha.good.of_face (face_refuse ..)
      · exact ha.good.testLine n _
    · exact ha.good.of_face (face_refuse ..)
  case writeDirectory l body =>
    refine ⟨_, rfl, fun b hb => hb.command (by decide) fun a x ha => ?_⟩
    split
    · exact ha.good.writeEntry _ _
    · exact ha.good.of_face (face_refuse ..)
  case writeProfile l body =>
    refine ⟨_, rfl, fun b hb => hb.command (by decide) fun a x ha => ?_⟩
    split
    · exact ha.good.writeProfile _ _
    · exact ha.good.of_face (face_refuse ..)
  case setGroup l body =>
    refine ⟨_, rfl, fun b hb => hb.command (by decide) fun a x ha => ?_⟩
    split
    · exact ha.good.writeSettings _ ha.unfitted
    · exact ha.good.of_face (face_refuse ..)
  case setAcceptance l body =>
    refine ⟨_, rfl, fun b hb => hb.command (by decide) fun a x ha => ?_⟩
    split
    · exact ha.good.writeAcceptance _ _
    · exact ha.good.of_face (face_refuse ..)
  case setCallTimers l body => exact ⟨_, rfl, fun b hb => hb.command (by decide) fun a x ha => ha.good.writeTimers _⟩
  case setBearer l body => exact ⟨_, rfl, fun b hb => hb.command (by decide) fun a x ha => ha.good.writeBearer _⟩
  case restart l body => exact ⟨_, rfl, fun b hb => hb.command (by decide) fun a x ha => ha.good.takeRestart l⟩

/-! ### Events -/

theorem Good.atRecord (h : Good s) (id : CallId) {f : State → CallRecord → State} (hf : ∀ r ∈ s.records, Good (f s r)) :
    Good (s.atRecord id f) := by
  unfold State.atRecord
  split
  · next r hr => exact hf r (mem_of_recordById hr).1
  · exact h

theorem Fit.setReceive (h : Fit s) (l : Link) (x : Receive) : Fit (s.setReceive l x) where
  good := h.good.setReceive l x
  links := invLinks_setReceive h.links l x
  load := by cases l <;> exact h.load
  unfitted := by cases l <;> exact h.unfitted
  orders := by cases l <;> exact h.orders

theorem Good.onCentre (h : Good s) {f : State → Centre → State} (hf : ∀ c, Good (f s c)) : Good (s.onCentre l f) := by
  unfold State.onCentre
  split
  · exact hf _
  · exact h

theorem Fit.dropBadFrame (h : Fit s) (l : Link) : Good (s.dropBadFrame l) :=
  have hr := h.setReceive l .hunt
  hr.good.onCentre fun c => hr.good.badFrame hr.links hr.orders c

/-- Every event keeps the register in order. -/
theorem good_event {i : Instr} (hk : linkCommand i = none) (s : State) :
    ∃ f, exec i s = s.taking f ∧ ∀ b, Fit b → Good (f b) := by
  cases i <;> simp only [linkCommand, reduceCtorEq] at hk
  all_goals dsimp only [exec, execColdStart, execStoreReadCompletion, execStoreReadTimeout,
    execInputChange, execDebounceExpiry, execPassTimerExpiry, execOrderReady, execOrderReadyTimeout,
    execFixedSettleEnd, execProbeDelayExpiry, execParkTimerExpiry, execRingTimerExpiry, execIdentityBurst,
    execWindowTimerExpiry, execEscalationTimerExpiry, execOverdueTimerExpiry, execTransferTimerExpiry,
    execLongCallTimerExpiry, execDwellTimerExpiry, execTestTimeLimit, execHookSense,
    execStoreWriteCompletion, execStoreWriteTimeout, execFrameBad, execFrameTimerExpiry,
    execSilenceTimerExpiry, execBreakRecognised, execBreakLong, execBreakEnd, execTransmissionComplete,
    execUnknownCommand, execSyncByteReceived]
  case coldStart m x k => exact ⟨_, rfl, fun b _ => good_coldStart b m x k⟩
  case storeReadCompletion late rep =>
    refine ⟨_, rfl, fun b hb => ?_⟩
    split
    · exact hb.good.endRead hb.load _
    · exact hb.good
  case storeReadTimeout => exact ⟨_, rfl, fun b hb => hb.good.endRead hb.load _⟩
  case inputChange i x => exact ⟨_, rfl, fun b hb => hb.good.of_face (face_setInput ..)⟩
  case debounceExpiry i => exact ⟨_, rfl, fun b hb => hb.good.endDebounce i⟩
  case passTimerExpiry g => exact ⟨_, rfl, fun b hb => hb.good.of_face (face_endPassTimer ..)⟩
  case orderReady g late vc ic valid =>
    refine ⟨_, rfl, fun b hb => ?_⟩
    split
    · split
      · exact hb.good.endOrder g _
      · exact hb.good
    · exact hb.good
  case orderReadyTimeout g =>
    refine ⟨_, rfl, fun b hb => ?_⟩
    split
    · split
      · exact hb.good.endOrder g _
      · exact hb.good
    · exact hb.good
  case fixedSettleEnd g vc ic valid =>
    refine ⟨_, rfl, fun b hb => ?_⟩
    split
    · split
      · exact hb.good
      · exact hb.good.endOrder g _
    · exact hb.good
  case probeDelayExpiry g => exact ⟨_, rfl, fun b hb => hb.good.of_face (face_endProbeDelay ..)⟩
  case parkTimerExpiry n =>
    refine ⟨_, rfl, fun b hb => ?_⟩
    split
    · next hn => exact (hb.good.setCondition (hn ▸ plain_parked ..) (plain_parked ..)).of_face (face_notifyLine ..)
    · exact hb.good
  case ringTimerExpiry n =>
    refine ⟨_, rfl, fun b hb => ?_⟩
    split
    · next hn => exact (hb.good.stopRing (by rw [hn]; rfl)).of_face (face_notify ..)
    · exact hb.good
  case identityBurst n bytes heard =>
    refine ⟨_, rfl, fun b hb => ?_⟩
    split
    · split
      · exact hb.good.endCapture n _
      · exact hb.good
    · exact hb.good
  case windowTimerExpiry n =>
    refine ⟨_, rfl, fun b hb => ?_⟩
    split
    · exact hb.good.endCapture n _
    · exact hb.good
  case escalationTimerExpiry id => exact ⟨_, rfl, fun b hb => hb.good.atRecord id fun r hr => hb.good.endEscalation hr⟩
  case overdueTimerExpiry id => exact ⟨_, rfl, fun b hb => hb.good.atRecord id fun r _ => hb.good.endOverdue r⟩
  case transferTimerExpiry id => exact ⟨_, rfl, fun b hb => hb.good.atRecord id fun r hr => hb.good.endTransferTimer hr⟩
  case longCallTimerExpiry id => exact ⟨_, rfl, fun b hb => hb.good.atRecord id fun r hr => hb.good.endLongCallTimer hr⟩
  case dwellTimerExpiry g => exact ⟨_, rfl, fun b hb => hb.good.of_face (face_endDwell ..)⟩
  case testTimeLimit g => exact ⟨_, rfl, fun b hb => hb.good.endTest g _⟩
  case hookSense n =>
    refine ⟨_, rfl, fun b hb => ?_⟩
    split
    · split
      · exact hb.good.endTest n.group _
      · exact hb.good
    · exact hb.good
  case storeWriteCompletion late ok =>
    refine ⟨_, rfl, fun b hb => ?_⟩
    split
    · exact hb.good
    · exact hb.good.of_face (face_endWrite ..)
  case storeWriteTimeout => exact ⟨_, rfl, fun b hb => hb.good.of_face (face_endWrite ..)⟩
  case frameBad l bytes =>
    refine ⟨_, rfl, fun b hb => ?_⟩
    split
    · exact hb.dropBadFrame l
    · exact hb.good
  case frameTimerExpiry l =>
    refine ⟨_, rfl, fun b hb => ?_⟩
    split
    · exact hb.dropBadFrame l
    · exact hb.good
  case silenceTimerExpiry c =>
    refine ⟨_, rfl, fun b hb => ?_⟩
    split
    · exact hb.good.enterLost hb.links hb.orders c
    · exact hb.good
  case breakRecognised l =>
    refine ⟨_, rfl, fun b hb => ?_⟩
    split
    · exact hb.good
    · exact (hb.good.setReceive l _).onCentre fun c => (hb.good.setReceive l _).zeroRecovery c
  case breakLong c =>
    refine ⟨_, rfl, fun b hb => ?_⟩
    split
    · exact (hb.setReceive c.link _).good.enterLost (hb.setReceive c.link _).links (hb.setReceive c.link _).orders c
    · exact hb.good
  case breakEnd l =>
    refine ⟨_, rfl, fun b hb => ?_⟩
    split
    · exact hb.good.setReceive l _
    · exact (hb.good.setReceive l _).linkClear l
    · exact hb.good
  case transmissionComplete l =>
    refine ⟨_, rfl, fun b hb => ?_⟩
    split
    · exact (hb.good.of_face (face_setLink ..)).afterTransmission l _
    · exact hb.good
  case unknownCommand l type body =>
    refine ⟨_, rfl, fun b hb => ?_⟩
    split
    · exact hb.good
    · next hn =>
      exact hb.command (by rintro rfl; exact hn (by decide)) fun a x ha => ha.good.of_face (face_refuse ..)
  case syncByteReceived l =>
    refine ⟨_, rfl, fun b hb => ?_⟩
    split
    · exact hb.good.setReceive l _
    · exact hb.good
    · exact hb.good

theorem good_exec (i : Instr) (s : State) : ∃ f, exec i s = s.taking f ∧ ∀ b, Fit b → Good (f b) := by
  cases hk : linkCommand i with
  | some k => exact good_commanded hk s
  | none => exact good_event hk s

theorem Good.idle (h : Good s) : Good s.idle := by
  unfold State.idle
  split
  · exact h.of_face rfl
  · exact h.of_face rfl

end

/-- Settles O59: what each operation keeps of the register, the lines and the channels, and of the duties. -/
theorem stepKeepsRegister : Obligations.StepKeepsRegister := by
  unfold Obligations.StepKeepsRegister
  intro s t h hstep
  have hgood : Good t := by
    cases hp : s.pending with
    | nil =>
      obtain rfl := Host.Outcome.next.inj (hstep.symm.trans (step_nil s hp))
      have hf := (fit_of_inv h s.pending).good
      exact Good.idle (hf.of_face rfl)
    | cons i rest =>
      obtain ⟨f, hf, hk⟩ := good_exec i { s with pending := rest }
      rw [step_cons s i rest hp, hf, State.taking_eq] at hstep
      obtain rfl := Host.Outcome.next.inj hstep
      exact hk _ (fit_of_inv h rest)
  obtain ⟨h1, h2, h3⟩ := hgood.kept.inv
  exact ⟨h1, h2, h3, hgood.duty⟩

end Sys2Proof.Proofs
